-- ==== Sys2Proof/Word.lean ====
section
/-!
DEFINITION. The words of the block: bit vectors for what the spec numbers bit by bit (port messages, registers), and the
plainest arithmetic on codes: clamps and saturation. Codes, counts and ticks are natural numbers and integers with their
ranges enforced where the spec states them (R5).
-/

namespace Sys2Proof

/-- A 32-bit register or downstream spine word (R58, R390). -/
abbrev Word := BitVec 32

/-- A 128-bit tether flit (R210, R214). -/
abbrev Flit := BitVec 128

/-- The largest of `lo` and the smaller of `x` and `hi`: the clamp of the spec's formulas. -/
def clampI (x lo hi : Int) : Int := max lo (min x hi)

/-- The same on exact rationals, for the tile loop of R37. -/
def clampQ (x lo hi : Rat) : Rat := max lo (min x hi)

/-- A count that stops at `m` (saturating counters and codes of the register tables). -/
def satNat (m n : Nat) : Nat := min m n

/-- A two's complement code of `w` bits read as an integer (R5). -/
def sext (w n : Nat) : Int := if n % 2 ^ w < 2 ^ (w - 1) then ((n % 2 ^ w : Nat) : Int) else ((n % 2 ^ w : Nat) : Int) - 2 ^ w

/-- An integer as a two's complement code of `w` bits (R5). -/
def uext (w : Nat) (x : Int) : Nat := (x % (2 ^ w : Int)).toNat

end Sys2Proof
end

