-- ==== Sys2Proof/Syntax.lean ====
section
/-!
DEFINITION. The commands the block takes from outside, and their operands. Every row of spec/opcode_table.json is one
constructor of `Instr`. A row's operands are what the surroundings bring to the happening: a measurement, a port message
as its raw bits with the bits of its check lane, a pin, a host access. What the block itself knows is in the state and is no operand.
-/

namespace Sys2Proof

/-- One of the two counter-rotating rings (R209). Ring 1 enters by port A, ring 2 by port B. -/
inductive Ring where
  | one
  | two
  deriving DecidableEq, Repr

/-- Where a TRAIN flit arrives: a ring, or the off-die port (R219, R220, R236). -/
inductive TrainPort where
  | ring (r : Ring)
  | offDie
  deriving DecidableEq, Repr

/-- A flit as it was received: its word and the ring it came on (R213, R214). -/
structure RxFlit where
  flit : Flit
  ring : Ring
  deriving DecidableEq, Repr

/-- A downstream spine word as it was received, with the bits of its check lane (R56). -/
structure RxWord where
  word : Word
  chk : BitVec 4
  deriving DecidableEq, Repr

/-- A downstream word with the tile that received it. -/
structure TileRx where
  tile : Fin 192
  rx : RxWord
  deriving DecidableEq, Repr

/-- The classes that have a ladder (R187). -/
inductive LadCls where
  | c
  | m
  | l
  deriving DecidableEq, Repr

/-- The activities of a domain sample (R160). -/
inductive Activity where
  | domainLoops
  | forecaster
  | attribution
  | dumpsAndTrace
  | supervisorTable
  deriving DecidableEq, Repr

/-- What a tile agent measured over the switching period that has just ended (R32, R41): VSNS as a set-point code, VIN in mV,
the currents on the taps CS0 to CS3 in mA, and whether a droop input of its mitten is asserted. -/
structure PeriodMeas where
  vsns : Nat
  vin : Int
  i0 : Int
  i1 : Int
  i2 : Int
  i3 : Int
  droop : Bool
  deriving DecidableEq, Repr

/-- The outcome of one start-check pulse (R54): the CS channels on which a rise above 50 mA appeared and the rise of the
pulsed phase at the end of the pulse, in mA. -/
structure Pulse where
  chans : List (Fin 4)
  rise : Nat
  deriving DecidableEq, Repr

/-- The four start-check pulses of a tile (R54). -/
structure StartPulses where
  k0 : Pulse
  k1 : Pulse
  k2 : Pulse
  k3 : Pulse
  deriving DecidableEq, Repr

/-- One sense word of a burst (R383): the local point, mean and minimum in mV, RAIL and FLAT. -/
structure SenseWord where
  point : Fin 512
  mean : Nat
  min : Nat
  rail : Bool
  flat : Bool
  deriving DecidableEq, Repr

/-- What reaches the field core in a domain sample: the sense words of the sample before that passed their check lane
(a point without a word is voided, R384), and the page reads that failed their checksum in a feeder, as array and page
(R164). -/
structure SampleIn where
  sense : List SenseWord
  upsets : List (Fin 4 × Fin 8192)
  deriving DecidableEq, Repr

/-- The straps at the release of RST_N (R207, R246) and the arrays that failed their self-test (R167). -/
structure Straps where
  manager : Bool
  fieldId : Fin 8
  nvmEn : Bool
  bistFail : BitVec 4
  deriving DecidableEq, Repr

/-- The fuse contents with FUSE_CRC (R244), and the ticket-port version range of each cluster as VER_MIN and VER_MAX (R373). -/
structure FuseRead where
  vt : List Nat
  vsafe : List Nat
  safeMitten : List Nat
  safeCluster : List Nat
  safeClass : List Nat
  keyHash : BitVec 256
  sigReq : Bool
  nvmClk : Fin 4
  crc : Word
  tkVer : List (Nat × Nat)
  deriving DecidableEq, Repr

/-- What the SFDP tables of the flash device say (R247, R329, R332): signature and revision as required, the Basic Flash
Parameter Table present, bytes of the device, the read modes listed, with opcode, mode clocks and dummy clocks of 1-4-4, 1-1-4,
1-2-2 and 1-1-2 in that order, whether a quad mode can be enabled without a non-volatile write and whether that takes a status
write, 4-byte reads or the 0xB7 entry method, 4 KiB erase, suspend, and the maximum times in ns. -/
structure Sfdp where
  answers : Bool
  signature : BitVec 32
  major : Nat
  bfpt : Bool
  size : Nat
  has144 : Bool
  has114 : Bool
  has122 : Bool
  has112 : Bool
  reads : List (Nat × Nat × Nat)
  quadOk : Bool
  qeWrite : Bool
  read4 : Bool
  enter4 : Bool
  erase4k : Bool
  suspend : Bool
  tPage : Nat
  tSus : Nat
  deriving DecidableEq, Repr

/-- The answers of one PMBus address at discovery (R320): the list index it stands for, whether it answered, the three
results byte for byte, CAPABILITY and VOUT_MODE, and whether a PEC check failed. -/
structure PmbAnswer where
  index : Fin 16
  present : Bool
  r1 : List (BitVec 8)
  r2 : List (BitVec 8)
  r3 : List (BitVec 8)
  capability : BitVec 8
  voutMode : BitVec 8
  pecFail : Bool
  deriving DecidableEq, Repr

/-- The words one device returned in a poll (R318, R321), or the reason of the failed transaction (R322). -/
structure PmbPolled where
  index : Fin 16
  fail : Option (Fin 6)
  status : BitVec 16
  vin : BitVec 16
  vout : BitVec 16
  iout : BitVec 16
  temp : BitVec 16
  statTemp : BitVec 8
  deriving DecidableEq, Repr

/-- What the Alert Response Address returned (R323): the address and, for a listed device, STATUS_WORD and
STATUS_TEMPERATURE for each list index at that address. -/
structure PmbAlert where
  addr : BitVec 7
  status : List (Fin 16 × BitVec 16 × BitVec 8)
  deriving DecidableEq, Repr

/-- The outcome of spine enumeration (R20, R35, R380): for each chain its length in tiles and its hop latency in ps, and
the tiles that did not answer. -/
structure Enumerated where
  len : List Nat
  hop : List Nat
  silent : List (Fin 192)
  deriving DecidableEq, Repr

/-- The commands of the block: one constructor per row of the table of operations and events, with the row's operands. -/
inductive Instr where
  /-- SWITCHING_PERIOD (R37). At each switching period start a tile agent runs its voltage loop, computes the phase duties and runs its per-period protection checks. -/
  | switchingPeriod (t : Fin 192) (x : PeriodMeas)
  /-- TILE_SAMPLE_BOUNDARY (R37). At each domain-sample boundary a tile applies queued commands, CFG, MREF and MSUM and runs its share and balance trims. -/
  | tileSampleBoundary (t : Fin 192)
  /-- DROOP_ASSERT (R41). A droop input of the mitten asserts, and a tile in REGULATE or SHED boosts its pulses within 2 ns. -/
  | droopAssert (m : Fin 32)
  /-- DROOP_HOLD_EXPIRY (R41). DROOP_HOLD switching periods after the last droop input deasserts, the tile removes its droop boost. -/
  | droopHoldExpiry (t : Fin 192)
  /-- ILIM_PK (R47). A phase current crosses ILIM_PK and the high side turns off for the rest of the period. -/
  | ilimPk (t : Fin 192) (k : Fin 4)
  /-- ILIM_NEG (R47). A phase current crosses ILIM_NEG and the low side turns off for the rest of the period. -/
  | ilimNeg (t : Fin 192) (k : Fin 4)
  /-- ILIM_HOLD (R47). A phase averages above ILIM_CONT for TLIM consecutive samples, or below 90% of it for 16 samples while held, and the hold is entered or left. -/
  | ilimHold (t : Fin 192) (k : Fin 4)
  /-- MCRB_N (R49). The mitten crowbar net is seen asserted, and every active tile of the mitten enters CROWBAR within 1 period. -/
  | mcrbN (m : Fin 32)
  /-- MFLT_N (R52). The mitten short net is seen asserted, and a tile in SOFTSTART stops switching and latches. -/
  | mfltN (m : Fin 32)
  /-- VSNS_OPEN (R47). After 64 consecutive periods of VSNS below 25% of VREF with current flowing, the tile freezes its voltage loop. -/
  | vsnsOpen (t : Fin 192)
  /-- VSNS_OPEN_EXIT (R47). After 1,024 consecutive periods of plausible VSNS, a frozen tile resumes its voltage loop and reports the exit. -/
  | vsnsOpenExit (t : Fin 192)
  /-- OPEN_PHASE (R53). A phase below the open-phase threshold for 16 consecutive periods at duty of at least 32 steps is retired. -/
  | openPhase (t : Fin 192) (k : Fin 4)
  /-- PRECHARGE_DONE (R54). A tile completes its start checks in PRECHARGE and reports PRECHARGE_DONE. -/
  | prechargeDone (t : Fin 192) (x : StartPulses)
  /-- CAP_DONE (R55). A tile ends its capacitance test and reports the VSNS rise. -/
  | capDone (t : Fin 192)
  /-- RAMP_END (R43). At the soft-start ramp end tick a tile moves from SOFTSTART to REGULATE. -/
  | rampEnd (t : Fin 192)
  /-- SPINE_LOSS (R65). A tile with no valid SYNC for 16 consecutive samples stops switching and enters RETIRED. -/
  | spineLoss (t : Fin 192)
  /-- TILE_NOP (R59). A NOP spine command reaches a tile and does nothing. -/
  | tileNop (c : TileRx)
  /-- START (R43). The START spine command moves a tile with adequate VIN from OFF to PRECHARGE. -/
  | start (c : TileRx)
  /-- SS_TARGET (R59). The SS_TARGET spine command gives a tile its soft-start target code. -/
  | ssTarget (t : Fin 192) (w : RxWord)
  /-- SS_GO (R51). The SS_GO spine command starts the soft-start ramp of length L and fixes T0. -/
  | ssGo (t : Fin 192) (w : RxWord)
  /-- STOP (R43). The STOP spine command sends a running tile to OFF at the end of the period. -/
  | stop (c : TileRx)
  /-- SHED (R45). The SHED spine command turns off the named phases after the current period. -/
  | shed (t : Fin 192) (w : RxWord)
  /-- UNSHED (R45). The UNSHED spine command returns the named phases one per period. -/
  | unshed (t : Fin 192) (w : RxWord)
  /-- RETIRE_PHASE (R59). The RETIRE_PHASE spine command retires the named phases of a tile. -/
  | retirePhase (t : Fin 192) (w : RxWord)
  /-- RETIRE_TILE (R43). The RETIRE_TILE spine command moves a tile to RETIRED. -/
  | retireTile (c : TileRx)
  /-- CROWBAR (R49). The CROWBAR spine command clamps an active tile in CROWBAR. -/
  | crowbar (c : TileRx)
  /-- CLEAR (R50). The CLEAR spine command returns a CROWBAR or LATCHED tile to OFF when its cause has cleared. -/
  | clear (c : TileRx)
  /-- SET_OFS (R34). The SET_OFS spine command changes a tile's placement offset. -/
  | setOfs (t : Fin 192) (w : RxWord)
  /-- SET_SHARE (R95). The SET_SHARE spine command sets a tile's share weight. -/
  | setShare (t : Fin 192) (w : RxWord)
  /-- CAP_TEST (R55). The CAP_TEST spine command makes a tile in PRECHARGE source 1 A for the commanded duration. -/
  | capTest (t : Fin 192) (w : RxWord)
  /-- SYNC (R58). A tile receives the SYNC word carrying the sample's time. -/
  | sync (t : Fin 192) (w : Word) (chk : BitVec 4)
  /-- MREF (R58). A tile receives the MREF word with VREF and FF for its mitten. -/
  | mref (t : Fin 192) (w : Word) (chk : BitVec 4)
  /-- MSUM (R58). A tile receives the MSUM word with the mitten current and DROOP_MARGIN. -/
  | msum (t : Fin 192) (w : Word) (chk : BitVec 4)
  /-- CFG (R60). A tile receives a CFG word that sets one local-loop or protection parameter. -/
  | cfg (t : Fin 192) (w : Word) (chk : BitVec 4)
  /-- TREP (R61). The field core receives a tile's report for the previous sample. -/
  | trep (q : Fin 8) (w : BitVec 64) (chk : BitVec 4)
  /-- EVENT (R62). The field core receives a tile EVENT word, extends its time and maps it to a fault class. -/
  | event (q : Fin 8) (w : BitVec 64) (chk : BitVec 4)
  /-- PENDING_EVENT_EXPIRY (R64). A pending tile event unsent 4,000 samples after detection is dropped with EVT_LOST. -/
  | pendingEventExpiry (t : Fin 192)
  /-- TILE_LOST (R65). After 16 consecutive missed TREPs the field core counts the tile lost, sends RETIRE_TILE and raises TILE_LOST. -/
  | tileLost (t : Fin 192)
  /-- DOMAIN_SAMPLE (R67). Each domain sample Skelrak runs the domain loops, the profile generator, ballast and the trust and mismatch tests and emits MREF. -/
  | domainSample (x : SampleIn)
  /-- SENSE_TRUST (R77). A sense point reaching its stuck or disagreement count loses trust and SENSE_TRUST is raised. -/
  | senseTrust (p : Fin 512)
  /-- TRUST_REGAIN (R78). An untrusted point that passes all tests for TRUST_REGAIN samples regains trust. -/
  | trustRegain (p : Fin 512)
  /-- DOM_SAT (R84). The saturated-sample count of a domain reaches SAT_TIME and DOM_SAT is raised. -/
  | domSat (d : Fin 32)
  /-- DOM_SAT_PERSIST (R84). The saturated-sample count reaches SAT_ERR and DOM_SAT_PERSIST is raised. -/
  | domSatPersist (d : Fin 32)
  /-- BALLAST_MISMATCH (R126). The fourth consecutive failing mismatch slot withdraws the ballast of the domain's tickets. -/
  | ballastMismatch (d : Fin 32)
  /-- REDIST_SLOW (R96). 2 µs after a loss a tile outside its share band raises REDIST_SLOW. -/
  | redistSlow (m : Fin 32)
  /-- SHARE_OSC (R97). A tile's share oscillates 8 times in 32 samples and ks of the mitten is halved. -/
  | shareOsc (t : Fin 192)
  /-- FRAME (R15). At each frame the field supervisor composes targets, records losses, evaluates limits and sends the frame's decisions. -/
  | frame
  /-- DOMAIN_SHED (R88). After SHED_DWELL frames of low current the supervisor sheds a domain's phases. -/
  | domainShed (d : Fin 32)
  /-- LADDER_NOTCH_DOWN (R188). A class power above its allocation after CAP_STEP_DN frames takes one notch down. -/
  | ladderNotchDown (k : LadCls)
  /-- LADDER_NOTCH_UP (R188). A class power below its hysteresis mark for CAP_STEP_UP frames takes one notch up. -/
  | ladderNotchUp (k : LadCls)
  /-- HOUSEKEEPING_ROUND (R301). At each round boundary the instance evaluates the round's temperatures, reports and retrains, and sends its field report. -/
  | housekeepingRound
  /-- MANAGER_ALLOCATION (R186). In frame 4 the manager computes the die allowance, shares it among classes and fields, and checks disputes. -/
  | managerAllocation
  /-- CAP_FLOOR_END (R192). After 16 rounds with a CAP_FLOOR condition failing, CAP_FLOOR ends. -/
  | capFloorEnd
  /-- ATTR_RESIDUAL (R204). A relative attribution residual above ATTR_TOL for 16 rounds raises ATTR_RESIDUAL. -/
  | attrResidual
  /-- TEMP_CONVERSION (R302). A digital temperature sensor completes its conversion every 64 frames. -/
  | tempConversion (i : Fin 128) (code : Int)
  /-- THERM_CRIT (R196). A hot-spot comparator at T_CRIT sends the sensor's domain to its coolant-loss state. -/
  | thermCrit (i : Fin 128) (code : Int)
  /-- THERM_TRIP (R196). A sensor at 125 °C asserts THERMTRIP_N and stops the die as on coolant loss. -/
  | thermTrip (i : Fin 128) (code : Int)
  /-- COOL_OK_DEASSERT (R198). COOL_OK low at 16 consecutive ticks starts the coolant stop of the instance and the die. -/
  | coolOkDeassert
  /-- CL_STRETCH (R124). A cluster's stretch indication is counted for its live tickets. -/
  | clStretch (c : Fin 32)
  /-- FORECASTER_PERIOD (R159). At each forecaster period start the lanes run their forecaster programs on latched inputs. -/
  | forecasterPeriod
  /-- WINDOW_PREEMPT (R163). At the end of an activity window, work left is pre-empted with its activity's fall-back. -/
  | windowPreempt (a : Activity) (l : Fin 4)
  /-- PAGE_RECHECK (R166). In the next supervisor window the supervisor checks a failed page and charges the array or starts a reload. -/
  | pageRecheck (pg : Fin 8192) (ok : Bool)
  /-- ENG_ARRAY_RETIRED (R167). An array charged with 3 failures in a round is retired and the lanes are re-placed. -/
  | engArrayRetired (a : Fin 4)
  /-- PAGE_REQ (R166). The manager receives a worker's page request and serves it from the image. -/
  | pageReq (f : RxFlit)
  /-- PAGE_DATA (R166). A worker receives reloaded page data, writes it with its checksum and reads it back. -/
  | pageData (f : RxFlit) (ok : Bool)
  /-- TICKET_REQUEST (R103). A launch request arrives on TK_REQ and is queued or refused. -/
  | ticketRequest (c : Fin 32) (w : BitVec 96) (whole : Bool)
  /-- DONE_REPORT (R108). A done report arrives on TK_RPT and ends its ticket as DONE. -/
  | doneReport (c : Fin 32) (w : Word) (whole : Bool)
  /-- COUNT_REPORT (R108). A count report arrives on TK_RPT and its counts go to attribution. -/
  | countReport (c : Fin 32) (w : BitVec 96) (whole : Bool)
  /-- GRANT_PASS (R120). At each tick the ticket unit tries up to 64 queued candidates against the ledgers and grants slots. -/
  | grantPass
  /-- TICKET_RESPONSE (R106). A pending response leaves on TK_RSP. -/
  | ticketResponse (c : Fin 32)
  /-- TICKET_ARM (R110). At the ballast start a granted ticket becomes ARMED. -/
  | ticketArm (i : Fin 65536)
  /-- TICKET_LAUNCH (R110). At its slot a ticket becomes LAUNCHED and its snapshot start is latched. -/
  | ticketLaunch (i : Fin 65536)
  /-- TICKET_RUN (R110). At S + 8 a launched ticket becomes RUNNING. -/
  | ticketRun (i : Fin 65536)
  /-- TICKET_EXPIRY (R112). A queued or running ticket reaches its expiry tick and ends as EXPIRED. -/
  | ticketExpiry (i : Fin 65536)
  /-- SG_FWD (R129). The manager receives a forwarded sync request and places it in a launch set. -/
  | sgFwd (f : RxFlit)
  /-- SG_SET (R129). A field receives SG_SET and binds its queued requests to the set. -/
  | sgSet (f : RxFlit)
  /-- SG_PROP (R129). A field receives a proposed slot, books its members and votes. -/
  | sgProp (f : RxFlit)
  /-- SG_VOTE (R129). The manager receives a field's vote and commits or cancels the round. -/
  | sgVote (f : RxFlit)
  /-- SG_COMMIT (R129). A field receives SG_COMMIT and grants its members the agreed slot. -/
  | sgCommit (f : RxFlit)
  /-- SG_CANCEL (R129). A field receives SG_CANCEL and unbooks its members. -/
  | sgCancel (f : RxFlit)
  /-- SG_DROP (R129). The manager receives SG_DROP and removes a member from its set. -/
  | sgDrop (f : RxFlit)
  /-- SG_WD (R131). A withdrawal of a committed set is forwarded and each field withdraws members not yet launched. -/
  | sgWd (f : RxFlit)
  /-- SG_VOTE_TIMEOUT (R130). A vote missing 64 ticks after SG_PROP fails its round. -/
  | sgVoteTimeout (g : Fin 64)
  /-- SG_FAIL (R130). After 16 consecutive failed rounds the manager withdraws every member of the set. -/
  | sgFail (g : Fin 64)
  /-- TRAIN (R219). A TRAIN flit teaches ring positions, FIELD_IDs and version ranges. -/
  | train (f : Flit) (p : TrainPort)
  /-- ECHO (R219). An ECHO flit is turned back to measure a seam's hop delay. -/
  | echo (back : Option Nat)
  /-- TIME (R227). A worker receives the manager's TIME flit and estimates its offset. -/
  | time (f : Flit) (r : Ring) (frac : Fin 16)
  /-- TIME_VALID_SET (R229). After 4 consecutive estimates within 1 tick the time-valid flag sets. -/
  | timeValidSet
  /-- TTH_TIME_STEP (R229). At the next frame start after invalid time, the worker withdraws affected tickets and steps TETHER_TIME. -/
  | tthTimeStep
  /-- DD_MODE (R173). An instance receives a mode decision with its effective tick. -/
  | ddMode (f : RxFlit)
  /-- DD_ALLOC (R186). A field receives a class allocation with its effective tick. -/
  | ddAlloc (f : RxFlit)
  /-- DIE_DECISION_APPLY (R15). At its effective tick an instance applies a die decision. -/
  | dieDecisionApply
  /-- COOL_STOP (R198). An instance receives COOL_STOP and takes the coolant stop at once. -/
  | coolStop (f : RxFlit)
  /-- COOL_LOSS (R198). The manager receives a worker's COOL_LOSS and orders COOL_STOP. -/
  | coolLoss (f : RxFlit)
  /-- FREEZE_FLIT (R351). An instance receives FREEZE with Tf and schedules its stop. -/
  | freezeFlit (f : RxFlit)
  /-- THAW_FLIT (R355). An instance receives THAW with the thaw tick. -/
  | thawFlit (f : RxFlit)
  /-- RING_UP (R231). At its effective tick RING_UP restores the split of traffic on both rings. -/
  | ringUp (f : RxFlit)
  /-- LINK_DOWN (R230). An instance receives LINK_DOWN and takes the ring as down. -/
  | linkDown (f : RxFlit)
  /-- TTH_LINK_DOWN (R230). An incoming link without clock for 4 ticks or with 16 failed flits is declared down and LINK_DOWN broadcast. -/
  | tthLinkDown (r : Ring) (crc : Bool)
  /-- FLIT_RESEND (R218). A class 1 or 2 flit not returned within 32 ticks is resent. -/
  | flitResend (q : Fin 64)
  /-- HASH (R223). The manager receives a worker's digest part and compares the complete digest. -/
  | hash (f : RxFlit)
  /-- HASH_TIMEOUT (R223). A worker whose digest is incomplete 64 frames after its last SECT flit is held. -/
  | hashTimeout (fld : Fin 8)
  /-- RPT_CLASS (R185). The manager receives a worker's class power and floor report. -/
  | rptClass (f : RxFlit)
  /-- RPT_DEMAND (R185). The manager receives a worker's class demand report. -/
  | rptDemand (f : RxFlit)
  /-- RPT_FIELD (R224). The manager receives a worker's field report with A-class power, energy, mode and GROUNDED flag. -/
  | rptField (f : RxFlit)
  /-- JOB_NRG (R203). The manager receives a job energy record and adds it to the job table. -/
  | jobNrg (f : RxFlit)
  /-- TRACE (R348). The manager receives a TRACE flit and stores the message or assembles a record. -/
  | trace (f : RxFlit)
  /-- REC_ASSEMBLY_TIMEOUT (R347). A forwarded record incomplete 65,536 ticks after its first part is discarded. -/
  | recAssemblyTimeout (fld : Fin 8)
  /-- SECT (R256). A worker receives image content in a SECT flit and stores it as pending. -/
  | sect (f : RxFlit)
  /-- VERDICT (R258). A worker receives the verdict and commits its content or starts on the factory safe table. -/
  | verdict (f : RxFlit)
  /-- RUN (R259). A worker receives RUN with T_on and T_ready. -/
  | run (f : RxFlit)
  /-- XT_EXCHANGE (R237). Every 64 frames a FOLLOWER sends XT_REQ to its partner. -/
  | xtExchange
  /-- XT_REQ (R237). A SOURCE receives XT_REQ and answers with XT_RSP. -/
  | xtReq (f : Flit) (frac : Fin 16)
  /-- XT_RSP (R237). A FOLLOWER receives XT_RSP, computes its offset and steps or steers. -/
  | xtRsp (f : Flit) (frac : Fin 16)
  /-- XT_THR (R238). The manager receives the partner's throttle level. -/
  | xtThr (f : Flit)
  /-- XT_LINK_DOWN (R238). No XT_THR for 16 rounds raises XT_LINK_DOWN. -/
  | xtLinkDown (clock : Bool)
  /-- TTH_MGR_LOST (R234). 16 frames without TIME make a worker declare the manager lost. -/
  | tthMgrLost
  /-- MGR_LOST_GROUNDED (R234). At the 16th round without the manager the worker enters GROUNDED. -/
  | mgrLostGrounded
  /-- TTH_WORKER_LOST (R235). Reports missing for 4 rounds make the manager treat a worker as lost. -/
  | tthWorkerLost (fld : Fin 8)
  /-- RST_N_ASSERT (R243). RST_N asserts and every tile goes OFF with HDR_EN held low. -/
  | rstNAssert
  /-- RST_N_RELEASE (R240). RST_N releases, the straps are sampled and the cold start begins. -/
  | rstNRelease (x : Straps)
  /-- PLL_LOCK (R240). The PLL locks and the fuse read starts. -/
  | pllLock
  /-- FUSE_READ (R244). The fuse read completes and the host port begins answering. -/
  | fuseRead (x : FuseRead)
  /-- RING_TRAINING (R219). Ring training completes with positions, roster and versions. -/
  | ringTraining (ring1 ring2 : Bool)
  /-- NVM_DISCOVERY (R247). The manager completes SFDP discovery and selects the read mode. -/
  | nvmDiscovery (x : Sfdp)
  /-- IMAGE_VERIFY (R254). The manager completes the image read and checks and broadcasts the verdict. -/
  | imageVerify
  /-- NO_VERDICT (R271). No verdict within 1 s of ring training starts the instance on the factory safe table. -/
  | noVerdict
  /-- LOG_SCAN (R335). The manager completes the start-up scan of the log region. -/
  | logScan
  /-- BRING_UP_START (R262). At a domain's scheduled start tick its bring-up begins with START. -/
  | bringUpStart (d : Fin 32)
  /-- BRING_WINDOW (R263). A domain not READY at its window's end ends its bring-up and turns off. -/
  | bringWindow (d : Fin 32)
  /-- BRIDLE_START (R266). At the first frame boundary after CLOSED, a C domain's bridle sequence starts. -/
  | bridleStart (d : Fin 32)
  /-- BRIDLE_STAGE (R266). At a sample boundary at or after a stage's due tick, the stage switches on unless current limits hold it. -/
  | bridleStage (d : Fin 32)
  /-- BRIDLE_HOLD (R267). A stage waiting HOLD ticks abandons the turn-on and switches the stages off. -/
  | bridleHold (d : Fin 32)
  /-- BRIDLE_RETRY (R267). At the end of RETRY_GAP the bridle sequence restarts from stage 0. -/
  | bridleRetry (d : Fin 32)
  /-- READY (R270). At T_ready the instance sets READY, takes its mode and starts its windows. -/
  | ready
  /-- OFF_SEQUENCE_START (R273). At a domain's scheduled tick its off sequence starts. -/
  | offSequenceStart (d : Fin 32)
  /-- PWRFAIL_N (R274). PWRFAIL_N low at 16 ticks withdraws tickets, ramps C domains off and starts the recorder flush. -/
  | pwrfailN
  /-- PWRFAIL_N_RETURN (R274). PWRFAIL_N returns high and M, L and A domains go on regulating. -/
  | pwrfailNReturn
  /-- ESC_RUNG (R287). An unacknowledged occurrence's escalation timer expires and the next rung is taken. -/
  | escRung (i : Fin 4096)
  /-- GROUNDED_EXIT (R296). After the last GROUNDED-rung occurrence closes, the instance leaves GROUNDED. -/
  | groundedExit
  /-- RETRY_GAP (R290). After a retry gap the field core clears the domain's latched tiles and brings it up again. -/
  | retryGap (d : Fin 32)
  /-- LOCKSTEP (R292). A lockstep mismatch resets the supervisors and the GROUNDED sequencer takes over. -/
  | lockstep
  /-- PLL_HOLDOVER (R31). Loss of every reference puts the PLL in holdover. -/
  | pllHoldover
  /-- PLL_RELOCK (R31). A returning reference makes the PLL slew back to lock. -/
  | pllRelock
  /-- VIN_RANGE (R291). Mean VIN outside the operating range for 16 frames raises VIN_RANGE. -/
  | vinRange
  /-- ADC_SCAN (R305). At each scan start the ADC converts the sequence entries. -/
  | adcScan (uv : List Int)
  /-- HK_THERM_REV (R310). A thermistor entry reading negative in 4 consecutive scans is marked reversed. -/
  | hkThermRev (i : Fin 16)
  /-- HK_RANGE (R309). A channel's round value outside its limits for 4 rounds raises HK_RANGE. -/
  | hkRange (i : Fin 16)
  /-- TLM_PUBLISH (R311). At each telemetry window's end the records are published and TLM_SEQ advances. -/
  | tlmPublish
  /-- PMB_DISCOVERY (R320). At a GOOD verdict the manager discovers the listed PMBus devices. -/
  | pmbDiscovery (x : List PmbAnswer)
  /-- PMB_POLL (R321). At each poll cycle the manager reads status and telemetry of every listed converter. -/
  | pmbPoll (x : List PmbPolled)
  /-- PMB_RETRY (R322). A failed PMBus transaction is retried 100 µs later. -/
  | pmbRetry (n : Fin 16) (x : PmbPolled)
  /-- PMB_ALERT_N (R323). PMB_ALERT_N low at 16 ticks makes the manager read the Alert Response Address. -/
  | pmbAlertN (x : PmbAlert)
  /-- LOG_FORWARD (R328). A worker forwards a buffered record to the manager in six TRACE flits. -/
  | logForward
  /-- LOG_FLUSH_START (R331). Within 1 frame of a trigger the manager starts writing unwritten records to flash. -/
  | logFlushStart
  /-- PAGE_PROGRAM_DONE (R330). A flash page program completes and is read back. -/
  | pageProgramDone (ok : Bool)
  /-- SECTOR_ERASE_DONE (R334). A sector erase for reclamation completes. -/
  | sectorEraseDone (ok : Bool)
  /-- PF_FLUSH (R332). A power-fail trigger starts a severity-ordered flush bounded to 2 ms. -/
  | pfFlush
  /-- FREEZE_CUT (R351). At the end of Tf every instance stops its supervisors, engine, ticket unit and ports. -/
  | freezeCut
  /-- THAW_RESUME (R355). At Tt each instance processes captured messages, extends timers and resumes. -/
  | thawResume
  /-- SNAPSHOT_LATCH (R357). At T_s the instance latches its snapshot. -/
  | snapshotLatch
  /-- DUMP_COPY (R361). At the named sample the object is latched or copied to the dump area. -/
  | dumpCopy
  /-- NOP (R399). The NOP command ends DONE at the tick after acceptance. -/
  | nop (priv : Bool)
  /-- ABORT_BUSY_COMMAND (R425). ABORT with function 0x0 ends the BUSY command in its safe state. -/
  | abortBusyCommand (priv : Bool)
  /-- ABORT_DOMAIN_RAMP (R298). ABORT of a domain ramp stops a bring-up or a DOM_VREQ move. -/
  | abortDomainRamp (priv : Bool)
  /-- ABORT_BRIDLE (R298). ABORT of a bridle sequence switches no further stage on. -/
  | abortBridle (priv : Bool)
  /-- ABORT_AUTOTUNE (R298). ABORT of an auto-tune leaves TUNE with RESULT ABORTED. -/
  | abortAutotune (priv : Bool)
  /-- ABORT_LOG_FLUSH (R298). ABORT of a log flush issues no new flash command. -/
  | abortLogFlush (priv : Bool)
  /-- ABORT_DUMP (R298). ABORT of a dump stops it and marks its output invalid. -/
  | abortDump (priv : Bool)
  /-- ABORT_TRACE (R298). ABORT of trace stops it at a message boundary. -/
  | abortTrace (priv : Bool)
  /-- ABORT_SNAPSHOT (R298). ABORT of a snapshot stops it and marks its output invalid. -/
  | abortSnapshot (priv : Bool)
  /-- DOMAIN_ON (R268). The DOMAIN_ON command brings up a domain or returns a retained domain to its target. -/
  | domainOn (priv : Bool)
  /-- DOMAIN_OFF (R273). The DOMAIN_OFF command starts one domain's off sequence at the next frame. -/
  | domainOff (priv : Bool)
  /-- DOMAIN_OFF_ALL (R273). DOMAIN_OFF with ALL on the manager schedules every domain's off sequence from T_off. -/
  | domainOffAll (priv : Bool)
  /-- SET_MODE (R173). The SET_MODE command makes the manager distribute a new mode as a die decision. -/
  | setMode (priv : Bool)
  /-- AUTOTUNE (R85). The AUTOTUNE command starts a relay tune of a domain. -/
  | autotune (priv : Bool)
  /-- TUNE_END (R87). A tune ends on its first ending condition and the domain's law resumes. -/
  | tuneEnd
  /-- FREEZE (R350). The FREEZE command makes the manager schedule a die-wide freeze at Tf. -/
  | freeze (priv : Bool)
  /-- THAW (R355). The THAW command makes the manager schedule the thaw at Tt. -/
  | thaw (priv : Bool)
  /-- DUMP (R360). The DUMP command schedules a copy of the selected object at T_d. -/
  | dump (priv : Bool)
  /-- SNAPSHOT (R357). The SNAPSHOT command schedules a snapshot latch. -/
  | snapshot (priv : Bool)
  /-- FLUSH_LOG (R331). The FLUSH_LOG command triggers a flush of the manager's buffer. -/
  | flushLog (priv : Bool)
  /-- CLEAR_FAULT (R282). The CLEAR_FAULT command closes matching occurrences whose cause has ended. -/
  | clearFault (coolHigh : Bool) (priv : Bool)
  /-- SET_CAP (R193). The SET_CAP command records a new cap for the next allocation. -/
  | setCap (priv : Bool)
  /-- CMD_RESERVED_CODE (R399). A reserved command code is accepted and ends REFUSED. -/
  | cmdReservedCode (code : BitVec 8) (priv : Bool)
  /-- FLT_ACK (R281). A write of FLT_ACK acknowledges matching occurrences and stops their escalation. -/
  | fltAck (w : Word) (priv : Bool)
  /-- DOM_VREQ (R73). A write of DOM_VREQ sets or refuses a requested domain set-point. -/
  | domVreq (d : Fin 32) (w : Word) (priv : Bool)
  /-- DOM_UCAL (R412). A write of DOM_UCAL selects a point and optionally sets its user offset. -/
  | domUcal (d : Fin 32) (w : Word) (priv : Bool)
  /-- DOM_LAW_B (R412). A write of DOM_LAW_B commits the domain's user PID law. -/
  | domLawB (d : Fin 32) (w : Word) (priv : Bool)
  /-- DOM_PG (R412). A write of DOM_PG changes the profile generator limits. -/
  | domPg (d : Fin 32) (w : Word) (priv : Bool)
  /-- TILE_CTL_RETIRE (R413). A TILE_CTL write with RETIRE queues RETIRE_TILE for the tile. -/
  | tileCtlRetire (t : Fin 192) (w : Word) (priv : Bool)
  /-- TILE_CTL_RPHASE (R413). A TILE_CTL write with a phase mask queues RETIRE_PHASE. -/
  | tileCtlRphase (t : Fin 192) (w : Word) (priv : Bool)
  /-- TILE_PAR (R414). A write of TILE_PAR changes a tile parameter and queues a CFG word to every tile. -/
  | tilePar (k : Fin 24) (w : Word) (priv : Bool)
  /-- TKT_QMAX (R112). A write of TKT_QMAX sets the queue expiry for later requests. -/
  | tktQmax (w : Word) (priv : Bool)
  /-- TKT_SG_LEAD (R415). A write of TKT_SG_LEAD sets the sync proposal lead. -/
  | tktSgLead (w : Word) (priv : Bool)
  /-- TKT_SG_MASK (R128). A write of a sync group mask changes it and withdraws its queued members. -/
  | tktSgMask (g : Fin 64) (i : Fin 8) (w : Word) (priv : Bool)
  /-- HK_CTL (R305). A write of HK_CTL.LP selects the ADC mode or is refused when the sequence would not fit. -/
  | hkCtl (w : Word) (priv : Bool)
  /-- TLM_CTL (R311). A write of TLM_CTL sets the telemetry window length. -/
  | tlmCtl (w : Word) (priv : Bool)
  /-- ENG_BUD_COMMIT (R404). A write with ENG_BUD2.COMMIT submits new budgets and FC_PERIOD. -/
  | engBudCommit (w : Word) (priv : Bool)
  /-- CTL_LOCK (R402). A write setting CTL.LOCK refuses later configuration writes until RST_N. -/
  | ctlLock (w : Word) (priv : Bool)
  /-- OBS_CNT_CLR (R342). A write of OBS_CNT_CLR clears the selected engines' counters. -/
  | obsCntClr (w : Word) (priv : Bool)
  /-- OBS_TRC_CTL (R348). A write of OBS_TRC_CTL selects and enables trace. -/
  | obsTrcCtl (w : Word) (priv : Bool)
  /-- OBS_TRC_MARK (R346). A write of OBS_TRC_MARK emits a MARK trace message. -/
  | obsTrcMark (w : Word) (priv : Bool)
  /-- OBS_TRC_WIN (R349). A read of word 3 of OBS_TRC_WIN advances the trace read pointer. -/
  | obsTrcWin
  /-- OBS_SCAN_DATA (R354). A read of OBS_SCAN_DATA returns a cut word and advances the word index. -/
  | obsScanData
  /-- LOG_CUR (R338). A write of LOG_CTL or LOG_CUR stages the record at the cursor. -/
  | logCur (ctl : Bool) (w : Word) (priv : Bool)
  /-- LOG_WIN (R338). A read of the last LOG_WIN word with RDY set advances the cursor and stages the next record. -/
  | logWin (priv : Bool)
  /-- TBL_PAGE (R422). A write of TBL_PAGE stages a table page into the buffer. -/
  | tblPage (w : Word)
  /-- TBL_COMMIT (R422). A write of TBL_COMMIT writes the staging buffer into the page with its checksum. -/
  | tblCommit (w : Word) (priv : Bool)
  /-- NRG_JOB_REL (R410). A write of NRG_JOB_REL frees a job table entry. -/
  | nrgJobRel (w : Word) (priv : Bool)
  /-- LOW_WORD_READ (R393). A read of a 64-bit value's low word latches its high word. -/
  | lowWordRead (addr : BitVec 20) (priv : Bool)
  /-- TLM_PEAK_READ (R313). A read of a telemetry peak-hold field returns it and resets it. -/
  | tlmPeakRead (addr : BitVec 20)
  /-- LOG_LOSTCNT (R337). A read of LOG_LOSTCNT returns and clears the drop count. -/
  | logLostcnt
  /-- TTH_ERR (R417). A read of TTH_ERR returns and clears both ports' CRC failure counts. -/
  | tthErr
  /-- TTH_UNDEL (R417). A read of TTH_UNDEL returns and clears the undelivered flit count. -/
  | tthUndel
  /-- TTH_LATE (R417). A read of TTH_LATE returns and clears the late die-decision count. -/
  | tthLate
  /-- TKT_PERR (R415). A read of TKT_PERR returns and clears a channel's error count. -/
  | tktPerr (c : Fin 32)
  /-- HK_PMB_LATE (R407). A read of HK_PMB_LATE returns and clears the late poll count. -/
  | hkPmbLate
  /-- REGISTER_WRITE (R391). A write to a register without behaviour of its own is applied under its access code or answered with its status. -/
  | registerWrite (addr : BitVec 20) (w : Word) (priv : Bool)
  /-- SPINE_ENUMERATION (R20). At start the field core enumerates its spine chains, finds chain lengths, measures hop latency, loads the SYNC high bits and sends each tile its 22 parameters. -/
  | spineEnumeration (x : Enumerated)
  /-- FLIT_CRC_FAIL (R215). A tether flit whose CRC fails is replaced with IDLE, counted in the port's error count and not repeated. -/
  | flitCrcFail (r : Ring)
  /-- FLIT_RETURN (R218). A class 1 or class 2 flit returns intact to its source, which removes it and frees its resend slot. -/
  | flitReturn (f : Flit) (r : Ring)
  /-- CL_MARGIN (R370). A cluster's Gray-coded CL_MARGIN input changes and its binary code enters the per-frame and per-round minimum tracking. -/
  | clMargin (c : Fin 32) (gray : BitVec 4)
  /-- HOST_PRIV (R345). A host-port read that lacks its required privilege answers PRIV, returns 0 and raises HOST_PRIV. -/
  | hostPriv (addr : BitVec 20) (priv : Bool)
  /-- TCK (R387). A TCK edge advances the TAP controller, shifting, capturing or updating the instruction register, TLN_FRZ_SCAN or the IEEE 1500 wrapper. -/
  | tck (tms tdi : Bool)
  /-- TRST_N (R387). TRST_N asserts and resets the TAP asynchronously to Test-Logic-Reset with IDCODE selected. -/
  | trstN
  /-- FLASH_BUSY_TIMEOUT (R330). A page program or erase still busy at twice the BFPT maximum time is treated as failed and retried once. -/
  | flashBusyTimeout
  deriving DecidableEq, Repr

end Sys2Proof
end

