-- ==== Sys2Proof/Decode.lean ====
section
/-!
DEFINITION. The command that a word spells by the bits of spec/opcode_table.json. The table gives bits to no row (its
rows are happenings of a block, not encoded instructions), so no word spells a command.
-/

namespace Sys2Proof

/-- The command spelt by a word of `nbits` bits: none, since no row of the table has bits. -/
def decodeTableWord (_nbits _w : Nat) : Option Instr := none

end Sys2Proof
end

