-- ==== Sys2Proof/Config.lean ====
section
/-!
DEFINITION. The free values of the model: what the spec leaves open and the hardware nevertheless produces. Each is a
constant with no body, so nothing can be proved about its value; a claim about it holds for every value it could have.
Counters in the state (`State.fresh`) or the operands of the open result select one value of each.
-/

namespace Sys2Proof.Config

/-- Whether a result that lies between two codes, and for which the spec names no rounding or no rule for a tie, takes
the upper code (the duty of R33 and R37; log entry 4). -/
opaque roundUp : Rat → Bool

/-- The ceiling that the trim of a current hold puts on a phase's duty, in steps: R47 states what the trim achieves, not
the duty it takes (log entry 10). -/
opaque holdDuty : Nat → BitVec 9

/-- Undefined read data: WO registers and reserved bits (R6, R7; log entry 5). -/
opaque freeWord : Nat → BitVec 32

/-- A word of a scan segment whose contents or order the spec does not give (R354; log entry 6). -/
opaque scanWord : Nat → Nat → BitVec 32

/-- How many of the supervisor cycles of a frame count as BUSY, and how the others split into IDLE and each stall reason:
the spec gives the reasons but no program (R340, R341; log entry 7). -/
opaque supervisorShare : Nat → Nat → Nat

/-- The program counter and wait reason of the supervisors, and supervisor trace fields (R346, R357; log entry 7). -/
opaque supervisorState : Nat → Nat

/-- The quotient of a division by zero in a formula of the spec whose divisor can be zero (log entry 8). -/
opaque divByZero : Int → Int

/-- α of a domain and INDEX, pJ per count: a coefficient in the attribution program's pages, whose place there the spec
does not give (R200; log entry 23). -/
opaque attrAlpha : Nat → Nat → Nat

/-- σ of a domain at a VSET and mitten temperature, mW: a table of the attribution program whose place in its pages the spec
does not give (R200; log entry 23). -/
opaque attrSigma : Nat → Nat → Int → Nat

/-- H_k of a seam that the instance does not measure itself, 1/16 tick: no flit carries it (R219, R227; log entry 24). -/
opaque hopDelay : Nat → Nat

/-- T3 − T2 of an XT_RSP, 1/16 tick: the time the port takes to answer (R237; log entry 24). -/
opaque xtTurn : Nat → Nat

/-- Whether a page that the supervisor has restored from its own copy passes its read-back: the cells decide (R166; log entry 73). -/
opaque readBack : Nat → Bool

/-- Measured less modelled energy of the domains of one class on a worker's field in a round, mW-samples (the arguments: round,
field, class): no flit carries it to the manager (R204; log entry 74). -/
opaque fieldResid : Nat → Nat → Nat → Int

/-- How far the PLL moves its frequency at one estimate, ppm: the spec bounds the rate and gives no amount (R31, R228; log entry 75). -/
opaque pllStep : Nat → Nat

/-- What a worker's field contributes to the throttle level in a round (the arguments: round, field): log2 of its largest TKT_SP
and its C-ladder notch count. No flit carries them (R238; log entry 38). -/
opaque fieldThr : Nat → Nat → Nat × Nat

/-- The wrapper serial output and self-test results of the IEEE 1500 wrapper (R388, R389; log entry 9). -/
opaque wrapperBit : Nat → Bool

/-- How many trace messages of a worker may wait for a TRACE flit before further ones are dropped: the spec drops what
cannot be sent and gives no depth (R213, R348; log entry 25). -/
opaque traceDepth : Nat → Nat

/-- The initial words of TKT_SG_MASK: the image supplies them, and no section of the image has a place for them (R128, R252;
log entry 28). -/
opaque sgMask : Nat → BitVec 32

/-- A worker's copy of a word of TKT_SG_MASK at a tick: R105 has a field check the mask, and no flit carries it there (log
entry 28). -/
opaque sgMaskCopy : Nat → Nat → BitVec 32

end Sys2Proof.Config
end

