-- ==== Sys2Proof/Machine/State.lean ====
section
/-!
DEFINITION. The state of one Tilornotte instance: its tile agents, sense points and field core, the manager's die-wide
part (in use where ROLE is high, R207), and the queue of commands that wait. Every field is plain data. A table is a
list of index and record pairs in one canonical form (`Tbl`): indexes strictly rising, and no record equal to the one an
unlisted index reads as; a byte memory is a list of `Host.Cell` in the same form.
-/

namespace Sys2Proof.Machine

/-- A sparse table: index and entry, indexes strictly rising, no entry equal to the unlisted one (kept by
`Tbl.set`, Machine/Ops.lean). -/
abbrev Tbl (α : Type) := List (Nat × α)

/-- The eight states of a tile agent, in the order of their codes (R42). -/
inductive TileState where
  | off
  | precharge
  | softstart
  | regulate
  | shed
  | crowbar
  | latched
  | retired
  deriving DecidableEq, Repr

/-- The five states of a domain loop, in the order of `DOM_STS.LOOP` (R68, R411). -/
inductive LoopState where
  | idle
  | ramp
  | closed
  | tune
  | ground
  deriving DecidableEq, Repr

/-- The operating modes, in the order of their codes (R172). -/
inductive Mode where
  | peak
  | balanced
  | efficient
  | grounded
  deriving DecidableEq, Repr

/-- The states of a ticket, in the order of their codes (R110). -/
inductive TkState where
  | requested
  | queued
  | granted
  | armed
  | launched
  | running
  | done
  | expired
  | withdrawn
  deriving DecidableEq, Repr

/-- The outcomes of a bring-up or turn-off, in the order of their codes (R269). -/
inductive BringSt where
  | none
  | waiting
  | running
  | ready
  | short
  | capWindow
  | dark
  | bridleFail
  | window
  | aborted
  | refusedState
  | refusedTherm
  | refusedCool
  | refusedPwr
  | off
  | protect
  deriving DecidableEq, Repr

/-- Where a domain's sequence stands (R261, R266, R267, R272). -/
inductive BringStep where
  | idle
  | waiting
  | precharge
  | capTest
  | ramp
  | bridleWait
  | bridle
  | backOut
  | gap
  | up
  | stagesOff
  | rampDown
  | stopping
  deriving DecidableEq, Repr

/-- A command or CFG word as a tile holds it until the next sample boundary (R59, R60). -/
inductive TileWord where
  | nop
  | start
  | ssTarget (code : Nat)
  | ssGo (len : Nat)
  | stop
  | shed (mask : Nat)
  | unshed (mask : Nat)
  | retirePhase (mask : Nat)
  | retireTile
  | crowbar
  | clear
  | setOfs (ofs : Nat)
  | setShare (w : Nat)
  | capTest (ticks : Nat)
  | cfg (index code : Nat)
  deriving DecidableEq, Repr

/-- A word the field core queues for a tile of a chain; `all` names every tile of the chain (R58). `grp` is the mitten,
plus one, whose SET_SHARE words travel together (R57, R95), 0 for a word that travels alone. -/
structure SpineWord where
  chain : Nat
  pos : Nat
  all : Bool
  word : TileWord
  grp : Nat
  deriving DecidableEq, Repr

/-- The reference of the PLL (R30, R31). -/
inductive PllRef where
  | refclk
  | ring1
  | ring2
  | holdover
  deriving DecidableEq, Repr

/-- HP_RSP_ST (R391). -/
inductive HostSt where
  | okay
  | refused
  | priv
  | decerr
  deriving DecidableEq, Repr

/-- The states of the TAP controller (R387, IEEE 1149.1). -/
inductive TapState where
  | testLogicReset
  | runTestIdle
  | selectDr
  | captureDr
  | shiftDr
  | exit1Dr
  | pauseDr
  | exit2Dr
  | updateDr
  | selectIr
  | captureIr
  | shiftIr
  | exit1Ir
  | pauseIr
  | exit2Ir
  | updateIr
  deriving DecidableEq, Repr

/-- What a die decision decides (R15, R173, R186, R231, R259, R273). -/
inductive DecKind where
  | mode (m : Mode)
  | alloc (cls : Nat) (mw : Nat)
  | ringUp (ring : Nat)
  | offAll
  | run (tOn tReady : Nat)
  deriving DecidableEq, Repr

/-- Why a step stops with a fault: the spec ends no run, so the type has no constructor and no step can fault. -/
inductive Fault where
  deriving DecidableEq, Repr

/-- Why a step is refused. -/
inductive Refusal where
  /-- Raised by an arm of `exec` whose command has no meaning in the model yet. Safe. -/
  | notModelled (mnemonic : String)
  deriving DecidableEq, Repr

/-- The local-loop and protection parameters of one tile, as parameter codes (R39, R46, R47, R60). -/
structure TilePar where
  /-- D_MIN, DPWM steps. R39 -/
  dMin : Nat := 8
  /-- D_MAX, DPWM steps. R39 -/
  dMax : Nat := 448
  /-- DT dead time, DPWM steps. R39 -/
  dt : Nat := 5
  /-- kp code, 1/16 step per mV. R39 -/
  kp : Nat := 8
  /-- ki code, 1/256 step per mV per period. R39 -/
  ki : Nat := 4
  /-- int_lim, steps. R39 -/
  intLim : Nat := 64
  /-- corr_lim, steps. R39 -/
  corrLim : Nat := 64
  /-- ks code, 1/16 step per A per sample. R39, R97 -/
  ks : Nat := 32
  /-- s_lim, steps. R39 -/
  sLim : Nat := 32
  /-- kb code, 1/16 step per A per sample. R39 -/
  kb : Nat := 16
  /-- b_lim, steps. R39 -/
  bLim : Nat := 16
  /-- DROOP_BOOST, steps. R39 -/
  droopBoost : Nat := 64
  /-- DROOP_HOLD, switching periods. R39 -/
  droopHold : Nat := 2
  /-- DROOP_MARGIN, mV (CFG value). R39 -/
  droopMargin : Nat := 20
  /-- ILIM_PK code, 50 mA. R47 -/
  ilimPk : Nat := 72
  /-- ILIM_NEG code, 50 mA, two's complement. R47 -/
  ilimNeg : Int := -30
  /-- ILIM_TRANS code, 10 mA. R47 -/
  ilimTrans : Nat := 300
  /-- ILIM_CONT code, 10 mA. R47 -/
  ilimCont : Nat := 200
  /-- TLIM, samples. R47 -/
  tlim : Nat := 156
  /-- OV_REL, mV. R47 -/
  ovRel : Nat := 150
  /-- open-phase threshold code, 10 mA. R47 -/
  openTh : Nat := 10
  /-- SHED_RISE code, 10 mA. R46 -/
  shedRise : Nat := 200
  deriving DecidableEq, Repr

/-- One phase k of a tile (R33, R34, R37, R45, R47, R53, R54). -/
structure Phase where
  /-- both switches off in every state. R42, R53 -/
  retired : Bool := false
  /-- phase shed. R45 (reset: DESIGN CHOICE, log 2) -/
  shed : Bool := false
  /-- tick from which a returning phase switches, 0 none. R45, R46 (reset: DESIGN CHOICE, log 2) -/
  retAt : Nat := 0
  /-- ILIM_PK tripped in the current period (high side off for its rest). R47 (reset: DESIGN CHOICE, log 2) -/
  trip : Bool := false
  /-- ILIM_NEG tripped in the current period (low side off for its rest). R47 (reset: DESIGN CHOICE, log 2) -/
  negTrip : Bool := false
  /-- duty code D of the coming period. R33 (reset: DESIGN CHOICE, log 2) -/
  duty : Nat := 0
  /-- balance trim b[k], steps. R37 (reset: DESIGN CHOICE, log 2) -/
  bal : Rat := 0
  /-- phase current averaged over the last period, mA. R32 (reset: DESIGN CHOICE, log 2) -/
  iNow : Int := 0
  /-- sum of iNow over the periods of the running sample, mA. R47, R61 (reset: DESIGN CHOICE, log 2) -/
  iSum : Int := 0
  /-- average over the last sample, mA. R413 -/
  iAvg : Int := 0
  /-- consecutive periods below the open-phase threshold. R53 (reset: DESIGN CHOICE, log 2) -/
  openCnt : Nat := 0
  /-- consecutive samples averaging above ILIM_CONT. R47 (reset: DESIGN CHOICE, log 2) -/
  overCnt : Nat := 0
  /-- consecutive samples below 90% of ILIM_CONT while held. R47 (reset: DESIGN CHOICE, log 2) -/
  underCnt : Nat := 0
  /-- held to ILIM_CONT. R47 (reset: DESIGN CHOICE, log 2) -/
  holdCont : Bool := false
  /-- trimmed to ILIM_TRANS. R47 (reset: DESIGN CHOICE, log 2) -/
  holdTrans : Bool := false
  /-- duty ceiling set by the current holds. R47 (reset: DESIGN CHOICE, log 2) -/
  dutyCap : Nat := 511
  /-- measured L, 0.1 nH, 0xFF not measured. R54, R63, R413 -/
  lCode : Nat := 255
  /-- CS channel that senses this phase, as the offset from the identity, modulo 4. R54 (reset: DESIGN CHOICE, log 2) -/
  csChan : Nat := 0
  /-- step of the running period at which a droop started an on-pulse of its own. R41 (reset: DESIGN CHOICE, log 2) -/
  kick : Option Nat := none
  deriving DecidableEq, Repr

/-- One pending event of a tile agent (R62 to R64). -/
structure TileEv where
  /-- event code. R63 (reset: DESIGN CHOICE, log 2) -/
  code : Nat := 0
  /-- detection tick. R62 (reset: DESIGN CHOICE, log 2) -/
  tick : Nat := 0
  /-- DATA. R63 (reset: DESIGN CHOICE, log 2) -/
  data : Nat := 0
  deriving DecidableEq, Repr

/-- One tile agent (R32 to R66). -/
structure Tile where
  /-- RST_N has been asserted: OFF at the end of the switching period. R243 (reset: DESIGN CHOICE, log 2) -/
  rst : Bool := false
  /-- state code. R42, R243 -/
  state : TileState := .off
  /-- phase 0. R32 (reset: DESIGN CHOICE, log 2) -/
  p0 : Phase := {}
  /-- phase 1. R32 (reset: DESIGN CHOICE, log 2) -/
  p1 : Phase := {}
  /-- phase 2. R32 (reset: DESIGN CHOICE, log 2) -/
  p2 : Phase := {}
  /-- phase 3. R32 (reset: DESIGN CHOICE, log 2) -/
  p3 : Phase := {}
  /-- parameters in force. R39, R47, R60 -/
  par : TilePar := {}
  /-- placement offset set by SET_OFS; none: the default of R34. R34 -/
  ofs : Option Nat := none
  /-- share weight. R37, R59, R413 -/
  w : Nat := 0
  /-- VREF in force, set-point code. R37, R58 (reset: DESIGN CHOICE, log 2) -/
  vref : Nat := 0
  /-- FF in force, steps. R37, R58 (reset: DESIGN CHOICE, log 2) -/
  ff : Int := 0
  /-- mitten current, domain-current code. R37, R58 (reset: DESIGN CHOICE, log 2) -/
  imit : Nat := 0
  /-- DROOP_MARGIN of this sample's MSUM. R58, R60 (reset: DESIGN CHOICE, log 2) -/
  msumMargin : Option Nat := none
  /-- MREF received in this sample. R58, R65 (reset: DESIGN CHOICE, log 2) -/
  mrefNext : Option (Nat × Int) := none
  /-- MSUM received in this sample. R58, R65 (reset: DESIGN CHOICE, log 2) -/
  msumNext : Option (Nat × Nat) := none
  /-- CMD and CFG words waiting for the next sample boundary, oldest first. R43, R59, R60 (reset: DESIGN CHOICE, log 2) -/
  cmdQ : List TileWord := []
  /-- integrator i, steps. R37 (reset: DESIGN CHOICE, log 2) -/
  integ : Rat := 0
  /-- share trim s, steps. R37 (reset: DESIGN CHOICE, log 2) -/
  share : Rat := 0
  /-- output over the last period, set-point code. R32 (reset: DESIGN CHOICE, log 2) -/
  vsns : Nat := 0
  /-- input voltage over the last period, mV. R32, R413 -/
  vin : Int := 0
  /-- sum of vsns over the running sample. R61 (reset: DESIGN CHOICE, log 2) -/
  vsnsSum : Nat := 0
  /-- periods of the running sample. R61 (reset: DESIGN CHOICE, log 2) -/
  nPer : Nat := 0
  /-- tile current averaged over the last sample, mA. R37, R61 (reset: DESIGN CHOICE, log 2) -/
  itile : Int := 0
  /-- tile current of the sample before. R46 (reset: DESIGN CHOICE, log 2) -/
  itilePrev : Int := 0
  /-- VSNS averaged over the last sample. R61 (reset: DESIGN CHOICE, log 2) -/
  vsnsAvg : Nat := 0
  /-- VREF of the last 16 samples, newest first. R47, R50 (reset: DESIGN CHOICE, log 2) -/
  vrefHist : List Nat := []
  /-- consecutive over-voltage periods. R47 (reset: DESIGN CHOICE, log 2) -/
  ovCnt : Nat := 0
  /-- consecutive VIN over-voltage periods. R47 (reset: DESIGN CHOICE, log 2) -/
  vinOvCnt : Nat := 0
  /-- short-in-operation condition of the last 16 periods, newest first. R47 (reset: DESIGN CHOICE, log 2) -/
  shortHist : List Bool := []
  /-- consecutive VSNS-open periods. R47 (reset: DESIGN CHOICE, log 2) -/
  lowCnt : Nat := 0
  /-- voltage loop frozen on VSNS open. R47 (reset: DESIGN CHOICE, log 2) -/
  loopFrozen : Bool := false
  /-- consecutive plausible periods while frozen. R47 (reset: DESIGN CHOICE, log 2) -/
  plausCnt : Nat := 0
  /-- a droop input of the mitten is asserted. R41 (reset: DESIGN CHOICE, log 2) -/
  droopIn : Bool := false
  /-- DROOP_BOOST in force. R41 (reset: DESIGN CHOICE, log 2) -/
  boost : Bool := false
  /-- switching periods of boost left after deassertion. R41 (reset: DESIGN CHOICE, log 2) -/
  holdLeft : Nat := 0
  /-- droop asserted in the running sample. R61 (reset: DESIGN CHOICE, log 2) -/
  droopSeen : Bool := false
  /-- ILIM_PK trip in the running sample. R61 (reset: DESIGN CHOICE, log 2) -/
  ilimSeen : Bool := false
  /-- over-voltage threshold frozen at CROWBAR entry, set-point code. R50 (reset: DESIGN CHOICE, log 2) -/
  crowThr : Nat := 0
  /-- consecutive periods with VSNS below the release level. R50 (reset: DESIGN CHOICE, log 2) -/
  crowOkCnt : Nat := 0
  /-- consecutive periods without reversed VIN, saturating at 64. R50 (reset: DESIGN CHOICE, log 2) -/
  vinOkCnt : Nat := 64
  /-- start checks done since RST_N. R54 -/
  checked : Bool := false
  /-- PRECHARGE_DONE sent in this PRECHARGE. R43 (reset: DESIGN CHOICE, log 2) -/
  precharged : Bool := false
  /-- tick of entry into the state. R43 (reset: DESIGN CHOICE, log 2) -/
  enteredAt : Nat := 0
  /-- SS_TARGET code. R51, R59 (reset: DESIGN CHOICE, log 2) -/
  target : Nat := 0
  /-- ramp length L. R51, R59 (reset: DESIGN CHOICE, log 2) -/
  rampL : Nat := 0
  /-- sample boundary at which SS_GO took effect. R51 (reset: DESIGN CHOICE, log 2) -/
  t0 : Nat := 0
  /-- PHASE_MAP DATA. R54, R63, R413 -/
  mapData : Nat := 0
  /-- CAP_TEST duration in force, 0 none. R55, R59 (reset: DESIGN CHOICE, log 2) -/
  capLeft : Nat := 0
  /-- VSNS at the start of CAP_TEST. R55 (reset: DESIGN CHOICE, log 2) -/
  capStart : Nat := 0
  /-- tick at which CAP_TEST took effect. R55 (reset: DESIGN CHOICE, log 2) -/
  capT0 : Nat := 0
  /-- pending events, oldest first. R64 (reset: DESIGN CHOICE, log 2) -/
  events : List TileEv := []
  /-- an event was dropped since the last TREP. R61, R64 (reset: DESIGN CHOICE, log 2) -/
  evtLost : Bool := false
  /-- consecutive samples without a valid SYNC. R65 (reset: DESIGN CHOICE, log 2) -/
  syncMiss : Nat := 0
  /-- a valid SYNC arrived in this sample. R58, R65 (reset: DESIGN CHOICE, log 2) -/
  syncOk : Bool := false
  /-- TETHER_TIME carried by the last SYNC, extended. R58 (reset: DESIGN CHOICE, log 2) -/
  syncTime : Nat := 0
  /-- high-order TETHER_TIME, bits 63 to 32, as the field core loaded it at enumeration. R58 (reset: DESIGN CHOICE, log 2) -/
  timeHigh : Nat := 0
  /-- downstream words discarded since the last SPINE_ERR. R63, R65 (reset: DESIGN CHOICE, log 2) -/
  spineErr : Nat := 0
  /-- TREP word covering the last sample. R61 (reset: DESIGN CHOICE, log 2) -/
  trep : BitVec 64 := 0
  /-- this tile pulls the mitten's crowbar net MCRB_N. R49, R381 (reset: DESIGN CHOICE, log 2) -/
  crbDrv : Bool := false
  /-- this tile pulls the mitten's short net MFLT_N. R51, R381 (reset: DESIGN CHOICE, log 2) -/
  fltDrv : Bool := false
  /-- tick at which an aborted tile enters LATCHED, 0 none. R51 (reset: DESIGN CHOICE, log 2) -/
  latchAt : Nat := 0
  /-- integrator before the loop of the coming period ran. R37 (reset: DESIGN CHOICE, log 2) -/
  loopBase : Rat := 0
  /-- tick at which the loop ran last, plus 1. R37 (reset: DESIGN CHOICE, log 2) -/
  loopAt : Nat := 0
  deriving DecidableEq, Repr

/-- The field core's view of one tile (R20, R61, R65, R95, R413). -/
structure TView where
  /-- answered enumeration. R20, R413 -/
  present : Bool := false
  /-- state code of the last TREP. R413 -/
  state : Nat := 0
  /-- ITILE of the last TREP, tile-current code. R413 -/
  itile : Int := 0
  /-- VSNS of the last TREP. R413 -/
  vsns : Nat := 0
  /-- ACTIVE of the last TREP. R413 -/
  active : Nat := 0
  /-- RETIRED of the last TREP. R413 -/
  retired : Nat := 0
  /-- ILIM of the last TREP. R413 -/
  ilim : Bool := false
  /-- HOLD of the last TREP. R413 -/
  hold : Bool := false
  /-- DROOP of the last TREP. R61 (reset: DESIGN CHOICE, log 2) -/
  droop : Bool := false
  /-- between the VSNS_OPEN entry and exit events. R75, R413 -/
  vsnsOpen : Bool := false
  /-- consecutive missed TREPs. R65 (reset: DESIGN CHOICE, log 2) -/
  missed : Nat := 0
  /-- counted as lost. R21, R95 (reset: DESIGN CHOICE, log 2) -/
  lost : Bool := false
  /-- lost by retirement, until RST_N. R44, R95 (reset: DESIGN CHOICE, log 2) -/
  gone : Bool := false
  /-- recorded retired phases, as a mask. R21, R95 (reset: DESIGN CHOICE, log 2) -/
  phLost : Nat := 0
  /-- tick at which a lost tile's current leaves the mitten current, `notYet` while its weights have not travelled. R95 (reset: DESIGN CHOICE, log 2) -/
  imitTo : Nat := 0
  /-- a valid TREP arrived in the running sample. R65 (reset: DESIGN CHOICE, log 2) -/
  got : Bool := false
  /-- phases shed by the last SHED (TILE_STS shed bits). R89, R413 -/
  shedSent : Nat := 0
  /-- PRECHARGE_DONE recorded in this bring-up. R261 (reset: DESIGN CHOICE, log 2) -/
  reported : Bool := false
  /-- ΔV of the CAP_DONE recorded in this bring-up. R55 (reset: DESIGN CHOICE, log 2) -/
  capDv : Option Nat := none
  /-- ITILE − ishare of the last 32 samples, 1/128 mA, newest first. R97 (reset: DESIGN CHOICE, log 2) -/
  oscSigns : List Int := []
  /-- SEQ of the last TREP. R61 (reset: DESIGN CHOICE, log 2) -/
  sseq : Nat := 0
  /-- answered CLEAR_REFUSED to the last CLEAR. R282, R290 (reset: DESIGN CHOICE, log 2) -/
  clearRef : Bool := false
  deriving DecidableEq, Repr

/-- One mitten (R21, R28, R40, R49, R52, R94 to R97, R381 to R384). -/
structure Mitten where
  /-- MTHR droop threshold, set-point code. R40, R381 (reset: DESIGN CHOICE, log 2) -/
  thr : Nat := 0
  /-- weights last sent. R94 (reset: DESIGN CHOICE, log 2) -/
  weights : List Nat := []
  /-- weights that the tiles hold until `wAt`. R95 (reset: DESIGN CHOICE, log 2) -/
  wOld : List Nat := []
  /-- weights of the last SET_SHARE words that travelled. R95 (reset: DESIGN CHOICE, log 2) -/
  wNew : List Nat := []
  /-- tick at which they apply. R57, R95 (reset: DESIGN CHOICE, log 2) -/
  wAt : Nat := 0
  /-- loss or return recorded in this frame, weights to recompute. R95 (reset: DESIGN CHOICE, log 2) -/
  dirty : Bool := false
  /-- tick until which no further weight change is made. R96 (reset: DESIGN CHOICE, log 2) -/
  holdTo : Nat := 0
  /-- ticks of the recorded losses whose band check is still to come, oldest first. R96 (reset: DESIGN CHOICE, log 2) -/
  lossTicks : List Nat := []
  /-- halvings of ks. R97 (reset: DESIGN CHOICE, log 2) -/
  ksHalved : Nat := 0
  /-- ks code that SHARE_OSC has brought in force until RST_N, 0 none. R97 (reset: DESIGN CHOICE, log 2) -/
  ksNow : Nat := 0
  /-- SHARE_OSC failures in this power cycle. R97 (reset: DESIGN CHOICE, log 2) -/
  oscFails : Nat := 0
  /-- fewer than 3 working tiles. R21, R23 (reset: DESIGN CHOICE, log 2) -/
  dark : Bool := false
  /-- consecutive samples with a failed sense link. R384 (reset: DESIGN CHOICE, log 2) -/
  linkBad : Nat := 0
  /-- mitten current of the latest TREPs, domain-current code. R58 (reset: DESIGN CHOICE, log 2) -/
  imit : Nat := 0
  /-- mitten temperature of the last round reading. R28 (reset: DESIGN CHOICE, log 2) -/
  tempNow : Option Int := none
  /-- mitten temperature of the round before. R196 (reset: DESIGN CHOICE, log 2) -/
  tempPrev : Option Int := none
  deriving DecidableEq, Repr

/-- One sense point (R75 to R80, R383). -/
structure Point where
  /-- trusted. R75, R411 -/
  trusted : Bool := false
  /-- mean of the last sample, mV. R75 (reset: DESIGN CHOICE, log 2) -/
  mean : Nat := 0
  /-- minimum of the last sample, mV. R75 (reset: DESIGN CHOICE, log 2) -/
  minv : Nat := 0
  /-- not voided in the last sample. R384 (reset: DESIGN CHOICE, log 2) -/
  valid : Bool := false
  /-- consecutive disagreeing samples. R76 (reset: DESIGN CHOICE, log 2) -/
  disCnt : Nat := 0
  /-- vloc of its mitten in each of the consecutive identical samples, 1/60 set-point code, newest first, at most STUCK_N. R76 (reset: DESIGN CHOICE, log 2) -/
  same : List (Option Nat) := []
  /-- mean of the sample before. R76 (reset: DESIGN CHOICE, log 2) -/
  prevMean : Nat := 0
  /-- FLAT of the sample before. R76, R383 (reset: DESIGN CHOICE, log 2) -/
  prevFlat : Bool := false
  /-- FLAT of the last sample. R383 (reset: DESIGN CHOICE, log 2) -/
  flat : Bool := false
  /-- consecutive samples passing every test. R78 (reset: DESIGN CHOICE, log 2) -/
  passCnt : Nat := 0
  /-- test that ended the trust, until SENSE_TRUST is raised. R77 (reset: DESIGN CHOICE, log 2) -/
  why : Option Nat := none
  /-- mean in the failing sample, mV. R424 (reset: DESIGN CHOICE, log 2) -/
  whyMean : Nat := 0
  /-- round of the last loss of trust. R78 (reset: DESIGN CHOICE, log 2) -/
  lossRound : Nat := 0
  /-- losses within that round. R78 (reset: DESIGN CHOICE, log 2) -/
  lossCnt : Nat := 0
  /-- third loss in a round: untrusted until RAMP or CLEAR_FAULT. R78 (reset: DESIGN CHOICE, log 2) -/
  locked : Bool := false
  deriving DecidableEq, Repr

/-- One digital temperature sensor (R194, R302). -/
structure Sensor where
  /-- last completed conversion, temperature code. R302 (reset: DESIGN CHOICE, log 2) -/
  conv : Int := 0
  /-- a conversion has completed. R302 (reset: DESIGN CHOICE, log 2) -/
  has : Bool := false
  /-- round reading. R302 (reset: DESIGN CHOICE, log 2) -/
  reading : Int := 0
  /-- valid. R194 (reset: DESIGN CHOICE, log 2) -/
  valid : Bool := true
  /-- consecutive rounds passing the tests while invalid. R194 (reset: DESIGN CHOICE, log 2) -/
  okRounds : Nat := 0
  /-- the other valid sensors' readings in each of the last 64 rounds of an unchanged code, newest first. R194 (reset: DESIGN CHOICE, log 2) -/
  others : List (List Int) := []
  /-- at or above T_CRIT by its comparator. R196 (reset: DESIGN CHOICE, log 2) -/
  hot : Bool := false
  deriving DecidableEq, Repr

/-- A running relay auto-tune (R85 to R87). -/
structure Tune where
  /-- local domain. R85 (reset: DESIGN CHOICE, log 2) -/
  dom : Nat := 0
  /-- cycles to measure. R85 (reset: DESIGN CHOICE, log 2) -/
  n : Nat := 16
  /-- relay at u0 + 5 mV. R85 (reset: DESIGN CHOICE, log 2) -/
  hi : Bool := true
  /-- tick of entry. R87 (reset: DESIGN CHOICE, log 2) -/
  start : Nat := 0
  /-- tick of the last relay switch. R87 (reset: DESIGN CHOICE, log 2) -/
  lastSwitch : Nat := 0
  /-- ticks of the rising switches, newest first. R85 (reset: DESIGN CHOICE, log 2) -/
  rises : List Nat := []
  /-- peak-to-peak swing of each completed cycle, set-point codes, newest first. R85 (reset: DESIGN CHOICE, log 2) -/
  swings : List Nat := []
  /-- lowest vmin of the running cycle. R85 (reset: DESIGN CHOICE, log 2) -/
  lo : Nat := 4095
  /-- highest vmin of the running cycle. R85 (reset: DESIGN CHOICE, log 2) -/
  hiV : Nat := 0
  /-- VTGT at entry. R87 (reset: DESIGN CHOICE, log 2) -/
  vtgt : Nat := 0
  /-- TUNE entered (from the first sample boundary). R85 (reset: DESIGN CHOICE, log 2) -/
  active : Bool := false
  /-- an ABORT names it: it ends at the next sample boundary. R87, R98 (reset: DESIGN CHOICE, log 2) -/
  aborted : Bool := false
  deriving DecidableEq, Repr

/-- The auto-tune that ended last, with the result registers it found: an ABORT of the same frame makes it ABORTED (R98). -/
structure TuneEnd where
  /-- local domain. R98 (reset: DESIGN CHOICE, log 2) -/
  dom : Nat := 0
  /-- tick of its end. R98 (reset: DESIGN CHOICE, log 2) -/
  tick : Nat := 0
  /-- DOM_TUNE_KU, TU, KP, KI and KD before it. R87 (reset: DESIGN CHOICE, log 2) -/
  regs : List Nat := []
  deriving DecidableEq, Repr

/-- The bring-up or off sequence of a domain (R261 to R274). -/
structure Bring where
  /-- DOM_BRING_STS. R269, R411 -/
  status : BringSt := .none
  /-- step in progress. R261, R272 (reset: DESIGN CHOICE, log 2) -/
  step : BringStep := .idle
  /-- tick at which the next sequence starts. R262, R268, R273 (reset: DESIGN CHOICE, log 2) -/
  startAt : Option Nat := none
  /-- tick at which the off sequence starts. R272, R273 (reset: DESIGN CHOICE, log 2) -/
  offAt : Option Nat := none
  /-- end of the ON_ORDER window. R263 (reset: DESIGN CHOICE, log 2) -/
  winEnd : Option Nat := none
  /-- header stages on, last switched first. R266, R374 (reset: DESIGN CHOICE, log 2) -/
  stages : List Nat := []
  /-- next stage to switch on. R266 (reset: DESIGN CHOICE, log 2) -/
  nextStage : Nat := 0
  /-- due tick of the next stage step. R266, R267 (reset: DESIGN CHOICE, log 2) -/
  due : Nat := 0
  /-- bridle retries used. R267 (reset: DESIGN CHOICE, log 2) -/
  tries : Nat := 0
  /-- frame from which RETRY_GAP counts. R267 (reset: DESIGN CHOICE, log 2) -/
  gapFrom : Nat := 0
  /-- end tick of the soft-start ramp. R261 (reset: DESIGN CHOICE, log 2) -/
  rampEnd : Nat := 0
  /-- scheduled tick of DOMAIN_OFF ALL. R273 (reset: DESIGN CHOICE, log 2) -/
  offAllAt : Option Nat := none
  /-- off ramp with the coolant limits; stages off together at 0 mV. R198, R274 (reset: DESIGN CHOICE, log 2) -/
  coolRamp : Bool := false
  /-- a failure status stays through the off sequence. R269 (reset: DESIGN CHOICE, log 2) -/
  keepStatus : Bool := false
  /-- an accepted DOMAIN_ON returns a retained M or L domain to its target. R268 (reset: DESIGN CHOICE, log 2) -/
  resume : Bool := false
  /-- this bring-up is a retry. R290 (reset: DESIGN CHOICE, log 2) -/
  retryRun : Bool := false
  deriving DecidableEq, Repr

/-- The retry policy state of a domain (R290). -/
structure Retry where
  /-- retries used. R290 (reset: DESIGN CHOICE, log 2) -/
  used : Nat := 0
  /-- frame start from which the gap counts. R290 (reset: DESIGN CHOICE, log 2) -/
  gapFrom : Option Nat := none
  /-- CLEAR sent, answers awaited. R290 (reset: DESIGN CHOICE, log 2) -/
  sent : Bool := false
  deriving DecidableEq, Repr

/-- The sums of a telemetry window that has ended (R311, R312). -/
structure TlmWin where
  /-- sum of frame powers. R312 (reset: DESIGN CHOICE, log 2) -/
  accP : Nat := 0
  /-- frames summed. R312 (reset: DESIGN CHOICE, log 2) -/
  nP : Nat := 0
  /-- sum of sample currents. R312 (reset: DESIGN CHOICE, log 2) -/
  accI : Nat := 0
  /-- samples summed. R312 (reset: DESIGN CHOICE, log 2) -/
  nI : Nat := 0
  /-- sum of vmin over samples in CLOSED. R312 (reset: DESIGN CHOICE, log 2) -/
  accV : Nat := 0
  /-- such samples. R312 (reset: DESIGN CHOICE, log 2) -/
  nV : Nat := 0
  /-- highest mitten temperature. R312 (reset: DESIGN CHOICE, log 2) -/
  winT : Option Int := none
  /-- smallest CL_MARGIN. R312 (reset: DESIGN CHOICE, log 2) -/
  winClm : Nat := 15
  deriving DecidableEq, Repr

/-- Telemetry of a domain (R312). -/
structure DomTlm where
  /-- P_AVG. R312 -/
  pAvg : Nat := 0
  /-- I_AVG. R312 -/
  iAvg : Nat := 0
  /-- VMIN_AVG. R312 -/
  vminAvg : Nat := 0
  /-- T_MAX. R312 -/
  tMax : Int := 0
  /-- VSET at publication. R312 -/
  vset : Nat := 0
  /-- FFF. R312 -/
  fff : Int := 0
  /-- CLM. R312 -/
  clm : Nat := 15
  /-- VMIN_SRC. R312 -/
  vminSrc : Nat := 4095
  /-- P_PK. R312 -/
  pPk : Nat := 0
  /-- I_PK. R312 -/
  iPk : Nat := 0
  /-- V_LO. R312 -/
  vLo : Nat := 4095
  /-- T_PK. R312 -/
  tPk : Int := -32768
  /-- sum of the window's frame powers. R312 (reset: DESIGN CHOICE, log 2) -/
  accP : Nat := 0
  /-- frames summed. R312 (reset: DESIGN CHOICE, log 2) -/
  nP : Nat := 0
  /-- sum of the window's sample currents. R312 (reset: DESIGN CHOICE, log 2) -/
  accI : Nat := 0
  /-- samples summed. R312 (reset: DESIGN CHOICE, log 2) -/
  nI : Nat := 0
  /-- sum of vmin over samples in CLOSED. R312 (reset: DESIGN CHOICE, log 2) -/
  accV : Nat := 0
  /-- such samples. R312 (reset: DESIGN CHOICE, log 2) -/
  nV : Nat := 0
  /-- highest mitten temperature of the window. R312 (reset: DESIGN CHOICE, log 2) -/
  winT : Option Int := none
  /-- smallest CL_MARGIN of the window. R312 (reset: DESIGN CHOICE, log 2) -/
  winClm : Nat := 15
  /-- sums of the last window that ended, published at its end or at the thaw. R311, R324 (reset: DESIGN CHOICE, log 2) -/
  shut : TlmWin := {}
  deriving DecidableEq, Repr

/-- One domain (R67 to R98, R172 to R206, R411). -/
structure Dom where
  /-- loop state. R68, R411 -/
  loop : LoopState := .idle
  /-- loop state at the start of the tick. R133 (reset: DESIGN CHOICE, log 2) -/
  loopTick : LoopState := .idle
  /-- TKT_SP at the start of the tick. R133 (reset: DESIGN CHOICE, log 2) -/
  spTick : Nat := 1
  /-- profile generator pos, 1/256 mV. R82 (reset: DESIGN CHOICE, log 2) -/
  pos : Int := 0
  /-- v, 1/256 mV per µs. R82 (reset: DESIGN CHOICE, log 2) -/
  vel : Int := 0
  /-- a, 1/256 mV per µs². R82 (reset: DESIGN CHOICE, log 2) -/
  acc : Int := 0
  /-- VSET in force, set-point code. R82, R411 -/
  vset : Nat := 0
  /-- VSET for sample n + 1. R69 (reset: DESIGN CHOICE, log 2) -/
  vsetNext : Nat := 0
  /-- lift in force, set-point code. R83, R122 (reset: DESIGN CHOICE, log 2) -/
  lift : Nat := 0
  /-- lift for sample n + 1. R69, R122 (reset: DESIGN CHOICE, log 2) -/
  liftNext : Nat := 0
  /-- ffb in force, steps. R83, R123 (reset: DESIGN CHOICE, log 2) -/
  ffb : Int := 0
  /-- ffb for sample n + 1. R123 (reset: DESIGN CHOICE, log 2) -/
  ffbNext : Int := 0
  /-- VSET + lift in force during sample n − 1. R69, R138 (reset: DESIGN CHOICE, log 2) -/
  rPrev : Nat := 0
  /-- forecaster term in force. R83, R138, R152 (reset: DESIGN CHOICE, log 2) -/
  fff : Int := 0
  /-- forecaster term last emitted, in force from the next sample. R152 (reset: DESIGN CHOICE, log 2) -/
  fffEm : Int := 0
  /-- VREF last emitted. R152 (reset: DESIGN CHOICE, log 2) -/
  emVref : Nat := 0
  /-- FF last emitted. R152 (reset: DESIGN CHOICE, log 2) -/
  emFf : Int := 0
  /-- last VREF sent. R411 -/
  vref : Nat := 0
  /-- last FF sent. R411 -/
  ff : Int := 0
  /-- u of the last sample in CLOSED of a law without PID-STEP and SS-STEP, set-point codes. R69, R85 (reset: DESIGN CHOICE, log 2) -/
  uLast : Int := 0
  /-- TUNE was left and no sample in CLOSED has run since. R87, R98 (reset: DESIGN CHOICE, log 2) -/
  tuneOut : Bool := false
  /-- u equals ±U_LIM in the last sample. R84, R149 (reset: DESIGN CHOICE, log 2) -/
  uSat : Bool := false
  /-- sign of u, 1 positive. R84, R149 (reset: DESIGN CHOICE, log 2) -/
  uPos : Bool := false
  /-- integrator of the safe law, FP32 pattern. R70, R165 (reset: DESIGN CHOICE, log 2) -/
  safeI : BitVec 32 := 0
  /-- previous error of the safe law, FP32 pattern. R70 (reset: DESIGN CHOICE, log 2) -/
  safeE : BitVec 32 := 0
  /-- previous output of the safe law, FP32 pattern. R70 (reset: DESIGN CHOICE, log 2) -/
  safeU : BitVec 32 := 0
  /-- last vmin, set-point code. R77, R411 -/
  vmin : Nat := 0
  /-- local source point, 0xFFF none. R77, R411 -/
  vminSrc : Nat := 4095
  /-- regulating on tile-local sensing. R80, R411 -/
  tileLocal : Bool := false
  /-- VTGT in force. R71, R411 -/
  vtgt : Nat := 0
  /-- the target clamp applied in the last frame. R71 (reset: DESIGN CHOICE, log 2) -/
  clampRun : Bool := false
  /-- a ballast clamp applied in the last sample. R83 (reset: DESIGN CHOICE, log 2) -/
  balRun : Bool := false
  /-- consecutive saturated samples. R84 (reset: DESIGN CHOICE, log 2) -/
  satCnt : Nat := 0
  /-- faults raised in the run of saturated samples: bit 0 DOM_SAT, bit 1 DOM_SAT_PERSIST. R84 (reset: DESIGN CHOICE, log 2) -/
  satEp : Nat := 0
  /-- DOM_STS.TGT_CLAMP. R71, R411 -/
  stsTgtClamp : Bool := false
  /-- DOM_STS.VREQ_REFUSED. R73, R411 -/
  stsVreqRef : Bool := false
  /-- DOM_STS.UCAL_CLAMP. R175, R411 -/
  stsUcal : Bool := false
  /-- DOM_VREQ.CODE. R73, R411 -/
  vreqCode : Nat := 0
  /-- DOM_VREQ.EN. R73, R411 -/
  vreqEn : Bool := false
  /-- DOM_UCAL.POINT. R411 -/
  ucPoint : Nat := 0
  /-- user offsets UC_d[k]. R175, R411 -/
  uc : List Int := []
  /-- offsets written, for the next frame. R175, R412 (reset: DESIGN CHOICE, log 2) -/
  ucNext : List Int := []
  /-- DOM_LAW_A.KP. R411 -/
  lawKp : Nat := 0
  /-- DOM_LAW_A.KI. R411 -/
  lawKi : Nat := 0
  /-- DOM_LAW_B.KD. R411 -/
  lawKd : Nat := 0
  /-- DOM_LAW_B.ULIM. R411 -/
  lawUlim : Nat := 0
  /-- user law committed, applies at the next frame. R412 (reset: DESIGN CHOICE, log 2) -/
  lawPend : Bool := false
  /-- PG_VMAX in force, mV/µs. R81, R411 -/
  pgVmax : Nat := 10
  /-- PG_AMAX in force. R81, R411 -/
  pgAmax : Nat := 20
  /-- PG_JMAX in force. R81, R411 -/
  pgJmax : Nat := 100
  /-- limits written, for the next frame. R81, R412 (reset: DESIGN CHOICE, log 2) -/
  pgNext : Option (Nat × Nat × Nat) := none
  /-- P_cap. R176, R411 -/
  pCap : Nat := 0
  /-- P_th. R176, R411 -/
  pTh : Nat := 0
  /-- P_d in force. R176, R411 -/
  pSel : Nat := 0
  /-- down notches not reversed. R187, R411 -/
  notches : Nat := 0
  /-- SP_ladder. R179, R415 -/
  spLadder : Nat := 1
  /-- SP_ladder for the next frame. R187, R188 (reset: DESIGN CHOICE, log 2) -/
  spLadNext : Nat := 1
  /-- SP_inst. R179, R415 -/
  spInst : Nat := 1
  /-- SP_th. R196, R415 -/
  spTh : Nat := 1
  /-- SP_th for the next frame. R196, R301 (reset: DESIGN CHOICE, log 2) -/
  spThNext : Nat := 1
  /-- a T_CRIT action of an external thermistor, for the next frame. R310 (reset: DESIGN CHOICE, log 2) -/
  critNext : Bool := false
  /-- ICAP in force. R179, R411 -/
  icap : Nat := 0
  /-- continuous ceiling. R22, R411 -/
  ceil : Nat := 0
  /-- transient ceiling. R22 (reset: DESIGN CHOICE, log 2) -/
  ceilT : Nat := 0
  /-- DOM_ICAP episode open. R179 (reset: DESIGN CHOICE, log 2) -/
  icapEp : Bool := false
  /-- consecutive frames below ICAP. R179 (reset: DESIGN CHOICE, log 2) -/
  icapLow : Nat := 0
  /-- frames below 90% of the limits, towards halving SP_inst. R179 (reset: DESIGN CHOICE, log 2) -/
  spLow : Nat := 0
  /-- domain current of the latest TREPs, domain-current code. R177 (reset: DESIGN CHOICE, log 2) -/
  iNow : Nat := 0
  /-- sample power, mW. R177 (reset: DESIGN CHOICE, log 2) -/
  pNow : Nat := 0
  /-- sum of the frame's sample currents. R88, R179 (reset: DESIGN CHOICE, log 2) -/
  accI : Nat := 0
  /-- sum of the frame's sample powers. R177 (reset: DESIGN CHOICE, log 2) -/
  accP : Nat := 0
  /-- samples in the running frame. R177 (reset: DESIGN CHOICE, log 2) -/
  nAcc : Nat := 0
  /-- current averaged over the last frame. R88, R179 (reset: DESIGN CHOICE, log 2) -/
  iFrame : Nat := 0
  /-- frame power, mW. R177 (reset: DESIGN CHOICE, log 2) -/
  pFrame : Nat := 0
  /-- domain energy of the running round, mW-samples. R177, R185 (reset: DESIGN CHOICE, log 2) -/
  roundE : Nat := 0
  /-- active phases per tile while shed or committed. R88 (reset: DESIGN CHOICE, log 2) -/
  shedLvl : Option Nat := none
  /-- tick at which the UNSHED words queued for the domain apply, 0 none queued. R91, R92 (reset: DESIGN CHOICE, log 2) -/
  unshedAt : Nat := 0
  /-- smallest allowed levels of the running dwell, newest first. R88 (reset: DESIGN CHOICE, log 2) -/
  dwell : List Nat := []
  /-- frames left before shedding is allowed. R92 (reset: DESIGN CHOICE, log 2) -/
  backoff : Nat := 0
  /-- smallest CL_MARGIN code of the running frame. R189 (reset: DESIGN CHOICE, log 2) -/
  clMin : Nat := 15
  /-- smallest CL_MARGIN code of the last frame. R189 (reset: DESIGN CHOICE, log 2) -/
  clMinPrev : Nat := 15
  /-- a cluster showed code 0 throughout the last frame. R189 (reset: DESIGN CHOICE, log 2) -/
  clZero : Bool := false
  /-- round of the last CL_MARGIN_LOW. R189 (reset: DESIGN CHOICE, log 2) -/
  clLowRound : Option Nat := none
  /-- mismatch baseline, domain-current code. R125 (reset: DESIGN CHOICE, log 2) -/
  baseline : Nat := 0
  /-- ticket whose arming latches the baseline, while its samples are not yet measured. R125 (reset: DESIGN CHOICE, log 2) -/
  baseAwait : Option Nat := none
  /-- domain current of the last 16 samples, newest first. R125, R139 (reset: DESIGN CHOICE, log 2) -/
  iHist : List Nat := []
  /-- consecutive failing mismatch slots. R126 (reset: DESIGN CHOICE, log 2) -/
  mmCnt : Nat := 0
  /-- lowest ticket and number of tickets whose ballast the fourth consecutive failure withdrew, until it is raised. R126 (reset: DESIGN CHOICE, log 2) -/
  mmRaise : Option (Nat × Nat) := none
  /-- held by a T_CRIT action. R196, R268 (reset: DESIGN CHOICE, log 2) -/
  thHold : Bool := false
  /-- held at the retention voltage. R71, R198 (reset: DESIGN CHOICE, log 2) -/
  retain : Bool := false
  /-- THERM_HIGH episode open. R196 (reset: DESIGN CHOICE, log 2) -/
  thHigh : Bool := false
  /-- bring-up blocked by THERM_LOW. R196 (reset: DESIGN CHOICE, log 2) -/
  thLow : Bool := false
  /-- no valid sensor in the domain. R28 (reset: DESIGN CHOICE, log 2) -/
  tempLost : Bool := false
  /-- derate rung in force. R288, R411 -/
  derate : Bool := false
  /-- domain-off rung held back by a stronger rung. R289 (reset: DESIGN CHOICE, log 2) -/
  offHeld : Bool := false
  /-- a page fall-back in force. R165, R411 -/
  fallback : Bool := false
  /-- the safe law runs in place of the program. R70, R165 (reset: DESIGN CHOICE, log 2) -/
  safeLaw : Bool := false
  /-- ballast suppressed by STOPFF. R117, R165, R411 -/
  balSup : Bool := false
  /-- modelled power last emitted, mW. R152, R200 (reset: DESIGN CHOICE, log 2) -/
  attrMw : Nat := 0
  /-- measured minus modelled energy of the running round, mW-samples. R204 (reset: DESIGN CHOICE, log 2) -/
  attrE : Int := 0
  /-- DOM_TUNE_STS.RESULT. R87, R411 -/
  tuneRes : Nat := 15
  /-- DOM_TUNE_STS.CYC. R411 -/
  tuneCyc : Nat := 0
  /-- DOM_TUNE_KU. R86, R411 -/
  tuneKu : Nat := 0
  /-- DOM_TUNE_TU. R86, R411 -/
  tuneTu : Nat := 0
  /-- DOM_TUNE_KP. R86, R411 -/
  tuneKp : Nat := 0
  /-- DOM_TUNE_KI. R86, R411 -/
  tuneKi : Nat := 0
  /-- DOM_TUNE_KD. R86, R411 -/
  tuneKd : Nat := 0
  /-- bring-up and off sequence. R261 -/
  bring : Bring := {}
  /-- retry policy. R290 (reset: DESIGN CHOICE, log 2) -/
  retry : Retry := {}
  /-- telemetry record. R312 -/
  tlm : DomTlm := {}
  deriving DecidableEq, Repr

/-- The withdrawal ramp of a ticket's lift (R127). -/
structure LiftRamp where
  /-- lift left, 1/256 mV. R127 (reset: DESIGN CHOICE, log 2) -/
  pos : Int := 0
  /-- v, 1/256 mV per µs. R127 (reset: DESIGN CHOICE, log 2) -/
  vel : Int := 0
  /-- a, 1/256 mV per µs². R127 (reset: DESIGN CHOICE, log 2) -/
  acc : Int := 0
  deriving DecidableEq, Repr

/-- One launch ticket (R103 to R132). -/
structure Ticket where
  /-- the identifier names a ticket. R111 (reset: DESIGN CHOICE, log 2) -/
  used : Bool := false
  /-- state code. R110, R415 -/
  state : TkState := .requested
  /-- local cluster. R103 (reset: DESIGN CHOICE, log 2) -/
  cluster : Nat := 0
  /-- JOB. R103 (reset: DESIGN CHOICE, log 2) -/
  job : Nat := 0
  /-- LAYER. R103 (reset: DESIGN CHOICE, log 2) -/
  layer : Nat := 0
  /-- OPERATOR. R103 (reset: DESIGN CHOICE, log 2) -/
  oper : Nat := 0
  /-- PROFILE. R103 (reset: DESIGN CHOICE, log 2) -/
  profile : Nat := 0
  /-- earliest slot E. R103 (reset: DESIGN CHOICE, log 2) -/
  earliest : Nat := 0
  /-- arrival tick. R102 (reset: DESIGN CHOICE, log 2) -/
  arrival : Nat := 0
  /-- queue expiry tick. R112 (reset: DESIGN CHOICE, log 2) -/
  expiry : Nat := 0
  /-- FLAGS.SYNC. R103 (reset: DESIGN CHOICE, log 2) -/
  sync : Bool := false
  /-- SYNC_GROUP. R103 (reset: DESIGN CHOICE, log 2) -/
  group : Nat := 0
  /-- FLAGS.NOBAL. R103 (reset: DESIGN CHOICE, log 2) -/
  nobal : Bool := false
  /-- granted slot S, 0 before grant. R104, R415 -/
  slot : Nat := 0
  /-- granted with ballast. R117, R415 -/
  ballast : Bool := false
  /-- ballast start. R121 (reset: DESIGN CHOICE, log 2) -/
  bA : Nat := 0
  /-- tick of the grant. R133 (reset: DESIGN CHOICE, log 2) -/
  grantAt : Nat := 0
  /-- mean domain current of the four samples before B_A, once measured. R125 (reset: DESIGN CHOICE, log 2) -/
  base : Option Nat := none
  /-- slot booked by a sync vote or a grant. R129 (reset: DESIGN CHOICE, log 2) -/
  booked : Option Nat := none
  /-- VTGT at booking (k_d numerator). R119 (reset: DESIGN CHOICE, log 2) -/
  kNum : Nat := 0
  /-- VIN_f at booking (k_d denominator, × 0.90). R119 (reset: DESIGN CHOICE, log 2) -/
  kDen : Nat := 0
  /-- lift end set by an early end. R121 (reset: DESIGN CHOICE, log 2) -/
  liftEnd : Option Nat := none
  /-- tick of the final state. R110, R111 (reset: DESIGN CHOICE, log 2) -/
  endTick : Nat := 0
  /-- ballast withdrawn. R126 (reset: DESIGN CHOICE, log 2) -/
  wd : Bool := false
  /-- lift ramp after withdrawal. R127 (reset: DESIGN CHOICE, log 2) -/
  wdRamp : LiftRamp := {}
  /-- ffb contribution left after withdrawal, steps. R127 (reset: DESIGN CHOICE, log 2) -/
  wdFfb : Rat := 0
  /-- CL_STRETCH ticks counted from S. R124 (reset: DESIGN CHOICE, log 2) -/
  stretch : Nat := 0
  /-- counts accepted per INDEX. R107, R343 (reset: DESIGN CHOICE, log 2) -/
  cnt : Tbl Nat := []
  /-- RUN_MAX of its profile at grant. R112 (reset: DESIGN CHOICE, log 2) -/
  runMax : Nat := 0
  /-- SET the request is bound to. R129 (reset: DESIGN CHOICE, log 2) -/
  setId : Option Nat := none
  /-- ticks added to the expiries by freezes and steps of TETHER_TIME. R229, R355 (reset: DESIGN CHOICE, log 2) -/
  extra : Int := 0
  /-- dynamic energy charged, pJ. R202, R344 (reset: DESIGN CHOICE, log 2) -/
  energy : Nat := 0
  /-- withdrawn by freeze extension. R344 (reset: DESIGN CHOICE, log 2) -/
  frzWd : Bool := false
  /-- why the last pass did not grant it. R358 (reset: DESIGN CHOICE, log 2) -/
  whyWait : Nat := 0
  /-- last slot tried. R358 (reset: DESIGN CHOICE, log 2) -/
  lastTry : Nat := 0
  deriving DecidableEq, Repr

/-- One ticket snapshot record (R344). -/
structure SnapRec where
  /-- TICKET. R344 (reset: DESIGN CHOICE, log 2) -/
  ticket : Nat := 0
  /-- JOB. R344 (reset: DESIGN CHOICE, log 2) -/
  job : Nat := 0
  /-- PROFILE and ballast bit. R344 (reset: DESIGN CHOICE, log 2) -/
  profile : Nat := 0
  /-- S. R344 (reset: DESIGN CHOICE, log 2) -/
  slot : Nat := 0
  /-- VS_LIFT. R344 (reset: DESIGN CHOICE, log 2) -/
  vsLift : Nat := 0
  /-- I_DOM. R344 (reset: DESIGN CHOICE, log 2) -/
  iDom : Nat := 0
  /-- FFB. R344 (reset: DESIGN CHOICE, log 2) -/
  ffb : Int := 0
  /-- CLM. R344 (reset: DESIGN CHOICE, log 2) -/
  clm : Nat := 0
  /-- MODE. R344 (reset: DESIGN CHOICE, log 2) -/
  mode : Nat := 0
  /-- T_END, 0 until latched. R344 (reset: DESIGN CHOICE, log 2) -/
  tEnd : Nat := 0
  /-- STATE. R344 (reset: DESIGN CHOICE, log 2) -/
  state : Nat := 0
  /-- FLAGS. R344 (reset: DESIGN CHOICE, log 2) -/
  flags : Nat := 0
  /-- STRETCH. R344 (reset: DESIGN CHOICE, log 2) -/
  stretch : Nat := 0
  /-- NRG, µJ. R344 (reset: DESIGN CHOICE, log 2) -/
  nrg : Nat := 0
  /-- CNT. R344 (reset: DESIGN CHOICE, log 2) -/
  cnt : Tbl Nat := []
  deriving DecidableEq, Repr

/-- One cluster channel and its observation records (R102 to R108, R189, R314, R343, R344, R373). -/
structure Cluster where
  /-- channel disabled. R220, R373, R415 -/
  disabled : Bool := false
  /-- CL_MARGIN code, binary. R189, R370 (reset: DESIGN CHOICE, log 2) -/
  margin : Nat := 15
  /-- smallest code of the running frame. R189 (reset: DESIGN CHOICE, log 2) -/
  frameMin : Nat := 15
  /-- largest code of the running frame. R189 (reset: DESIGN CHOICE, log 2) -/
  frameMax : Nat := 15
  /-- smallest code of the running round. R314 (reset: DESIGN CHOICE, log 2) -/
  roundMin : Nat := 15
  /-- CL_MIN, last round. R314, R408 -/
  clMin : Nat := 15
  /-- CL_STRETCH ticks of the running round. R314 (reset: DESIGN CHOICE, log 2) -/
  strRound : Nat := 0
  /-- CL_STR, last round. R314, R408 -/
  clStr : Nat := 0
  /-- slot of the most recent grant. R116 (reset: DESIGN CHOICE, log 2) -/
  sLast : Option Nat := none
  /-- TKT_PERR. R108, R415 -/
  perr : Nat := 0
  /-- frame of the last TKT_PORT_ERR. R108 (reset: DESIGN CHOICE, log 2) -/
  perrFrame : Option Nat := none
  /-- pending responses, oldest first. R104, R106 (reset: DESIGN CHOICE, log 2) -/
  rsp : List (BitVec 64) := []
  /-- responses that wait for a place on TK_RSP, oldest first. R106, R341 (reset: DESIGN CHOICE, log 2) -/
  rspWait : List (BitVec 64) := []
  /-- requests that wait while TK_RSP is full, with their arrival ticks. R106, R341 (reset: DESIGN CHOICE, log 2) -/
  reqWait : List (Nat × Instr) := []
  /-- response that left last on TK_RSP. R106 (reset: DESIGN CHOICE, log 2) -/
  sent : Option (BitVec 64) := none
  /-- RUN_TICKET. R418 -/
  runTicket : Nat := 0
  /-- S of the ticket counted (RUN_TICKS counts from it). R343, R418 -/
  runFrom : Option Nat := none
  /-- RUN_STRETCH. R343, R418 -/
  runStretch : Nat := 0
  /-- RUN_CNT. R343 (reset: DESIGN CHOICE, log 2) -/
  runCnt : Tbl Nat := []
  /-- snapshot records. R344 (reset: DESIGN CHOICE, log 2) -/
  snaps : Tbl SnapRec := []
  /-- record used next. R344 (reset: DESIGN CHOICE, log 2) -/
  snapNext : Nat := 0
  /-- TK_REQ messages captured by a freeze, with their arrival ticks. R102, R353 (reset: DESIGN CHOICE, log 2) -/
  capReq : List (Nat × Instr) := []
  /-- TK_RPT messages captured by a freeze. R353 (reset: DESIGN CHOICE, log 2) -/
  capRpt : List (Nat × Instr) := []
  /-- messages discarded during the freeze. R353 (reset: DESIGN CHOICE, log 2) -/
  capOver : Nat := 0
  deriving DecidableEq, Repr

/-- The ticket unit (R99 to R133, R415). -/
structure TicketUnit where
  /-- tickets by identifier. R111 (reset: DESIGN CHOICE, log 2) -/
  tickets : Tbl Ticket := []
  /-- cluster channels. R102 (reset: DESIGN CHOICE, log 2) -/
  clusters : Tbl Cluster := []
  /-- identifier allocated last. R111 -/
  lastId : Nat := 65535
  /-- TKT_QMAX. R112, R415 -/
  qmax : Nat := 65536
  /-- TKT_SG_LEAD. R129, R415 -/
  sgLead : Nat := 192
  /-- TKT_SEL. R415 -/
  sel : Nat := 0
  /-- input-ledger values at the slot starts of the running frame, 10 mA. R119 (reset: DESIGN CHOICE, log 2) -/
  slotVals : List Rat := []
  /-- m of the last frame, 10 mA. R119 (reset: DESIGN CHOICE, log 2) -/
  iinMean : Rat := 0
  /-- (group, ticket) members withdrawn, for SG_DROP. R129 (reset: DESIGN CHOICE, log 2) -/
  sgDrops : List (Nat × Nat) := []
  deriving DecidableEq, Repr

/-- One Skelrak lane (R134, R138, R156, R403). -/
structure Lane where
  /-- vector registers, element 64v + e. R138 -/
  v : Tbl (BitVec 32) := []
  /-- status word of the last completed or stopped descriptor. R156, R403 -/
  status : Nat := 0
  /-- its descriptor index. R403 -/
  desc : Nat := 0
  /-- its program index. R403 -/
  prog : Nat := 0
  /-- SA_SP, SA_IX, K and FI of the previous MATVEC while its source is unwritten. R145 (reset: DESIGN CHOICE, log 2) -/
  prevLoad : Option (Nat × Nat × Nat × Nat) := none
  /-- programs whose domain-loop run completed in this sample. R163 (reset: DESIGN CHOICE, log 2) -/
  doneDl : List Nat := []
  /-- domain-loop programs left when the window ended. R163 (reset: DESIGN CHOICE, log 2) -/
  leftDl : List Nat := []
  /-- forecaster programs left, with the descriptor to restart. R159, R163 (reset: DESIGN CHOICE, log 2) -/
  leftFc : List (Nat × Nat) := []
  /-- attribution programs left. R159, R163 (reset: DESIGN CHOICE, log 2) -/
  leftAt : List (Nat × Nat) := []
  deriving DecidableEq, Repr

/-- One bad table page (R165, R166). -/
structure BadPage where
  /-- array that reported it. R165 (reset: DESIGN CHOICE, log 2) -/
  array : Nat := 0
  /-- frame of the failure. R166 (reset: DESIGN CHOICE, log 2) -/
  since : Nat := 0
  /-- reload requested from the manager. R166 (reset: DESIGN CHOICE, log 2) -/
  asked : Bool := false
  /-- a read-back failed, retried once per round. R166 (reset: DESIGN CHOICE, log 2) -/
  failed : Bool := false
  /-- tick from which the page is good again. R166 (reset: DESIGN CHOICE, log 2) -/
  goodAt : Option Nat := none
  /-- frame of the last ENG_PAGE_CHK. R165 (reset: DESIGN CHOICE, log 2) -/
  raised : Nat := 0
  deriving DecidableEq, Repr

/-- Skelrak (R134 to R171, R403, R421). -/
structure Engine where
  /-- retired arrays. R167, R403 -/
  retired : Nat := 0
  /-- arrays whose retirement takes effect at the next frame. R167 (reset: DESIGN CHOICE, log 2) -/
  retireNext : Nat := 0
  /-- failures charged in the running round. R167 (reset: DESIGN CHOICE, log 2) -/
  charges : Tbl Nat := []
  /-- lane 0. R134 -/
  lane0 : Lane := {}
  /-- lane 1. R134 -/
  lane1 : Lane := {}
  /-- lane 2. R134 -/
  lane2 : Lane := {}
  /-- lane 3. R134 -/
  lane3 : Lane := {}
  /-- table SRAM, byte 256·page + offset; an unlisted byte reads 0. R137 (reset: DESIGN CHOICE, log 2) -/
  mem : List Host.Cell := []
  /-- checksum store; unlisted: the checksum of the all-zero page. R164 (reset: DESIGN CHOICE, log 2) -/
  chk : Tbl (Option (BitVec 32)) := []
  /-- bad pages. R165 (reset: DESIGN CHOICE, log 2) -/
  bad : Tbl (Option BadPage) := []
  /-- host-modified pages, oldest first. R166, R421 -/
  hmod : List Nat := []
  /-- the supervisor's copies of host-modified pages. R166 (reset: DESIGN CHOICE, log 2) -/
  copies : List Host.Cell := []
  /-- B_DL in force. R160, R403 -/
  bDl : Nat := 640
  /-- B_FC in force. R160, R403 -/
  bFc : Nat := 256
  /-- B_AT in force. R160, R403 -/
  bAt : Nat := 48
  /-- B_DT in force. R160, R403 -/
  bDt : Nat := 32
  /-- B_SV in force. R160, R403 -/
  bSv : Nat := 48
  /-- FC_PERIOD in force. R159, R403 -/
  fcPer : Nat := 4
  /-- NEED_DL of the row in force. R161, R403 -/
  need : Nat := 0
  /-- values written to ENG_BUD*, B_DL to FC_PERIOD. R403, R404 -/
  budW : List Nat := [640, 256, 48, 32, 48, 4]
  /-- accepted replacement, for the next frame. R162 (reset: DESIGN CHOICE, log 2) -/
  budPend : Option (List Nat) := none
  /-- a host replacement is in force. R404 (reset: DESIGN CHOICE, log 2) -/
  budHost : Bool := false
  /-- ENG_STS.BUD_REFUSED. R403, R404 -/
  budRefused : Bool := false
  /-- forecaster inputs latched at the period start. R138, R139 (reset: DESIGN CHOICE, log 2) -/
  fin : Tbl Int := []
  /-- counts accepted in the running frame, 16c + i. R138 (reset: DESIGN CHOICE, log 2) -/
  cntNow : Tbl Nat := []
  /-- counts accepted in the last frame. R138 (reset: DESIGN CHOICE, log 2) -/
  cntPrev : Tbl Nat := []
  /-- telemetry EMIT slots. R152, R314 -/
  slots : Tbl (BitVec 32) := []
  /-- frame of the last ENG_FCST_LATE. R163 (reset: DESIGN CHOICE, log 2) -/
  fcLateFr : Option Nat := none
  /-- frame of the last ENG_ATTR_LATE. R163 (reset: DESIGN CHOICE, log 2) -/
  atLateFr : Option Nat := none
  /-- TBL_PAGE. R421 -/
  tblPage : Nat := 0
  /-- staging buffer. R421 -/
  tblBuf : List Host.Cell := []
  /-- tick at which TBL_STS.RDY sets; none: RDY clear. R421, R422 -/
  tblRdyAt : Option Nat := none
  /-- TBL_STS.REFUSED. R421 -/
  tblRefused : Bool := false
  /-- page and tick of a commit under way. R422 (reset: DESIGN CHOICE, log 2) -/
  tblCommit : Option (Nat × Nat) := none
  /-- chunks of a reloaded page received so far. R166 (reset: DESIGN CHOICE, log 2) -/
  reload : List Host.Cell := []
  /-- chunk numbers received. R166 (reset: DESIGN CHOICE, log 2) -/
  reloadGot : List Nat := []
  /-- programs whose fall-back is in force. R165 (reset: DESIGN CHOICE, log 2) -/
  fell : List Nat := []
  /-- page whose reload is awaited. R166 (reset: DESIGN CHOICE, log 2) -/
  loadPage : Option Nat := none
  deriving DecidableEq, Repr

/-- One open occurrence (R276, R280, R287, R405). -/
structure Occ where
  /-- class code. R405 (reset: DESIGN CHOICE, log 2) -/
  cls : Nat := 0
  /-- severity code. R405 (reset: DESIGN CHOICE, log 2) -/
  sev : Nat := 0
  /-- source word. R279, R405 (reset: DESIGN CHOICE, log 2) -/
  src : Nat := 0
  /-- DATA of the opening raise. R278 (reset: DESIGN CHOICE, log 2) -/
  data : Nat := 0
  /-- rungs taken. R287 (reset: DESIGN CHOICE, log 2) -/
  rungIdx : Nat := 0
  /-- code of the last rung taken. R288, R405 (reset: DESIGN CHOICE, log 2) -/
  rung : Nat := 0
  /-- acknowledged. R281, R405 (reset: DESIGN CHOICE, log 2) -/
  ack : Bool := false
  /-- frame from which the timer counts. R287 (reset: DESIGN CHOICE, log 2) -/
  start : Nat := 0
  /-- escalation timer in frames at opening. R287 (reset: DESIGN CHOICE, log 2) -/
  timer : Nat := 0
  /-- the cause has ended. R282 (reset: DESIGN CHOICE, log 2) -/
  ended : Bool := false
  /-- decided to close at the next frame. R282 (reset: DESIGN CHOICE, log 2) -/
  closing : Bool := false
  /-- tick of the last raise. R300 (reset: DESIGN CHOICE, log 2) -/
  raisedAt : Nat := 0
  /-- domains its domain-off or die-stop rung has turned off, until a DOMAIN_ON is accepted. R281, R288, R300 (reset:
  DESIGN CHOICE, log 2) -/
  off : List Nat := []
  deriving DecidableEq, Repr

/-- One history entry (R285). -/
structure Hist where
  /-- TIME. R285 -/
  time : Nat := 0
  /-- CLASS. R285 -/
  cls : Nat := 0
  /-- SEV. R285 -/
  sev : Nat := 0
  /-- REPEAT. R285 -/
  repeats : Nat := 0
  /-- SEQ. R285 -/
  seq : Nat := 0
  /-- SOURCE. R285 -/
  src : Nat := 0
  /-- DATA. R285 -/
  data : Nat := 0
  /-- LAST. R285 -/
  last : Nat := 0
  deriving DecidableEq, Repr

/-- The fault block (R276 to R300, R405). -/
structure Faults where
  /-- open occurrences in order of opening. R406 -/
  occs : List Occ := []
  /-- history entries. R285 -/
  hist : Tbl Hist := []
  /-- SEQ of the newest entry. R286 -/
  head : Nat := 0
  /-- an entry has been written. R286 -/
  any : Bool := false
  /-- FLT_RETRY.RETRIES. R290, R405 -/
  retries : Nat := 0
  /-- FLT_RETRY.RETRY_GAP. R290, R405 -/
  gap : Nat := 1024
  /-- FLT_ESC_SEL. R405 -/
  escSel : Nat := 0
  /-- timers set by FLT_ESC; unlisted: the default of R278. R287, R405 -/
  esc : Tbl (Option Nat) := []
  /-- FLT_OCC_IDX. R405 -/
  occIdx : Nat := 0
  /-- FAULT_N pulled low from RST_N until the end of the fuse read. R371 -/
  held : Bool := true
  /-- tick at which a CLEAR_FAULT closes occurrences. R282 (reset: DESIGN CHOICE, log 2) -/
  clearAt : Option Nat := none
  /-- rungs decided in this frame: code, class, source. R287, R289 (reset: DESIGN CHOICE, log 2) -/
  rungs : List (Nat × Nat × Nat) := []
  /-- the running CLEAR_FAULT has closed an occurrence. R282 (reset: DESIGN CHOICE, log 2) -/
  cleared : Bool := false
  /-- frame in which the last occurrence with a GROUNDED rung in force closed. R296 (reset: DESIGN CHOICE, log 2) -/
  gndEnd : Option Nat := none
  deriving DecidableEq, Repr

/-- One event record (R325). -/
structure Rec where
  /-- ORIGIN. R325 (reset: DESIGN CHOICE, log 2) -/
  origin : Nat := 0
  /-- CLASS. R325 (reset: DESIGN CHOICE, log 2) -/
  cls : Nat := 0
  /-- SEV. R325 (reset: DESIGN CHOICE, log 2) -/
  sev : Nat := 0
  /-- FLAGS. R325 (reset: DESIGN CHOICE, log 2) -/
  flags : Nat := 0
  /-- PWR_CYC. R325 (reset: DESIGN CHOICE, log 2) -/
  pwrCyc : Nat := 0
  /-- OP_MIN. R325 (reset: DESIGN CHOICE, log 2) -/
  opMin : Nat := 0
  /-- RSEQ. R325 (reset: DESIGN CHOICE, log 2) -/
  rseq : Nat := 0
  /-- TIME. R325 (reset: DESIGN CHOICE, log 2) -/
  time : Nat := 0
  /-- SOURCE. R325 (reset: DESIGN CHOICE, log 2) -/
  src : Nat := 0
  /-- DATA. R325 (reset: DESIGN CHOICE, log 2) -/
  data : Nat := 0
  /-- CTX. R325 (reset: DESIGN CHOICE, log 2) -/
  ctx : Nat := 0
  /-- WSEQ. R325 -/
  wseq : Nat := 4294967295
  /-- SENT (worker) or WRITTEN (manager). R327 (reset: DESIGN CHOICE, log 2) -/
  gone : Bool := false
  /-- messages of the record already forwarded. R328 (reset: DESIGN CHOICE, log 2) -/
  part : Nat := 0
  deriving DecidableEq, Repr

/-- The read modes of the flash device: lanes of the opcode, the address and the data (R247). -/
inductive ReadMode where
  | r144
  | r114
  | r122
  | r112
  | r111
  deriving DecidableEq, Repr

/-- What SFDP discovery found (R247, R329, R332). -/
structure NvmInfo where
  /-- a usable device. R247 (reset: DESIGN CHOICE, log 2) -/
  found : Bool := false
  /-- bytes addressable. R247 (reset: DESIGN CHOICE, log 2) -/
  size : Nat := 0
  /-- data lanes of the read mode. R247 (reset: DESIGN CHOICE, log 2) -/
  lanes : Nat := 1
  /-- read mode. R247 (reset: DESIGN CHOICE, log 2) -/
  mode : ReadMode := .r111
  /-- its opcode. R247 (reset: DESIGN CHOICE, log 2) -/
  opcode : Nat := 0x0B
  /-- its mode clocks. R247 (reset: DESIGN CHOICE, log 2) -/
  modeClk : Nat := 0
  /-- its dummy clocks. R247 (reset: DESIGN CHOICE, log 2) -/
  dummy : Nat := 8
  /-- opcodes sent at discovery, in order. R247 (reset: DESIGN CHOICE, log 2) -/
  sent : List Nat := []
  /-- 4-byte address mode entered. R247 (reset: DESIGN CHOICE, log 2) -/
  entered4 : Bool := false
  /-- 4-byte read instructions in use. R247, R329 (reset: DESIGN CHOICE, log 2) -/
  four : Bool := false
  /-- a 4 KiB erase is listed. R329 (reset: DESIGN CHOICE, log 2) -/
  erase4k : Bool := false
  /-- erase suspend is listed. R329 (reset: DESIGN CHOICE, log 2) -/
  suspend : Bool := false
  /-- maximum page-program time, ns. R332 (reset: DESIGN CHOICE, log 2) -/
  tPage : Nat := 0
  /-- maximum suspend latency, ns. R332 (reset: DESIGN CHOICE, log 2) -/
  tSus : Nat := 0
  deriving DecidableEq, Repr

/-- A forwarded record under assembly (R347). -/
structure Asm where
  /-- RSEQ[15:0]. R347 (reset: DESIGN CHOICE, log 2) -/
  rseq : Nat := 0
  /-- parts received. R347 (reset: DESIGN CHOICE, log 2) -/
  parts : Tbl Nat := []
  /-- part numbers received. R347 (reset: DESIGN CHOICE, log 2) -/
  got : List Nat := []
  /-- tick of the first part. R347 (reset: DESIGN CHOICE, log 2) -/
  first : Nat := 0
  deriving DecidableEq, Repr

/-- The event recorder (R325 to R339). -/
structure Recorder where
  /-- event buffer, in order of arrival. R327 -/
  buf : List Rec := []
  /-- next RSEQ. R325 -/
  rseq : Nat := 0
  /-- LOG_LOSTCNT. R327, R337 -/
  lost : Nat := 0
  /-- frame of the last LOG_LOST with cause 0x1. R327 (reset: DESIGN CHOICE, log 2) -/
  lostFrame : Option Nat := none
  /-- drops of the running frame. R327 (reset: DESIGN CHOICE, log 2) -/
  lostN : Nat := 0
  /-- next WSEQ. R329 (reset: DESIGN CHOICE, log 2) -/
  wseq : Nat := 0
  /-- LOG_CTL.SRC. R337 -/
  src : Bool := false
  /-- LOG_CUR. R337 -/
  cur : Nat := 0
  /-- LOG_WIN, the staged record. R337 -/
  win : List (BitVec 32) := []
  /-- tick at which RDY sets; none: RDY clear. R337, R338 -/
  rdyAt : Option Nat := none
  /-- LOG_STS.END. R337 -/
  stEnd : Bool := false
  /-- LOG_STS.SKIP. R337 -/
  skip : Bool := false
  /-- LOG_STS.CRCBAD. R337 -/
  crcBad : Bool := false
  /-- LOG_STS.WIN_OPEN. R336, R337 -/
  winOpen : Bool := false
  /-- frame 1 of the round that closed the window: from it no flash command starts. R336 (reset: DESIGN CHOICE, log 2) -/
  shutAt : Option Nat := none
  /-- the temperature has closed the window. R336 (reset: DESIGN CHOICE, log 2) -/
  deferred : Bool := false
  /-- LOG_STS.NOLOG. R329, R337 -/
  noLog : Bool := false
  /-- LOG_STS.FLUSHING. R337 -/
  flushing : Bool := false
  /-- LOG_STS.PF_DONE. R332, R337 -/
  pfDone : Bool := false
  /-- LOG_PF_GUAR. R332, R337 -/
  pfGuar : Nat := 0
  /-- OPM0. R326, R335 (reset: DESIGN CHOICE, log 2) -/
  opm0 : Nat := 0
  /-- LOG_PWRCYC. R335, R337 -/
  pwrCyc : Nat := 0
  /-- the start-up scan is complete. R335 (reset: DESIGN CHOICE, log 2) -/
  scanned : Bool := false
  /-- LOG_BASE may be used (the header passed LAYOUT). R271, R335 (reset: DESIGN CHOICE, log 2) -/
  usable : Bool := false
  /-- write point, slot. R329, R335 (reset: DESIGN CHOICE, log 2) -/
  wptr : Nat := 0
  /-- page program under way: slot, 8·RSEQ + ORIGIN of a buffered record or 2^36 + the slot of a copied one, and the record as written. R329, R330 (reset: DESIGN CHOICE, log 2) -/
  prog : List (Nat × Nat × Rec) := []
  /-- tick at which it started. R330 (reset: DESIGN CHOICE, log 2) -/
  progFrom : Nat := 0
  /-- the program under way is the retry. R330 (reset: DESIGN CHOICE, log 2) -/
  retryP : Bool := false
  /-- sector under erase. R334 (reset: DESIGN CHOICE, log 2) -/
  erase : Option Nat := none
  /-- sector being reclaimed. R334 (reset: DESIGN CHOICE, log 2) -/
  reclaim : Option Nat := none
  /-- slots of that sector still to copy forward. R334 (reset: DESIGN CHOICE, log 2) -/
  copyQ : List Nat := []
  /-- a flash record is staged after the flash command in progress. R338 (reset: DESIGN CHOICE, log 2) -/
  stageWait : Bool := false
  /-- the erase is suspended. R332 (reset: DESIGN CHOICE, log 2) -/
  eraseSusp : Bool := false
  /-- the erase under way is the retry. R330 (reset: DESIGN CHOICE, log 2) -/
  retryE : Bool := false
  /-- a flush trigger awaits its flush. R331 (reset: DESIGN CHOICE, log 2) -/
  flushTrig : Bool := false
  /-- tick of the power-fail trigger. R332 (reset: DESIGN CHOICE, log 2) -/
  pfTrig : Option Nat := none
  /-- the running flush is a power-fail flush. R332 (reset: DESIGN CHOICE, log 2) -/
  pfMode : Bool := false
  /-- records that FLUSH_LOG still waits for, 8·RSEQ + ORIGIN. R331 (reset: DESIGN CHOICE, log 2) -/
  waitCmd : List Nat := []
  /-- flushing stopped by LOG_WRITE_FAIL until the next trigger. R330 (reset: DESIGN CHOICE, log 2) -/
  failHalt : Bool := false
  /-- records under assembly: field and parts. R347 (reset: DESIGN CHOICE, log 2) -/
  asm : List (Nat × Asm) := []
  /-- contents of the NVM device; an unlisted byte reads 0xFF (erased). R247, R329 (the model's own, log 3) -/
  nvm : List Host.Cell := []
  /-- discovery result. R247 (reset: DESIGN CHOICE, log 2) -/
  info : NvmInfo := {}
  deriving DecidableEq, Repr

/-- One ADC sequence entry (R303 to R310, R408). -/
structure AdcEnt where
  /-- HK_LAST. R408 -/
  last : Nat := 0
  /-- HK_AVG. R408 -/
  avg : Int := 0
  /-- HK_MIN. R408 -/
  mn : Int := 32767
  /-- HK_MAX. R408 -/
  mx : Int := -32768
  /-- HK_STS[i].SAT. R408 -/
  sat : Bool := false
  /-- HK_STS[i].RANGE. R408 -/
  range : Bool := false
  /-- HK_STS[i].REV. R310, R408 -/
  rev : Bool := false
  /-- HK_STS[i].VALID. R310, R408 -/
  valid : Bool := false
  /-- sum of v in the running round. R309 (reset: DESIGN CHOICE, log 2) -/
  accR : Int := 0
  /-- scans of the running round. R309 (reset: DESIGN CHOICE, log 2) -/
  nR : Nat := 0
  /-- a saturated sample in the running round. R310 (reset: DESIGN CHOICE, log 2) -/
  satR : Bool := false
  /-- a saturated sample in the telemetry window. R313 (reset: DESIGN CHOICE, log 2) -/
  satW : Bool := false
  /-- sum of v in the telemetry window. R313 (reset: DESIGN CHOICE, log 2) -/
  accW : Int := 0
  /-- samples in the telemetry window. R313 (reset: DESIGN CHOICE, log 2) -/
  nW : Nat := 0
  /-- sum of v of the last telemetry window that ended. R311, R324 (reset: DESIGN CHOICE, log 2) -/
  shW : Int := 0
  /-- samples of that window. R311, R324 (reset: DESIGN CHOICE, log 2) -/
  shN : Nat := 0
  /-- a saturated sample in that window. R311, R324 (reset: DESIGN CHOICE, log 2) -/
  shSat : Bool := false
  /-- round value. R309 (reset: DESIGN CHOICE, log 2) -/
  roundVal : Option Int := none
  /-- round value of the round before. R196, R310 (reset: DESIGN CHOICE, log 2) -/
  prevVal : Option Int := none
  /-- consecutive rounds outside [LO, HI]. R309 (reset: DESIGN CHOICE, log 2) -/
  outCnt : Nat := 0
  /-- consecutive rounds inside. R309 (reset: DESIGN CHOICE, log 2) -/
  inCnt : Nat := 0
  /-- consecutive scans reading x ≤ −16. R310 (reset: DESIGN CHOICE, log 2) -/
  revCnt : Nat := 0
  /-- consecutive valid rounds. R310 (reset: DESIGN CHOICE, log 2) -/
  okRounds : Nat := 0
  /-- out-of-range episode open. R310 (reset: DESIGN CHOICE, log 2) -/
  thOut : Bool := false
  /-- THERM_HIGH condition by this entry. R196, R310 (reset: DESIGN CHOICE, log 2) -/
  thHigh : Bool := false
  deriving DecidableEq, Repr

/-- Housekeeping and telemetry (R301 to R314, R407, R408). -/
structure Housekeep where
  /-- HK_CTL.LP. R305, R407 -/
  lp : Bool := false
  /-- mode written and the tick of the write, for the next scan. R305, R324 (reset: DESIGN CHOICE, log 2) -/
  lpNext : Option (Bool × Nat) := none
  /-- HK_STS.LP_REFUSED. R305, R407 -/
  lpRefused : Bool := false
  /-- HK_STS.ON. R305, R407 -/
  on : Bool := false
  /-- channel records. R408 -/
  ents : Tbl AdcEnt := []
  /-- TLM_CTL.WIN. R311, R407 -/
  win : Nat := 0
  /-- window length in force. R311 (reset: DESIGN CHOICE, log 2) -/
  winInForce : Nat := 0
  /-- TLM_SEQ. R311, R407 -/
  tlmSeq : Nat := 0
  /-- VIN_AVG. R313, R408 -/
  vinAvg : Nat := 0
  /-- IIN_AVG. R313, R408 -/
  iinAvg : Nat := 0
  /-- P_FLD. R313, R408 -/
  pFld : Nat := 0
  /-- VIN_LO. R313, R408 -/
  vinLo : Nat := 65535
  /-- IIN_PK. R313, R408 -/
  iinPk : Nat := 0
  /-- P_PK. R313, R408 -/
  pPk : Nat := 0
  /-- sum of the window's frame VIN. R313 (reset: DESIGN CHOICE, log 2) -/
  accVin : Nat := 0
  /-- sum of the window's I_in. R313 (reset: DESIGN CHOICE, log 2) -/
  accIin : Nat := 0
  /-- sum of the window's field powers. R313 (reset: DESIGN CHOICE, log 2) -/
  accP : Nat := 0
  /-- frames of the window. R313 (reset: DESIGN CHOICE, log 2) -/
  nW : Nat := 0
  /-- sum of frame VIN of the last window that ended. R311, R324 (reset: DESIGN CHOICE, log 2) -/
  shVin : Nat := 0
  /-- sum of I_in of that window. R311, R324 (reset: DESIGN CHOICE, log 2) -/
  shIin : Nat := 0
  /-- sum of field powers of that window. R311, R324 (reset: DESIGN CHOICE, log 2) -/
  shP : Nat := 0
  /-- frames of that window. R311, R324 (reset: DESIGN CHOICE, log 2) -/
  shN : Nat := 0
  /-- tick of the last scan start, plus 1. R305 (reset: DESIGN CHOICE, log 2) -/
  scanAt : Nat := 0
  /-- tick at which the last round closed, plus 1. R301 (reset: DESIGN CHOICE, log 2) -/
  roundAt : Nat := 0
  /-- round boundary last seen by the telemetry block, plus 1. R311 (reset: DESIGN CHOICE, log 2) -/
  pubAt : Nat := 0
  /-- publications that wait for the thaw. R324 (reset: DESIGN CHOICE, log 2) -/
  pubDue : Nat := 0
  deriving DecidableEq, Repr

/-- One PMBus device record (R318 to R323, R408). -/
structure PmbDev where
  /-- PMB_VIN. R408 -/
  vin : Nat := 0
  /-- PMB_VOUT. R408 -/
  vout : Nat := 0
  /-- PMB_IOUT. R408 -/
  iout : Nat := 0
  /-- PMB_TEMP. R408 -/
  temp : Int := 0
  /-- PMB_STATUS. R408 -/
  status : Nat := 0
  /-- PRESENT. R408 -/
  present : Bool := false
  /-- STALE. R408 -/
  stale : Bool := false
  /-- CLASH. R320, R408 -/
  clash : Bool := false
  /-- NOLIN. R319, R408 -/
  nolin : Bool := false
  /-- VOUT_MODE read at discovery. R319 (reset: DESIGN CHOICE, log 2) -/
  vmode : Nat := 0
  /-- CAPABILITY[7] read at discovery. R318 (reset: DESIGN CHOICE, log 2) -/
  pec : Bool := false
  /-- consecutive failed cycles. R322 (reset: DESIGN CHOICE, log 2) -/
  failCnt : Nat := 0
  /-- PMB_NACK episode open. R322 (reset: DESIGN CHOICE, log 2) -/
  nackEp : Bool := false
  /-- HK_RANGE episodes open: VOUT, IOUT, TEMP. R321 (reset: DESIGN CHOICE, log 2) -/
  rangeEp : Nat := 0
  /-- tick of the pending retry. R322 (reset: DESIGN CHOICE, log 2) -/
  retryAt : Option Nat := none
  deriving DecidableEq, Repr

/-- The PMBus host (R315 to R324). -/
structure Pmbus where
  /-- device records. R408 -/
  devs : Tbl PmbDev := []
  /-- HK_PMB_LATE. R321, R407 -/
  late : Nat := 0
  /-- a poll cycle waits for the one before, or for the thaw. R321, R324 (reset: DESIGN CHOICE, log 2) -/
  due : Bool := false
  /-- discovery done. R320 (reset: DESIGN CHOICE, log 2) -/
  found : Bool := false
  deriving DecidableEq, Repr

/-- One class ladder of the field (R187, R188). -/
structure Ladder where
  /-- down notches not reversed, newest first: domains moved and whether by the grant-rate rung. R187 (reset: DESIGN CHOICE, log 2) -/
  stack : List (List (Nat × Bool)) := []
  /-- frame of the last step. R188 (reset: DESIGN CHOICE, log 2) -/
  lastStep : Option Nat := none
  /-- domains that the last step moved, whether by the grant-rate rung. R206 (reset: DESIGN CHOICE, log 2) -/
  moved : List (Nat × Bool) := []
  /-- the last step went down. R206 (reset: DESIGN CHOICE, log 2) -/
  movedDown : Bool := false
  /-- consecutive frames below the hysteresis mark. R188 (reset: DESIGN CHOICE, log 2) -/
  upCnt : Nat := 0
  /-- class power of the last 16 frames, newest first, mW. R188 (reset: DESIGN CHOICE, log 2) -/
  p16 : List Nat := []
  /-- allocation in force, mW. R186, R409 -/
  alloc : Option Nat := none
  /-- AT_FLOOR of the last report. R185, R409 -/
  atFloor : Bool := false
  /-- class energy account (M, L, A), mW-samples. R202, R409 -/
  nrg : Nat := 0
  /-- class energy of the running round, mW-samples. R185 (reset: DESIGN CHOICE, log 2) -/
  roundE : Nat := 0
  deriving DecidableEq, Repr

/-- The field's account of one job (R203). -/
structure JobAcc where
  /-- energy not yet reported, pJ. R203 (reset: DESIGN CHOICE, log 2) -/
  pj : Nat := 0
  /-- charged in the running round. R203 (reset: DESIGN CHOICE, log 2) -/
  charged : Bool := false
  deriving DecidableEq, Repr

/-- Field limits, caps and energy (R172 to R206, R409). -/
structure Limits where
  /-- C ladder. R187 -/
  ladC : Ladder := {}
  /-- M ladder. R187 -/
  ladM : Ladder := {}
  /-- L ladder. R187 -/
  ladL : Ladder := {}
  /-- energy of the A domains, mW-samples. R409 -/
  nrgA : Nat := 0
  /-- A-class energy of the running round, mW-samples. R185 (reset: DESIGN CHOICE, log 2) -/
  roundA : Nat := 0
  /-- I_in of the last frame, 10 mA. R178 (reset: DESIGN CHOICE, log 2) -/
  iin : Nat := 0
  /-- VIN_f of the last frame, mV. R119, R178 (reset: DESIGN CHOICE, log 2) -/
  vinF : Nat := 0
  /-- sum of the working tiles' VIN over the running frame, mV. R178 (reset: DESIGN CHOICE, log 2) -/
  vinAcc : Int := 0
  /-- readings summed. R178 (reset: DESIGN CHOICE, log 2) -/
  vinN : Nat := 0
  /-- measured energy at the last round report, mW-samples. R177, R185 (reset: DESIGN CHOICE, log 2) -/
  measRep : Nat := 0
  /-- consecutive frames with mean VIN outside 1.55 V to 2.05 V. R291 (reset: DESIGN CHOICE, log 2) -/
  vinOut : Nat := 0
  /-- consecutive frames inside that range. R291 (reset: DESIGN CHOICE, log 2) -/
  vinIn : Nat := 0
  /-- VIN_RANGE episode open. R291 (reset: DESIGN CHOICE, log 2) -/
  vinEp : Bool := false
  /-- IIN_OVER episode open. R179, R409 -/
  iinEp : Bool := false
  /-- consecutive frames below IIN_LIM. R179 (reset: DESIGN CHOICE, log 2) -/
  iinLow : Nat := 0
  /-- measured energy of the field's domains, mW-samples. R177, R409 -/
  meas : Nat := 0
  /-- idle account, pJ. R202, R409 -/
  idle : Nat := 0
  /-- job accounts of the field. R203 (reset: DESIGN CHOICE, log 2) -/
  jobs : Tbl JobAcc := []
  /-- job records lost while the manager was lost. R234 (reset: DESIGN CHOICE, log 2) -/
  jobLost : Nat := 0
  /-- µJ buffered per job while the manager is lost. R234 (reset: DESIGN CHOICE, log 2) -/
  jobHeld : Tbl Nat := []
  /-- CAP_NEW.VALUE. R409 -/
  capNew : Nat := 0
  /-- CAP_NEW.FORCE. R409 -/
  capForce : Bool := false
  /-- the coolant stop has been taken (until COOL_LOSS closes). R198 (reset: DESIGN CHOICE, log 2) -/
  coolStop : Bool := false
  /-- ticks since COOL_OK was last taken as deasserted, at most 250,000,000. R199 (reset: DESIGN CHOICE, log 2) -/
  coolHigh : Nat := 0
  /-- PWRFAIL_N taken as asserted. R274 (reset: DESIGN CHOICE, log 2) -/
  pwrFail : Bool := false
  /-- THERMTRIP_N asserted, until RST_N. R196, R371 -/
  thermTrip : Bool := false
  /-- frames run since READY. R88 (reset: DESIGN CHOICE, log 2) -/
  framesEver : Nat := 0
  deriving DecidableEq, Repr

/-- A field's last report at the manager (R185, R216). -/
structure Report where
  /-- round of RPT_FIELD. R216 (reset: DESIGN CHOICE, log 2) -/
  round : Nat := 0
  /-- report parts received for the running round. R185 (reset: DESIGN CHOICE, log 2) -/
  fresh : Nat := 0
  /-- P_k of C, M, L. R185 (reset: DESIGN CHOICE, log 2) -/
  p : List Nat := [0, 0, 0]
  /-- F_k. R185 (reset: DESIGN CHOICE, log 2) -/
  f : List Nat := [0, 0, 0]
  /-- D_k. R185 (reset: DESIGN CHOICE, log 2) -/
  d : List Nat := [0, 0, 0]
  /-- AT_FLOOR. R185 (reset: DESIGN CHOICE, log 2) -/
  fl : List Bool := [false, false, false]
  /-- allocation in force reported. R216 (reset: DESIGN CHOICE, log 2) -/
  inForce : List Nat := [0, 0, 0]
  /-- A-class power. R185 (reset: DESIGN CHOICE, log 2) -/
  aPow : Nat := 0
  /-- round domain energy, µJ. R216 (reset: DESIGN CHOICE, log 2) -/
  energy : Nat := 0
  /-- GROUNDED flag. R185 (reset: DESIGN CHOICE, log 2) -/
  grounded : Bool := false
  /-- mode in force reported. R216 (reset: DESIGN CHOICE, log 2) -/
  mode : Nat := 1
  /-- consecutive rounds without a report. R235 (reset: DESIGN CHOICE, log 2) -/
  missed : Nat := 0
  deriving DecidableEq, Repr

/-- A member of a launch set (R128, R129). -/
structure SgMem where
  /-- die-wide cluster. R129 (reset: DESIGN CHOICE, log 2) -/
  cluster : Nat := 0
  /-- ticket. R129 (reset: DESIGN CHOICE, log 2) -/
  ticket : Nat := 0
  /-- E. R129 (reset: DESIGN CHOICE, log 2) -/
  earliest : Nat := 0
  /-- field. R129 (reset: DESIGN CHOICE, log 2) -/
  field : Nat := 0
  deriving DecidableEq, Repr

/-- A launch set at the manager (R128 to R131). -/
structure SgSetRec where
  /-- sync group. R128 (reset: DESIGN CHOICE, log 2) -/
  group : Nat := 0
  /-- JOB of the key. R128 (reset: DESIGN CHOICE, log 2) -/
  job : Nat := 0
  /-- LAYER of the key. R128 (reset: DESIGN CHOICE, log 2) -/
  layer : Nat := 0
  /-- OPERATOR of the key. R128 (reset: DESIGN CHOICE, log 2) -/
  oper : Nat := 0
  /-- members. R128 (reset: DESIGN CHOICE, log 2) -/
  mems : List SgMem := []
  /-- SET identifier. R129 (reset: DESIGN CHOICE, log 2) -/
  setId : Option Nat := none
  /-- a round of voting is open. R129 (reset: DESIGN CHOICE, log 2) -/
  voting : Bool := false
  /-- slot proposed. R129 (reset: DESIGN CHOICE, log 2) -/
  p : Nat := 0
  /-- slot proposed in the first round. R130 (reset: DESIGN CHOICE, log 2) -/
  firstP : Option Nat := none
  /-- tick of SG_PROP. R130 (reset: DESIGN CHOICE, log 2) -/
  sentAt : Nat := 0
  /-- field, YES, F. R129 (reset: DESIGN CHOICE, log 2) -/
  votes : List (Nat × Bool × Nat) := []
  /-- fields that voted NO in any round. R130, R424 (reset: DESIGN CHOICE, log 2) -/
  noMask : Nat := 0
  /-- consecutive failed rounds. R130 (reset: DESIGN CHOICE, log 2) -/
  fails : Nat := 0
  /-- SG_COMMIT sent. R129 (reset: DESIGN CHOICE, log 2) -/
  committed : Bool := false
  /-- tick at which the set became complete. R128 (reset: DESIGN CHOICE, log 2) -/
  order : Option Nat := none
  /-- fields that withdrew members. R131 (reset: DESIGN CHOICE, log 2) -/
  wdMask : Nat := 0
  /-- fields that received the withdrawal at or after S. R131 (reset: DESIGN CHOICE, log 2) -/
  lateMask : Nat := 0
  deriving DecidableEq, Repr

/-- One job table entry (R203, R420). -/
structure JobEnt where
  /-- JOB. R420 -/
  job : Nat := 0
  /-- VALID. R420 -/
  valid : Bool := false
  /-- counter, µJ. R203, R420 -/
  uj : Nat := 0
  deriving DecidableEq, Repr

/-- The manager's die-wide functions (R180 to R204, R219 to R238, R409, R419). -/
structure Manager where
  /-- FIELD_ID by ring position. R221, R419 -/
  roster : List Nat := []
  /-- reason a field is held, DIE_HELD. R221, R419 -/
  held : Tbl Nat := []
  /-- fields lost. R235, R419 -/
  lostF : Tbl Bool := []
  /-- version negotiated per field. R220 (reset: DESIGN CHOICE, log 2) -/
  vers : Tbl Nat := []
  /-- tick at which time acquisition starts. R240 (reset: DESIGN CHOICE, log 2) -/
  acqAt : Option Nat := none
  /-- RUN has been sent. R259 (reset: DESIGN CHOICE, log 2) -/
  runs : Bool := false
  /-- last complete reports by field, and behind them (8 + field) the reports being received. R185 (reset: DESIGN CHOICE, log 2) -/
  reports : Tbl Report := []
  /-- the manager's record of the mode. R224 (reset: DESIGN CHOICE, log 2) -/
  modeRec : Mode := .balanced
  /-- allocations sent, 3·field + class. R186, R224, R419 -/
  allocRec : Tbl Nat := []
  /-- CAP_W1. R180, R409 -/
  capW1 : Nat := 4294967295
  /-- CAP_W2. R180, R409 -/
  capW2 : Nat := 4294967295
  /-- DIE_PLIM. R179, R419 -/
  diePlim : Nat := 0
  /-- the round in which a SET_CAP value was accepted that awaits its allocation. R193, R206 (reset: DESIGN CHOICE, log 2) -/
  capPend : Option Nat := none
  /-- a mode decision that waits for the next allocation. R206 (reset: DESIGN CHOICE, log 2) -/
  modeHold : Option Mode := none
  /-- round powers since READY, newest first, mW. R181 (reset: DESIGN CHOICE, log 2) -/
  powers : List Nat := []
  /-- power assumed for the rounds before READY in W1. R181 (reset: DESIGN CHOICE, log 2) -/
  fill1 : Nat := 0
  /-- the same in W2. R181 (reset: DESIGN CHOICE, log 2) -/
  fill2 : Nat := 0
  /-- die energy of the completed round, µJ. R181 (reset: DESIGN CHOICE, log 2) -/
  dieMj : Nat := 0
  /-- DIE_PWR. R181, R419 -/
  diePwr : Nat := 0
  /-- CAP_ALLOW. R182, R409 -/
  allow : Nat := 0
  /-- CAP_FLOOR in force. R192, R409 -/
  capFloor : Bool := false
  /-- its window, 0 W1, 1 W2. R192, R424 (reset: DESIGN CHOICE, log 2) -/
  capFloorW : Nat := 0
  /-- consecutive rounds with a condition failing. R192 (reset: DESIGN CHOICE, log 2) -/
  capFloorN : Nat := 0
  /-- average over the cap in W1. R409 -/
  over1 : Bool := false
  /-- average over the cap in W2. R409 -/
  over2 : Bool := false
  /-- job table. R203, R420 -/
  jobs : Tbl JobEnt := []
  /-- entries freed, next taken first. R420 (reset: DESIGN CHOICE, log 2) -/
  jobFree : List Nat := []
  /-- NRG_JOB_OVF. R203, R409 -/
  jobOvf : Nat := 0
  /-- round of the last NRG_JOB_FULL. R203 (reset: DESIGN CHOICE, log 2) -/
  jobFullRd : Option Nat := none
  /-- NRG_RESID, µJ. R204, R409 -/
  resid : Tbl Int := []
  /-- remainders below 1 µJ, mW-samples. R177, R204 (reset: DESIGN CHOICE, log 2) -/
  residRem : Tbl Int := []
  /-- measured less modelled energy of the manager's own field in the round to judge, mW-samples. R204 (reset: DESIGN CHOICE, log 2) -/
  residDiff : Int := 0
  /-- measured energy of that field in that round, mW-samples. R204 (reset: DESIGN CHOICE, log 2) -/
  residMeas : Nat := 0
  /-- NRG_RESID_PCT, 0.01 %. R204, R409 -/
  residPct : Nat := 0
  /-- consecutive rounds above ATTR_TOL. R204 (reset: DESIGN CHOICE, log 2) -/
  residCnt : Nat := 0
  /-- ATTR_RESIDUAL raised in this run. R204 (reset: DESIGN CHOICE, log 2) -/
  residEp : Bool := false
  /-- TKT_SG_MASK, word 8g + w. R128, R416 -/
  sgMask : Tbl (Option (BitVec 32)) := []
  /-- launch sets, oldest first. R128 (reset: DESIGN CHOICE, log 2) -/
  sgSets : List SgSetRec := []
  /-- next SET identifier. R216 (reset: DESIGN CHOICE, log 2) -/
  setCtr : Nat := 0
  /-- page requests waiting: field, page. R166 (reset: DESIGN CHOICE, log 2) -/
  pageReqs : List (Nat × Nat) := []
  /-- digest parts, 4·field + part. R222 (reset: DESIGN CHOICE, log 2) -/
  hash : Tbl (Option (BitVec 64)) := []
  /-- tick of each field's last SECT flit. R223 (reset: DESIGN CHOICE, log 2) -/
  lastSect : Tbl Nat := []
  /-- digest agreed. R223 (reset: DESIGN CHOICE, log 2) -/
  agreed : Tbl Bool := []
  /-- T_on sent. R259 (reset: DESIGN CHOICE, log 2) -/
  tOn : Nat := 0
  /-- T_ready sent. R259 (reset: DESIGN CHOICE, log 2) -/
  tReady : Nat := 0
  /-- COOL_STOP ordered. R198 (reset: DESIGN CHOICE, log 2) -/
  coolSent : Bool := false
  /-- XT_VALID. R237, R419 -/
  xtValid : Bool := false
  /-- off-die link up. R419 -/
  xtUp : Bool := false
  /-- last offset, 1/16 tick. R237, R419 -/
  xtOfs : Int := 0
  /-- T1 of the request under way, 1/16 tick. R237 (reset: DESIGN CHOICE, log 2) -/
  xtT1 : Option Nat := none
  /-- the own TRAIN has left the off-die port. R220 (reset: DESIGN CHOICE, log 2) -/
  xtTrained : Bool := false
  /-- version of the off-die pair once its TRAIN has come; 0 where none is common. R220 (reset: DESIGN CHOICE, log 2) -/
  xtVer : Option Nat := none
  /-- FIELD_ID of the partner's manager. R236 (reset: DESIGN CHOICE, log 2) -/
  xtPeer : Option Nat := none
  /-- level received. R238, R419 -/
  xtLevel : Nat := 0
  /-- its round. R238, R419 -/
  xtRound : Nat := 0
  /-- round of the last XT_THR. R238 (reset: DESIGN CHOICE, log 2) -/
  xtSince : Nat := 0
  /-- XT_LINK_DOWN raised in this run. R238 (reset: DESIGN CHOICE, log 2) -/
  xtDown : Bool := false
  /-- the follower's step has been taken. R237 (reset: DESIGN CHOICE, log 2) -/
  xtStepped : Bool := false
  /-- the partner has the same role. R237 (reset: DESIGN CHOICE, log 2) -/
  xtRoleBad : Bool := false
  /-- arrival tick of the last XT_RSP. R357 (reset: DESIGN CHOICE, log 2) -/
  xtRspAt : Nat := 0
  /-- round of the last dispute check. R224 (reset: DESIGN CHOICE, log 2) -/
  dispLast : Option Nat := none
  /-- votes that fail because a field is lost. R235 (reset: DESIGN CHOICE, log 2) -/
  sgFlds : Tbl Nat := []
  /-- a worker carries the manager's own FIELD_ID, and DIE_HELD names it there. R17, R221 (reset: DESIGN CHOICE, log 2) -/
  dupOwn : Bool := false
  deriving DecidableEq, Repr

/-- One resend slot (R218, R359). -/
structure Slot where
  /-- the flit kept. R218 (reset: DESIGN CHOICE, log 2) -/
  word : BitVec 128 := 0
  /-- ring it was sent on last. R218 (reset: DESIGN CHOICE, log 2) -/
  ring : Nat := 1
  /-- tick of the last send. R218 (reset: DESIGN CHOICE, log 2) -/
  sentAt : Nat := 0
  /-- sends so far. R218 (reset: DESIGN CHOICE, log 2) -/
  sends : Nat := 1
  deriving DecidableEq, Repr

/-- The outgoing link of a ring (R210, R211, R213). -/
structure Link where
  /-- flits to repeat, in order of arrival: the repeater's or the manager's elastic buffer. R211 (reset: DESIGN CHOICE, log 2) -/
  rep : List (BitVec 128) := []
  /-- flits that a class 0 flit of the manager displaced. R213 (reset: DESIGN CHOICE, log 2) -/
  held : List (BitVec 128) := []
  /-- own flits that wait for an IDLE. R213 (reset: DESIGN CHOICE, log 2) -/
  own : List (BitVec 128) := []
  /-- own class 0 flits. R213 (reset: DESIGN CHOICE, log 2) -/
  top : List (BitVec 128) := []
  /-- the flit on the link in this flit time; none is IDLE. R210 (reset: DESIGN CHOICE, log 2) -/
  now : Option (BitVec 128) := none
  /-- tick at which the last TRACE flit was inserted. R213 (reset: DESIGN CHOICE, log 2) -/
  traceAt : Option Nat := none
  deriving DecidableEq, Repr

/-- One flit handed to the outgoing links (R213). -/
structure OutFlit where
  /-- ring 1, 2, both 3, internal 0 (R208), off-die 4 (R236), link-local port B 5, port A 6. R213 (reset: DESIGN CHOICE, log 2) -/
  rings : Nat := 1
  /-- the flit. R214 (reset: DESIGN CHOICE, log 2) -/
  word : BitVec 128 := 0
  deriving DecidableEq, Repr

/-- The tether of the instance (R207 to R239, R417). -/
structure Tether where
  /-- roster size. R209, R417 -/
  n : Nat := 0
  /-- ring position. R209, R417 -/
  pos : Nat := 0
  /-- training done. R219, R417 -/
  trained : Bool := false
  /-- negotiated version. R220, R417 -/
  version : Nat := 0
  /-- TRAIN flits seen: FIELD_ID, ROLE, hops, VER_MIN, VER_MAX. R219 (reset: DESIGN CHOICE, log 2) -/
  seen : List (Nat × Bool × Nat × Nat × Nat) := []
  /-- ring 1 taken as down. R230, R417 -/
  ring1Down : Bool := false
  /-- ring 2 taken as down. R230, R417 -/
  ring2Down : Bool := false
  /-- own incoming link of ring 1 (port A) down. R230 (reset: DESIGN CHOICE, log 2) -/
  linkA : Bool := false
  /-- own incoming link of ring 2 (port B) down. R230 (reset: DESIGN CHOICE, log 2) -/
  linkB : Bool := false
  /-- LINK_DOWN repetitions left for ring 1. R230 (reset: DESIGN CHOICE, log 2) -/
  ldLeft1 : Nat := 0
  /-- the same for ring 2. R230 (reset: DESIGN CHOICE, log 2) -/
  ldLeft2 : Nat := 0
  /-- consecutive frames whose TIME returned intact on ring 1 (manager). R231 (reset: DESIGN CHOICE, log 2) -/
  intact1 : Nat := 0
  /-- the same on ring 2. R231 (reset: DESIGN CHOICE, log 2) -/
  intact2 : Nat := 0
  /-- TIME returned on ring 1 in this frame. R231 (reset: DESIGN CHOICE, log 2) -/
  back1 : Bool := false
  /-- TIME returned on ring 2 in this frame. R231 (reset: DESIGN CHOICE, log 2) -/
  back2 : Bool := false
  /-- departure of the last TIME on ring 1, 1/16 tick. R226 (reset: DESIGN CHOICE, log 2) -/
  timeSent1 : Nat := 0
  /-- last off, 1/16 tick. R227, R417 -/
  off : Int := 0
  /-- d1, 1/16 tick. R227, R417 -/
  d1 : Nat := 0
  /-- d2, 1/16 tick. R227, R417 -/
  d2 : Nat := 0
  /-- a two-copy estimate has been made. R227 (reset: DESIGN CHOICE, log 2) -/
  two : Bool := false
  /-- H_k, 1/16 tick. R219, R417 -/
  hop : Tbl Nat := []
  /-- REV of ring 1, 1/16 tick. R226, R417 -/
  rev1 : Nat := 0
  /-- REV of ring 2. R226, R417 -/
  rev2 : Nat := 0
  /-- TS of the estimate under way, 1/16 tick. R227 (reset: DESIGN CHOICE, log 2) -/
  ts : Option Nat := none
  /-- arrival stamp of its ring-1 copy, 1/16 tick. R227 (reset: DESIGN CHOICE, log 2) -/
  t1 : Option Nat := none
  /-- arrival stamp of its ring-2 copy. R227 (reset: DESIGN CHOICE, log 2) -/
  t2 : Option Nat := none
  /-- consecutive estimates with |off| ≤ 1 tick. R229 (reset: DESIGN CHOICE, log 2) -/
  okEst : Nat := 0
  /-- time-valid flag. R229, R402 -/
  timeValid : Bool := false
  /-- resynchronise at the next frame start. R229 (reset: DESIGN CHOICE, log 2) -/
  stepPend : Bool := false
  /-- consecutive frames without TIME. R234 (reset: DESIGN CHOICE, log 2) -/
  noTime : Nat := 0
  /-- TIME arrived in this frame. R234 (reset: DESIGN CHOICE, log 2) -/
  gotTime : Bool := false
  /-- round of the declaration of manager loss. R234, R417 -/
  mgrLost : Option Nat := none
  /-- CRC failures of port A. R215, R417 -/
  crcA : Nat := 0
  /-- CRC failures of port B. R215, R417 -/
  crcB : Nat := 0
  /-- TTH_UNDEL. R218, R417 -/
  undel : Nat := 0
  /-- TTH_LATE. R15, R417 -/
  late : Nat := 0
  /-- next SEQ. R217 (reset: DESIGN CHOICE, log 2) -/
  seq : Nat := 0
  /-- tick of the last use of each SEQ, plus 1. R217 (reset: DESIGN CHOICE, log 2) -/
  seqUse : Tbl Nat := []
  /-- SRC, SEQ and tick of the flits accepted in the last 256 ticks. R217 (reset: DESIGN CHOICE, log 2) -/
  recent : List (Nat × Nat × Nat) := []
  /-- flits kept for resending. R218, R359 (reset: DESIGN CHOICE, log 2) -/
  slots : List Slot := []
  /-- flits originated and handed to the outgoing links, oldest first. R213 (reset: DESIGN CHOICE, log 2) -/
  out : List OutFlit := []
  /-- outgoing link of ring 1 (port B). R210 -/
  link1 : Link := {}
  /-- outgoing link of ring 2 (port A). R210 -/
  link2 : Link := {}
  /-- flits that wait for the off-die port. R236 (reset: DESIGN CHOICE, log 2) -/
  xtQ : List (BitVec 128) := []
  /-- the flit on the off-die port; none is IDLE. R236 (reset: DESIGN CHOICE, log 2) -/
  xtNow : Option (BitVec 128) := none
  /-- a link that is down has been trained again since it was declared down. R231 (reset: DESIGN CHOICE, log 2) -/
  retrained : Bool := false
  /-- steering of the PLL's frequency, ppm. R228 (reset: DESIGN CHOICE, log 2) -/
  steer : Int := 0
  /-- last off in full, 1/16 tick. R229 (reset: DESIGN CHOICE, log 2) -/
  offFull : Int := 0
  /-- flits that wait for a resend slot or a SEQ. R217, R359 (reset: DESIGN CHOICE, log 2) -/
  wait : List OutFlit := []
  /-- tick of the last TRACE insertion on ring 1. R213, R358 (reset: DESIGN CHOICE, log 2) -/
  lastTrace1 : Option Nat := none
  /-- the same on ring 2. R213, R358 (reset: DESIGN CHOICE, log 2) -/
  lastTrace2 : Option Nat := none
  /-- flits captured at port A, with their ticks. R353 (reset: DESIGN CHOICE, log 2) -/
  capA : List (Nat × Instr) := []
  /-- flits captured at port B, with their ticks. R353 (reset: DESIGN CHOICE, log 2) -/
  capB : List (Nat × Instr) := []
  /-- last step of TETHER_TIME, ticks. R229 (reset: DESIGN CHOICE, log 2) -/
  stepped : Int := 0
  /-- TETHER_TIME loaded at training. R227 (reset: DESIGN CHOICE, log 2) -/
  loaded : Bool := false
  deriving DecidableEq, Repr

/-- One trace buffer entry (R348). -/
structure TraceEnt where
  /-- message. R346 (reset: DESIGN CHOICE, log 2) -/
  msg : Nat := 0
  /-- SRC. R348 (reset: DESIGN CHOICE, log 2) -/
  src : Nat := 0
  /-- arrival tick [31:0]. R348 (reset: DESIGN CHOICE, log 2) -/
  arr : Nat := 0
  deriving DecidableEq, Repr

/-- The command under way (R398). -/
structure Cmd where
  /-- command code. R398 (reset: DESIGN CHOICE, log 2) -/
  code : Nat := 0
  /-- CMD_ARG latched at acceptance. R398 (reset: DESIGN CHOICE, log 2) -/
  arg : BitVec 32 := 0
  /-- tick of acceptance. R398 (reset: DESIGN CHOICE, log 2) -/
  accAt : Nat := 0
  /-- accepted while the supervisors are halted by a freeze; it acts at the thaw tick. R351, R423 (reset: DESIGN CHOICE, log 2) -/
  held : Bool := false
  /-- COOL_OK had been high for 1 s on every instance at acceptance. R199 (reset: DESIGN CHOICE, log 2) -/
  cool : Bool := false
  /-- tick and RESULT of a scheduled completion. R399 (reset: DESIGN CHOICE, log 2) -/
  doneAt : Option (Nat × Nat) := none
  deriving DecidableEq, Repr

/-- Counters, trace, freeze, dumps (R340 to R363). -/
structure Observe where
  /-- engine counters, 16e + (0 BUSY, 1 IDLE, 2 + k STALL[k]). R340, R342 -/
  ctr : Tbl Nat := []
  /-- OBS_OWN_JOB. R345, R362 -/
  ownJob : Nat := 0
  /-- OBS_FRZ_CTL.CLASS. R362 -/
  frzCls : Nat := 0
  /-- OBS_FRZ_CTL.EN. R362 -/
  frzEn : Bool := false
  /-- freeze scheduled. R350 (reset: DESIGN CHOICE, log 2) -/
  tf : Option Nat := none
  /-- FROZEN. R362 -/
  frozen : Bool := false
  /-- LATE. R351, R362 -/
  late : Bool := false
  /-- CAPOVF. R353, R362 -/
  capOvf : Bool := false
  /-- TIME_INVALID. R351, R362 -/
  timeInv : Bool := false
  /-- ENDED. R356, R362 -/
  ended : Bool := false
  /-- flits captured. R362 -/
  capt : Nat := 0
  /-- OBS_FRZ_TF. R362 -/
  regTf : Nat := 0
  /-- OBS_FRZ_TT. R362 -/
  regTt : Nat := 0
  /-- thaw scheduled. R355 (reset: DESIGN CHOICE, log 2) -/
  tt : Option Nat := none
  /-- TREPs at Tf. R354 (reset: DESIGN CHOICE, log 2) -/
  cutTreps : Tbl (BitVec 64) := []
  /-- ABORT accepted while frozen: its argument and the command it ended. R299, R425 (reset: DESIGN CHOICE, log 2) -/
  abortHeld : Option (Nat × Option Cmd) := none
  /-- OBS_TRC_CTL.EN. R362 -/
  trcEn : Bool := false
  /-- DEST. R362 -/
  trcDest : Bool := false
  /-- WRAP. R362 -/
  trcWrap : Bool := false
  /-- ENG. R362 -/
  trcEng : Bool := false
  /-- BR. R362 -/
  trcBr : Bool := false
  /-- unread trace entries, oldest first. R348 -/
  trc : List TraceEnt := []
  /-- FULL. R348, R362 -/
  trcFull : Bool := false
  /-- messages lost since the last OVF. R348 (reset: DESIGN CHOICE, log 2) -/
  trcLost : Nat := 0
  /-- messages since the last SYNC. R346 (reset: DESIGN CHOICE, log 2) -/
  trcCnt : Nat := 0
  /-- tick of the last SYNC. R346 (reset: DESIGN CHOICE, log 2) -/
  trcSync : Nat := 0
  /-- messages waiting for a TRACE flit. R348 (reset: DESIGN CHOICE, log 2) -/
  trcQ : List Nat := []
  /-- frame of the last TRACE_DROP. R348 (reset: DESIGN CHOICE, log 2) -/
  dropFrame : Option Nat := none
  /-- OBS_DUMP_SEL.KIND. R362 -/
  dumpKind : Nat := 0
  /-- OBS_DUMP_SEL.IDX. R362 -/
  dumpIdx : Nat := 0
  /-- OBS_DUMP_PG. R362 -/
  dumpPg : Nat := 0
  /-- OBS_DUMP_AT. R362 -/
  dumpAt : Nat := 0
  /-- OBS_DUMP_STS.BUSY. R362 -/
  dumpBusy : Bool := false
  /-- VALID. R362 -/
  dumpValid : Bool := false
  /-- FROZEN. R362 -/
  dumpFrozen : Bool := false
  /-- ABORTED. R362 -/
  dumpAborted : Bool := false
  /-- BADPG. R362 -/
  dumpBad : Nat := 0
  /-- OBS_DUMP_LEN. R362 -/
  dumpLen : Nat := 0
  /-- sample named by the accepted DUMP. R360 (reset: DESIGN CHOICE, log 2) -/
  dumpT : Nat := 0
  /-- dump area. R348, R361 (reset: DESIGN CHOICE, log 2) -/
  dumpArea : List Host.Cell := []
  /-- OBS_DUMP_RPG. R362 -/
  dumpRpg : Nat := 0
  /-- OBS_SCAN_SEL segment. R354, R362 -/
  scanSeg : Nat := 0
  /-- OBS_SCAN_SEL word. R354, R362 -/
  scanWord : Nat := 0
  /-- engines whose counters clear at the next tick. R342 (reset: DESIGN CHOICE, log 2) -/
  clrMask : Nat := 0
  /-- T_s of the accepted SNAPSHOT. R357 (reset: DESIGN CHOICE, log 2) -/
  snapAt : Option Nat := none
  /-- snapshot window. R357 -/
  snapMem : List Host.Cell := []
  /-- ordinals of the last OBS_TRC_WIN responses, newest first. R349 (reset: DESIGN CHOICE, log 2) -/
  trcRd : List Nat := []
  deriving DecidableEq, Repr

/-- The host port and command registers (R390 to R399, R402). -/
structure HostPort where
  /-- CMD_ARG. R402 -/
  arg : BitVec 32 := 0
  /-- the BUSY command. R398 -/
  cmd : Option Cmd := none
  /-- CMD_STS.IGNORED. R402 -/
  ignored : Bool := false
  /-- CMD_STS.RESULT. R402 -/
  result : Nat := 0
  /-- CMD_STS.CODE. R402 -/
  code : Nat := 0
  /-- CMD_STS.SEQ. R402 -/
  seq : Nat := 0
  /-- CTL.LOCK. R402 -/
  lock : Bool := false
  /-- SCR. R402 -/
  scr : BitVec 32 := 0
  /-- latched high words, by their address. R393 (reset: DESIGN CHOICE, log 2) -/
  latch : Tbl (Option (BitVec 32)) := []
  /-- HP_RSP_ST of the last response. R364, R391 -/
  rspSt : HostSt := .okay
  /-- HP_RSP_DATA of the last response. R364, R391 -/
  rspData : BitVec 32 := 0
  /-- responses of the host port so far. R349 (reset: DESIGN CHOICE, log 2) -/
  rspCnt : Nat := 0
  /-- writes to stopped functions that wait for the thaw. R423 (reset: DESIGN CHOICE, log 2) -/
  late : List (Nat × BitVec 32) := []
  deriving DecidableEq, Repr

/-- The JTAG TAP and IEEE 1500 wrapper (R387 to R389). -/
structure Tap where
  /-- TAP controller state. R387 (reset: DESIGN CHOICE, log 2) -/
  state : TapState := .testLogicReset
  /-- instruction register. R387, R388 -/
  ir : BitVec 8 := 1
  /-- instruction shift register. R387 (reset: DESIGN CHOICE, log 2) -/
  irSh : BitVec 8 := 0
  /-- data shift register. R388 (reset: DESIGN CHOICE, log 2) -/
  dr : BitVec 64 := 0
  /-- TLN_FRZ_SCAN segment named by the last Update-DR. R354 (reset: DESIGN CHOICE, log 2) -/
  seg : Nat := 0
  /-- TLN_FRZ_SCAN word. R354 (reset: DESIGN CHOICE, log 2) -/
  word : Nat := 0
  /-- wrapper instruction register. R389 (reset: DESIGN CHOICE, log 2) -/
  wir : BitVec 4 := 0
  /-- TDO; none: high impedance. R387 -/
  tdo : Option Bool := none
  deriving DecidableEq, Repr

/-- The factory fuses (R244). -/
structure Fuses where
  /-- VT, point 16d + k; missing points read 0. R244 (the model's own, log 3) -/
  vt : List Nat := []
  /-- VSAFE. R244 (the model's own, log 3) -/
  vsafe : List Nat := []
  /-- SAFE_MITTEN. R244 (the model's own, log 3) -/
  safeMitten : List Nat := []
  /-- SAFE_CLUSTER. R244 (the model's own, log 3) -/
  safeCluster : List Nat := []
  /-- SAFE_CLASS. R244 (the model's own, log 3) -/
  safeClass : List Nat := []
  /-- KEY_HASH. R244 (the model's own, log 3) -/
  keyHash : BitVec 256 := 0
  /-- SIG_REQ. R244 (the model's own, log 3) -/
  sigReq : Bool := false
  /-- NVM_CLK. R244 (the model's own, log 3) -/
  nvmClk : Nat := 0
  /-- FUSE_CRC. R244 (the model's own, log 3) -/
  crc : BitVec 32 := 0
  deriving DecidableEq, Repr

/-- A die decision and its effective tick (R15). -/
structure Decision where
  /-- effective tick. R15 (reset: DESIGN CHOICE, log 2) -/
  eff : Nat := 0
  /-- the decision. R15 (reset: DESIGN CHOICE, log 2) -/
  what : DecKind := .mode .balanced
  deriving DecidableEq, Repr

/-- The spine as the field core drives and hears it (R57, R64). -/
structure Spine where
  /-- CMD and CFG words queued per chain, oldest first. R57 (reset: DESIGN CHOICE, log 2) -/
  q : Tbl (List SpineWord) := []
  /-- words to travel in the last sample of the frame. R57, R95 (reset: DESIGN CHOICE, log 2) -/
  frameQ : List SpineWord := []
  /-- words queued at the first sample of the next frame. R52, R413 (reset: DESIGN CHOICE, log 2) -/
  nextQ : List SpineWord := []
  /-- downstream words of the running sample. R57, R58 (reset: DESIGN CHOICE, log 2) -/
  down : Tbl (List (BitVec 32)) := []
  /-- chain and EVENT word of the upstream event slots. R57, R64 (reset: DESIGN CHOICE, log 2) -/
  up : List (Nat × BitVec 64) := []
  /-- chain length found at enumeration. R380 (reset: DESIGN CHOICE, log 2) -/
  len : Tbl Nat := []
  /-- hop latency measured at enumeration, ps. R35 (reset: DESIGN CHOICE, log 2) -/
  hop : Tbl Nat := []
  /-- DROOP_MARGIN that a chain's MSUM words carry, mV; an unlisted chain carries the default. R60 -/
  margins : Tbl Nat := []
  deriving DecidableEq, Repr

/-- The instance: clocks, straps, start-up and mode (R207, R240 to R275, R294, R402). -/
structure Inst where
  /-- RST_N asserted. R243, R367 -/
  inReset : Bool := false
  /-- ROLE. R207, R402 -/
  manager : Bool := false
  /-- FIELD_ID. R17, R402 -/
  fieldId : Nat := 0
  /-- NVM_EN. R246 -/
  nvmEn : Bool := false
  /-- RST_N has been released and the straps sampled. R207 (reset: DESIGN CHOICE, log 2) -/
  strapped : Bool := false
  /-- PLL locked. R240 (reset: DESIGN CHOICE, log 2) -/
  pll : Bool := false
  /-- STS.HOLDOVER. R31, R402 -/
  holdover : Bool := false
  /-- reference of the PLL. R30 (reset: DESIGN CHOICE, log 2) -/
  pllRef : PllRef := .refclk
  /-- fuse read done. R242 (reset: DESIGN CHOICE, log 2) -/
  fuseDone : Bool := false
  /-- FUSE_CRC failed. R245 (reset: DESIGN CHOICE, log 2) -/
  fuseBad : Bool := false
  /-- STS.VERDICT. R402 -/
  verdict : Nat := 0
  /-- STS.IMG_RC. R254, R402 -/
  imgRc : Nat := 0
  /-- number of the rule that the failed image check names. R254 (reset: DESIGN CHOICE, log 2) -/
  imgRule : Nat := 0
  /-- image address at which the read was stopped by raising NVM_CS_N. R248 (reset: DESIGN CHOICE, log 2) -/
  readTo : Nat := 0
  /-- VERSION.FW. R402 -/
  fwVer : Nat := 0
  /-- VERSION.FMT. R402 -/
  fmtVer : Nat := 0
  /-- configuration committed. R258 (reset: DESIGN CHOICE, log 2) -/
  committed : Bool := false
  /-- sections received, in order of arrival, with the bytes stored of each. R222, R256 (reset: DESIGN CHOICE, log 2) -/
  sectIn : List (Nat × Nat) := []
  /-- tick of the last byte stored. R222 (reset: DESIGN CHOICE, log 2) -/
  sectAt : Nat := 0
  /-- the digest of what is stored has been reported. R222 (reset: DESIGN CHOICE, log 2) -/
  hashSent : Bool := false
  /-- tick of the verdict. R237, R240 (reset: DESIGN CHOICE, log 2) -/
  verdictAt : Nat := 0
  /-- started on the factory safe table. R271 (reset: DESIGN CHOICE, log 2) -/
  factory : Bool := false
  /-- T_on. R259 (reset: DESIGN CHOICE, log 2) -/
  tOn : Option Nat := none
  /-- T_ready. R259 (reset: DESIGN CHOICE, log 2) -/
  tReady : Option Nat := none
  /-- tick at which ring training completed. R271 (reset: DESIGN CHOICE, log 2) -/
  trainedAt : Nat := 0
  /-- STS.READY. R270, R402 -/
  ready : Bool := false
  /-- mode in force, GROUNDED apart. R172, R402 -/
  mode : Mode := .balanced
  /-- mode before the last decision. R173 (reset: DESIGN CHOICE, log 2) -/
  modePrev : Mode := .balanced
  /-- tick at which the mode in force was taken. R173 (reset: DESIGN CHOICE, log 2) -/
  modeSince : Nat := 0
  /-- STS.GND_MASK. R294, R402 -/
  gndMask : Nat := 0
  /-- causes that take effect at the next frame. R294 (reset: DESIGN CHOICE, log 2) -/
  gndNext : Nat := 0
  /-- STS.LOCKSTEP. R292, R402 -/
  lockstep : Bool := false
  /-- spine enumeration done. R20 (reset: DESIGN CHOICE, log 2) -/
  enumDone : Bool := false
  /-- the running auto-tune. R85 (reset: DESIGN CHOICE, log 2) -/
  tuneRun : Option Tune := none
  /-- auto-tune that ended last. R98 (reset: DESIGN CHOICE, log 2) -/
  tuneLast : Option TuneEnd := none
  /-- last frame start run. R285 (reset: DESIGN CHOICE, log 2) -/
  unitAt : Nat := 0
  deriving DecidableEq, Repr

/-- The block: every piece of state of one instance, and the queue of waiting commands. -/
structure State where
  /-- TETHER_TIME. R3, R402 -/
  time : Nat := 0
  /-- clocks, straps, start-up, mode. R207 -/
  inst : Inst := {}
  /-- fuse contents read at start. R244 (the model's own, log 3) -/
  fuses : Fuses := {}
  /-- committed section bytes, key 16777216·section + offset; an unlisted byte reads 0. R251, R258 (reset: DESIGN CHOICE, log 2) -/
  cfg : List Host.Cell := []
  /-- section bytes received and pending. R256 (reset: DESIGN CHOICE, log 2) -/
  pend : List Host.Cell := []
  /-- die decisions that wait for their effective tick. R15 (reset: DESIGN CHOICE, log 2) -/
  decs : List Decision := []
  /-- tile agents. R18 -/
  tiles : Tbl Tile := []
  /-- the field core's view of the tiles. R413 -/
  views : Tbl TView := []
  /-- mittens. R18 -/
  mittens : Tbl Mitten := []
  /-- sense points. R18 -/
  points : Tbl Point := []
  /-- temperature sensors. R18 -/
  sensors : Tbl Sensor := []
  /-- domains. R18 -/
  doms : Tbl Dom := []
  /-- TILE_PAR registers. R414 -/
  tilePar : TilePar := {}
  /-- the tile spine at the field core. R57 (reset: DESIGN CHOICE, log 2) -/
  spine : Spine := {}
  /-- ticket unit. R99 -/
  tk : TicketUnit := {}
  /-- Skelrak. R134 -/
  eng : Engine := {}
  /-- limits and energy. R172 -/
  lim : Limits := {}
  /-- manager functions. R207 -/
  mgr : Manager := {}
  /-- tether. R209 -/
  tth : Tether := {}
  /-- fault block. R276 -/
  flt : Faults := {}
  /-- event recorder. R325 -/
  log : Recorder := {}
  /-- housekeeping and telemetry. R301 -/
  hk : Housekeep := {}
  /-- PMBus host. R315 -/
  pmb : Pmbus := {}
  /-- observation. R340 -/
  obs : Observe := {}
  /-- host port. R390 -/
  host : HostPort := {}
  /-- JTAG TAP. R387 -/
  tap : Tap := {}
  /-- counter of free values, the MODEL's own field. model (the model's own, log 3) -/
  fresh : Nat := 0
  /-- commands that wait, first in first out, the MODEL's own field. model (the model's own, log 3) -/
  pending : List Instr := []
  deriving DecidableEq, Repr

/-- The block right after reset (R243): RST_N has just been asserted and released nothing yet, the queue is empty, FAULT_N
is held low until the fuse read (R371), every table lists nothing. The reset values the spec gives stand in the field
defaults above; those it does not give are log entries 2 and 3. -/
def State.reset : State := {}

end Sys2Proof.Machine
end

