-- ==== Sys2Proof/Machine/Ops.lean ====
section
/-!
DEFINITION. The named operations over tables, memories and records: reading and writing one entry in canonical form,
the accessors of State, bit fields, the layout of the committed sections (R26, R93, R115, R183, R195, R252, R264, R265,
R306) and of the factory safe map (R244, R271), and the ratings that follow from what works (R21, R22).
-/

namespace Sys2Proof.Machine

/-- The outcome of a command. -/
abbrev Out := Host.Outcome State Fault Refusal

/-- The entry of a table at an index; `d` is what an unlisted index reads as. -/
def tget {α : Type} (d : α) : Tbl α → Nat → α
  | [], _ => d
  | (i, v) :: r, k => if i = k then v else tget d r k

/-- Writes one entry and keeps the canonical form: indexes rising, no entry equal to the unlisted one. -/
def tset {α : Type} [DecidableEq α] (d : α) : Tbl α → Nat → α → Tbl α
  | [], k, v => if v = d then [] else [(k, v)]
  | (i, x) :: r, k, v =>
    if k < i then (if v = d then (i, x) :: r else (k, v) :: (i, x) :: r)
    else if k = i then (if v = d then r else (k, v) :: r)
    else (i, x) :: tset d r k v

/-- Whether every index of a table lies above `lo` and the indexes rise, with no entry equal to the unlisted one. -/
def twfFrom {α : Type} [DecidableEq α] (d : α) : Option Nat → Tbl α → Bool
  | _, [] => true
  | lo, (i, v) :: r => (match lo with | none => true | some l => decide (l < i)) && decide (v ≠ d) && twfFrom d (some i) r

/-- The canonical form of a table or byte memory. -/
def twf {α : Type} [DecidableEq α] (d : α) (t : Tbl α) : Bool := twfFrom d none t

/-- The canonical form of a byte memory whose unlisted bytes read as `d`. -/
def Memory.wf (d : BitVec 8) (m : List Host.Cell) : Bool := twf d m

/-- Reads `n` bytes at an address, the first the least significant (R8). -/
def readLE (d : BitVec 8) (m : List Host.Cell) (a : Nat) : Nat → Nat
  | 0 => 0
  | n + 1 => (tget d m a).toNat + 256 * readLE d m (a + 1) n

/-- Writes the `n` low bytes of a number at an address, the least significant first (R8). -/
def writeLE (d : BitVec 8) (m : List Host.Cell) (a : Nat) : Nat → Nat → List Host.Cell
  | 0, _ => m
  | n + 1, v => writeLE d (tset d m a (BitVec.ofNat 8 v)) (a + 1) n (v / 256)

/-- The bytes of a range, in ascending address. -/
def readBytes (d : BitVec 8) (m : List Host.Cell) (a n : Nat) : List (BitVec 8) :=
  (List.range n).map fun i => tget d m (a + i)

/-- Writes bytes at consecutive addresses. -/
def writeBytes (d : BitVec 8) (m : List Host.Cell) (a : Nat) : List (BitVec 8) → List Host.Cell
  | [] => m
  | b :: r => writeBytes d (tset d m a b) (a + 1) r

/-- Bits `hi` down to `lo` of a number. -/
def bits (w hi lo : Nat) : Nat := (w / 2 ^ lo) % 2 ^ (hi + 1 - lo)

/-- Bit `i` of a number. -/
def bit (w i : Nat) : Bool := (w / 2 ^ i) % 2 == 1

/-- A truth value as 0 or 1. -/
def b2n (b : Bool) : Nat := if b then 1 else 0

/-- The indexes below `n` whose bit is set. -/
def maskList (n mask : Nat) : List Nat := (List.range n).filter (bit mask)

/-- The number with the bits of a list set. -/
def listMask (l : List Nat) : Nat := l.foldl (fun m i => if bit m i then m else m + 2 ^ i) 0

/-- Entry `i` of a list, or `d`. -/
def nth {α : Type} (d : α) (l : List α) (i : Nat) : α := l.getD i d

/-- A list with entry `i` replaced. -/
def setNth {α : Type} (l : List α) (i : Nat) (v : α) : List α := l.set i v

/-- `p / q` rounded to the nearest integer, ties up, for a positive `q` (the rounding most rules name). -/
def roundUpTie (p : Int) (q : Nat) : Int := (2 * p + q).fdiv (2 * q)

/-- The same on naturals. -/
def roundNat (p q : Nat) : Nat := if q = 0 then 0 else (2 * p + q) / (2 * q)

/-- Applies a function for each index below `n`, in ascending order. -/
def forIdx (n : Nat) (f : Nat → State → State) (s : State) : State := (List.range n).foldl (fun s i => f i s) s

/-- Applies a function for each entry of a list, in order. -/
def forL {α : Type} (l : List α) (f : α → State → State) (s : State) : State := l.foldl (fun s x => f x s) s

/-! ### Records of State -/

/-- Tile agent `t`. -/
def State.tile (s : State) (t : Nat) : Tile := tget {} s.tiles t
/-- Writes tile agent `t`. -/
def State.setTile (s : State) (t : Nat) (v : Tile) : State := { s with tiles := tset {} s.tiles t v }
/-- Changes tile agent `t`. -/
def State.updTile (s : State) (t : Nat) (f : Tile → Tile) : State := s.setTile t (f (s.tile t))
/-- The field core's view of tile `t`. -/
def State.view (s : State) (t : Nat) : TView := tget {} s.views t
/-- Writes the view of tile `t`. -/
def State.setView (s : State) (t : Nat) (v : TView) : State := { s with views := tset {} s.views t v }
/-- Changes the view of tile `t`. -/
def State.updView (s : State) (t : Nat) (f : TView → TView) : State := s.setView t (f (s.view t))
/-- Mitten `m`. -/
def State.mitten (s : State) (m : Nat) : Mitten := tget {} s.mittens m
/-- Writes mitten `m`. -/
def State.setMitten (s : State) (m : Nat) (v : Mitten) : State := { s with mittens := tset {} s.mittens m v }
/-- Changes mitten `m`. -/
def State.updMitten (s : State) (m : Nat) (f : Mitten → Mitten) : State := s.setMitten m (f (s.mitten m))
/-- Sense point `p`. -/
def State.point (s : State) (p : Nat) : Point := tget {} s.points p
/-- Writes sense point `p`. -/
def State.setPoint (s : State) (p : Nat) (v : Point) : State := { s with points := tset {} s.points p v }
/-- Changes sense point `p`. -/
def State.updPoint (s : State) (p : Nat) (f : Point → Point) : State := s.setPoint p (f (s.point p))
/-- Temperature sensor `i`. -/
def State.sensor (s : State) (i : Nat) : Sensor := tget {} s.sensors i
/-- Writes temperature sensor `i`. -/
def State.setSensor (s : State) (i : Nat) (v : Sensor) : State := { s with sensors := tset {} s.sensors i v }
/-- Domain `d`. -/
def State.dom (s : State) (d : Nat) : Dom := tget {} s.doms d
/-- Writes domain `d`. -/
def State.setDom (s : State) (d : Nat) (v : Dom) : State := { s with doms := tset {} s.doms d v }
/-- Changes domain `d`. -/
def State.updDom (s : State) (d : Nat) (f : Dom → Dom) : State := s.setDom d (f (s.dom d))
/-- Ticket `i`. -/
def State.ticket (s : State) (i : Nat) : Ticket := tget {} s.tk.tickets i
/-- Writes ticket `i`. -/
def State.setTicket (s : State) (i : Nat) (v : Ticket) : State :=
  { s with tk := { s.tk with tickets := tset {} s.tk.tickets i v } }
/-- Changes ticket `i`. -/
def State.updTicket (s : State) (i : Nat) (f : Ticket → Ticket) : State := s.setTicket i (f (s.ticket i))
/-- Cluster `c`. -/
def State.cluster (s : State) (c : Nat) : Cluster := tget {} s.tk.clusters c
/-- Writes cluster `c`. -/
def State.setCluster (s : State) (c : Nat) (v : Cluster) : State :=
  { s with tk := { s.tk with clusters := tset {} s.tk.clusters c v } }
/-- Changes cluster `c`. -/
def State.updCluster (s : State) (c : Nat) (f : Cluster → Cluster) : State := s.setCluster c (f (s.cluster c))
/-- Changes the instance record. -/
def State.updInst (s : State) (f : Inst → Inst) : State := { s with inst := f s.inst }
/-- Changes the spine record. -/
def State.updSpine (s : State) (f : Spine → Spine) : State := { s with spine := f s.spine }
/-- Changes the ticket unit. -/
def State.updTk (s : State) (f : TicketUnit → TicketUnit) : State := { s with tk := f s.tk }
/-- Changes the engine. -/
def State.updEng (s : State) (f : Engine → Engine) : State := { s with eng := f s.eng }
/-- Changes the limits. -/
def State.updLim (s : State) (f : Limits → Limits) : State := { s with lim := f s.lim }
/-- Changes the manager part. -/
def State.updMgr (s : State) (f : Manager → Manager) : State := { s with mgr := f s.mgr }
/-- Changes the tether. -/
def State.updTth (s : State) (f : Tether → Tether) : State := { s with tth := f s.tth }
/-- Changes the fault block. -/
def State.updFlt (s : State) (f : Faults → Faults) : State := { s with flt := f s.flt }
/-- Changes the recorder. -/
def State.updLog (s : State) (f : Recorder → Recorder) : State := { s with log := f s.log }
/-- Changes housekeeping. -/
def State.updHk (s : State) (f : Housekeep → Housekeep) : State := { s with hk := f s.hk }
/-- Changes the PMBus host. -/
def State.updPmb (s : State) (f : Pmbus → Pmbus) : State := { s with pmb := f s.pmb }
/-- Changes the observation block. -/
def State.updObs (s : State) (f : Observe → Observe) : State := { s with obs := f s.obs }
/-- Changes the host port. -/
def State.updHost (s : State) (f : HostPort → HostPort) : State := { s with host := f s.host }
/-- Changes the TAP. -/
def State.updTap (s : State) (f : Tap → Tap) : State := { s with tap := f s.tap }

/-- Adds clocks to a counter of an engine: 0 BUSY, 1 all clocks, 2 + k STALL[k]. IDLE is what is left of all clocks (R340). -/
def State.countEng (s : State) (e k n : Nat) : State :=
  s.updObs fun o => { o with ctr := tset 0 o.ctr (16 * e + k) (tget 0 o.ctr (16 * e + k) + n) }

/-- Phase `k` of a tile. -/
def Tile.ph (x : Tile) (k : Nat) : Phase := match k with | 0 => x.p0 | 1 => x.p1 | 2 => x.p2 | _ => x.p3
/-- Writes phase `k` of a tile. -/
def Tile.setPh (x : Tile) (k : Nat) (v : Phase) : Tile :=
  match k with | 0 => { x with p0 := v } | 1 => { x with p1 := v } | 2 => { x with p2 := v } | _ => { x with p3 := v }
/-- Changes phase `k` of a tile. -/
def Tile.updPh (x : Tile) (k : Nat) (f : Phase → Phase) : Tile := x.setPh k (f (x.ph k))
/-- Changes every phase of a tile. -/
def Tile.allPh (x : Tile) (f : Nat → Phase → Phase) : Tile :=
  { x with p0 := f 0 x.p0, p1 := f 1 x.p1, p2 := f 2 x.p2, p3 := f 3 x.p3 }
/-- The phases of a tile that satisfy a test, as a 4-bit mask. -/
def Tile.phMask (x : Tile) (f : Phase → Bool) : Nat :=
  b2n (f x.p0) + 2 * b2n (f x.p1) + 4 * b2n (f x.p2) + 8 * b2n (f x.p3)
/-- How many phases of a tile satisfy a test. -/
def Tile.phCount (x : Tile) (f : Phase → Bool) : Nat := b2n (f x.p0) + b2n (f x.p1) + b2n (f x.p2) + b2n (f x.p3)

/-- Lane `l` of the engine. -/
def Engine.lane (e : Engine) (l : Nat) : Lane := match l with | 0 => e.lane0 | 1 => e.lane1 | 2 => e.lane2 | _ => e.lane3
/-- Writes lane `l` of the engine. -/
def Engine.setLane (e : Engine) (l : Nat) (v : Lane) : Engine :=
  match l with | 0 => { e with lane0 := v } | 1 => { e with lane1 := v } | 2 => { e with lane2 := v } | _ => { e with lane3 := v }

/-! ### Codes -/

/-- The code of a tile state (R42). -/
def tileCode : TileState → Nat
  | .off => 0 | .precharge => 1 | .softstart => 2 | .regulate => 3 | .shed => 4 | .crowbar => 5 | .latched => 6 | .retired => 7
/-- The code of a loop state (R411). -/
def loopCode : LoopState → Nat
  | .idle => 0 | .ramp => 1 | .closed => 2 | .tune => 3 | .ground => 4
/-- The code of a mode (R172). -/
def modeCode : Mode → Nat
  | .peak => 0 | .balanced => 1 | .efficient => 2 | .grounded => 3
/-- The mode of a code (R172). -/
def modeOf : Nat → Mode
  | 0 => .peak | 1 => .balanced | 2 => .efficient | _ => .grounded
/-- The code of a ticket state (R110). -/
def tkCode : TkState → Nat
  | .requested => 0 | .queued => 1 | .granted => 2 | .armed => 3 | .launched => 4 | .running => 5 | .done => 6 | .expired => 7 | .withdrawn => 8
/-- The code of a bring-up status (R269). -/
def bringCode : BringSt → Nat
  | .none => 0 | .waiting => 1 | .running => 2 | .ready => 3 | .short => 4 | .capWindow => 5 | .dark => 6 | .bridleFail => 7
  | .window => 8 | .aborted => 9 | .refusedState => 10 | .refusedTherm => 11 | .refusedCool => 12 | .refusedPwr => 13 | .off => 14 | .protect => 15
/-- The index of a ladder class, which is its class code (R25, R187). -/
def ladIdx : LadCls → Nat
  | .c => 0 | .m => 1 | .l => 2

/-! ### Time (R2) -/

/-- A tick no 64-bit time reaches: an end that is not fixed yet. -/
def notYet : Nat := 2 ^ 64

/-- The frame a tick lies in, as a number. -/
def frameOf (t : Nat) : Nat := t / 256
/-- The start tick of the frame after the one that contains a tick. -/
def nextFrame (t : Nat) : Nat := 256 * (t / 256) + 256
/-- The effective tick of a die decision sent at a tick: the start of the second frame after (R15). -/
def decisionTick (t : Nat) : Nat := 256 * (t / 256) + 512
/-- The round a tick lies in (R301). -/
def roundOf (t : Nat) : Nat := t / 262144
/-- The smallest tick not below `g` whose 32 low bits are `w` (R100). -/
def extend32 (g w : Nat) : Nat := g + ((w + 2 ^ 32 - g % 2 ^ 32) % 2 ^ 32)
/-- The largest tick not above `g` whose 16 low bits are `w`, as EVENT.TIME is extended (R62). -/
def extend16back (g w : Nat) : Nat := g - ((g % 2 ^ 16 + 2 ^ 16 - w) % 2 ^ 16)

/-- Whether the instance is in GROUNDED (R294). -/
def State.grounded (s : State) : Bool := s.inst.gndMask != 0
/-- The mode in force (R172, R295). -/
def State.modeNow (s : State) : Mode := if s.grounded then .grounded else s.inst.mode

/-! ### The committed sections (R251), the field's own share -/

/-- Where a section stands in the stored bytes. -/
def secKey (sec off : Nat) : Nat := 16777216 * sec + off
/-- Byte of a committed section. -/
def State.cb (s : State) (sec off : Nat) : Nat := (tget 0 s.cfg (secKey sec off)).toNat
/-- Little-endian number of a committed section. -/
def State.cn (s : State) (sec off n : Nat) : Nat := readLE 0 s.cfg (secKey sec off) n

/-- The local domains. -/
def domIdx : List Nat := List.range 32
/-- Whether local mitten `m` is in the factory safe map, and where (R244, R271). -/
def State.safeMitten (s : State) (m : Nat) : Option Nat :=
  let v := nth 0 s.fuses.safeMitten m
  if bit v 5 then some (v % 32) else none
/-- Whether local cluster `c` is in the factory safe map, and where (R244, R271). -/
def State.safeCluster (s : State) (c : Nat) : Option Nat :=
  let v := nth 0 s.fuses.safeCluster c
  if bit v 5 then some (v % 32) else none
/-- The mittens of a domain as a mask: MITTEN_MASK (R26), or the fuse map's (R271). -/
def State.mittenMask (s : State) (d : Nat) : Nat :=
  if s.inst.factory then listMask ((List.range 32).filter fun m => s.safeMitten m == some d) else s.cn 1 (64 * d + 8) 4
/-- ENABLE (R26); a domain of the fuse map is enabled when a mitten is assigned to it (R271). -/
def State.enabled (s : State) (d : Nat) : Bool :=
  if s.inst.factory then s.mittenMask d != 0 else s.inst.committed && bit (s.cb 1 (64 * d + 2)) 0
/-- CLASS: 0 C, 1 M, 2 L, 3 A (R25, R26; SAFE_CLASS under R271). -/
def State.dclass (s : State) (d : Nat) : Nat :=
  if s.inst.factory then nth 0 s.fuses.safeClass d % 4 else s.cb 1 (64 * d + 1)
/-- COMMIT_SPARE (R24, R26). -/
def State.commitSpare (s : State) (d : Nat) : Bool := !s.inst.factory && bit (s.cb 1 (64 * d + 2)) 1
/-- START_ON (R26), or START of the fuse map (R271). -/
def State.startOn (s : State) (d : Nat) : Bool :=
  if s.inst.factory then bit (nth 0 s.fuses.safeClass d) 2 else bit (s.cb 1 (64 * d + 2)) 2
/-- ON_ORDER (R26). -/
def State.onOrder (s : State) (d : Nat) : Nat := s.cb 1 (64 * d + 3)
/-- OFF_ORDER (R26). -/
def State.offOrder (s : State) (d : Nat) : Nat := s.cb 1 (64 * d + 4)
/-- HDR_GROUP: of a C domain of the fuse map it is the domain's number (R271). -/
def State.hdrGroup (s : State) (d : Nat) : Nat := if s.inst.factory then d else s.cb 1 (64 * d + 6)
/-- CAP_RANK (R26). -/
def State.capRank (s : State) (d : Nat) : Nat := s.cb 1 (64 * d + 7)
/-- The clusters of a domain as a mask (R26, R271). -/
def State.clusterMask (s : State) (d : Nat) : Nat :=
  if s.inst.factory then listMask ((List.range 32).filter fun c => s.safeCluster c == some d) else s.cn 1 (64 * d + 12) 4
/-- The mittens of a domain in ascending order. -/
def State.dmittens (s : State) (d : Nat) : List Nat := maskList 32 (s.mittenMask d)
/-- The clusters of a domain in ascending order. -/
def State.dclusters (s : State) (d : Nat) : List Nat := maskList 32 (s.clusterMask d)
/-- SENSE_EXCLUDE of the k-th member mitten (R26); the fuse map excludes no point. -/
def State.senseExclude (s : State) (d k : Nat) : Nat := if s.inst.factory then 0 else s.cn 1 (64 * d + 16 + 2 * k) 2
/-- The factory safe voltage of a domain, set-point code (R174). -/
def State.vsafe (s : State) (d : Nat) : Nat := nth 0 s.fuses.vsafe d
/-- VRET (R26); VSAFE under R271. -/
def State.vret (s : State) (d : Nat) : Nat := if s.inst.factory then s.vsafe d else s.cn 1 (64 * d + 24) 2 % 4096
/-- The neighbours of a domain, die-wide (R26). -/
def State.nbrs (s : State) (d : Nat) : List Nat :=
  if s.inst.factory then [] else ((List.range 8).map fun i => s.cb 1 (64 * d + 32 + i)).filter (· != 255)
/-- The enabled domain that a mitten belongs to. -/
def State.mittenDom (s : State) (m : Nat) : Option Nat := domIdx.find? fun d => s.enabled d && bit (s.mittenMask d) m
/-- The enabled C domain that a cluster draws from (R27, R105). -/
def State.clusterDom (s : State) (c : Nat) : Option Nat :=
  domIdx.find? fun d => s.enabled d && s.dclass d == 0 && bit (s.clusterMask d) c
/-- The enabled domain of a tile. -/
def State.tileDom (s : State) (t : Nat) : Option Nat := s.mittenDom (t / 6)
/-- The tiles of a domain, in ascending order (R18). -/
def State.dtiles (s : State) (d : Nat) : List Nat :=
  (s.dmittens d).flatMap fun m => (List.range 6).map fun p => 6 * m + p
/-- Die-wide number of local domain `d` (R18). -/
def State.dieDom (s : State) (d : Nat) : Nat := 32 * s.inst.fieldId + d
/-- Die-wide number of local cluster `c` (R18). -/
def State.dieCluster (s : State) (c : Nat) : Nat := 32 * s.inst.fieldId + c

/-- A value of the thresholds section, or its default before commit and on the factory safe table (R252, R271). -/
def State.thr (s : State) (off n dflt : Nat) : Nat := if s.inst.factory || !s.inst.committed then dflt else s.cn 9 off n
/-- STUCK_N (R76). -/
def State.stuckN (s : State) : Nat := s.thr 0x40 2 64
/-- TRUST_REGAIN (R78). -/
def State.trustRegain (s : State) : Nat := s.thr 0x42 2 1024
/-- SAT_TIME (R84). -/
def State.satTime (s : State) : Nat := s.thr 0x44 2 32
/-- SAT_ERR (R84). -/
def State.satErr (s : State) : Nat := s.thr 0x46 2 125
/-- SHED_GUARD (R90). -/
def State.shedGuard (s : State) : Nat := s.thr 0x4E 1 8
/-- SHED_BACKOFF (R92). -/
def State.shedBackoff (s : State) : Nat := s.thr 0x50 2 64
/-- REDIST_HOLD (R96). -/
def State.redistHold (s : State) : Nat := s.thr 0x52 2 16
/-- I_SHED of a mode, 10 mA (R88). -/
def State.iShed (s : State) : Nat := if s.modeNow = .efficient then s.thr 0x58 2 150 else s.thr 0x54 2 120
/-- I_UNSHED of a mode, 10 mA (R88). -/
def State.iUnshed (s : State) : Nat := if s.modeNow = .efficient then s.thr 0x5A 2 180 else s.thr 0x56 2 160
/-- ON_WIN (R252). -/
def State.onWin (s : State) : Nat := s.thr 0x404 4 32768
/-- OFF_WIN (R252). -/
def State.offWin (s : State) : Nat := s.thr 0x408 4 8192
/-- NVM_TLO (R252). -/
def State.nvmTlo (s : State) : Int := sext 16 (s.thr 0x40C 2 0)
/-- NVM_THI (R252). -/
def State.nvmThi (s : State) : Int := sext 16 (s.thr 0x40E 2 0x1540)
/-- XT_ROLE: 0 OFF, 1 SOURCE, 2 FOLLOWER (R236, R252). -/
def State.xtRole (s : State) : Nat := s.thr 0x400 1 0
/-- The thermal group of a mitten (R195). -/
def State.thermGroup (s : State) (m : Nat) : Nat := s.thr (0x200 + 256 + 32 * s.inst.fieldId + m) 1 0
/-- T_HIGH of a thermal group, temperature code (R195). -/
def State.tHigh (s : State) (g : Nat) : Int := sext 16 (s.thr (0x200 + 16 * g) 2 6080)
/-- T_CRIT (R195). -/
def State.tCrit (s : State) (g : Nat) : Int := sext 16 (s.thr (0x200 + 16 * g + 2) 2 6720)
/-- T_LOW (R195). -/
def State.tLow (s : State) (g : Nat) : Int := sext 16 (s.thr (0x200 + 16 * g + 4) 2 320)
/-- T_RISE, per round (R195). -/
def State.tRise (s : State) (g : Nat) : Int := sext 16 (s.thr (0x200 + 16 * g + 6) 2 128)
/-- T_HYST (R195). -/
def State.tHyst (s : State) (g : Nat) : Int := sext 16 (s.thr (0x200 + 16 * g + 8) 2 320)
/-- CHK (R195). -/
def State.tChk (s : State) (g : Nat) : Nat := s.thr (0x200 + 16 * g + 10) 1 3

/-- A byte or number of the cap-policy header, or a default (R183). -/
def State.pol (s : State) (off n dflt : Nat) : Nat := if s.inst.factory || !s.inst.committed then dflt else s.cn 8 off n
/-- CAP_STEP_DN (R183). -/
def State.stepDn (s : State) : Nat := s.pol 0x14 1 4
/-- CAP_STEP_UP (R183). -/
def State.stepUp (s : State) : Nat := s.pol 0x15 1 64
/-- CAP_HYST (R183). -/
def State.capHyst (s : State) : Nat := s.pol 0x16 1 5
/-- MARGIN_STEP (R183). -/
def State.marginStep (s : State) : Nat := s.pol 0x17 1 3
/-- ATTR_TOL (R183). -/
def State.attrTol (s : State) : Nat := s.pol 0x38 1 10
/-- N_W1 (R180, R183). -/
def State.nW1 (s : State) : Nat := s.pol 0x0C 2 954
/-- N_W2 (R180, R183). -/
def State.nW2 (s : State) : Nat := s.pol 0x10 4 57221
/-- The classes in the order they are cut (R183). -/
def State.cutOrder (s : State) : List Nat := let v := s.pol 0x0E 1 0x24; [v % 4, v / 4 % 4, v / 16 % 4]
/-- The mode the policy names (R172, R183). -/
def State.polMode (s : State) : Mode := modeOf (s.pol 0x0F 1 1)
/-- IIN_LIM of the field, 10 mA; 2,000.00 A on the factory safe table (R178, R271), 0 until commit (R409). -/
def State.iinLim (s : State) : Nat :=
  if s.inst.factory then 200000 else if s.inst.committed then s.cn 8 (0x18 + 4 * s.inst.fieldId) 4 else 0
/-- P_TOP (R183); the factory safe table has no throttling and keeps point 15. -/
def State.pTop (s : State) (d : Nat) : Nat := if s.inst.factory then 15 else s.cb 8 (64 + 16 * d)
/-- P_FLOOR (R183). -/
def State.pFloor (s : State) (d : Nat) : Nat := if s.inst.factory then 15 else s.cb 8 (64 + 16 * d + 1)
/-- PNOM, mW (R183). -/
def State.pNom (s : State) (d : Nat) : Nat := s.cn 8 (64 + 16 * d + 4) 4
/-- PFLOOR, mW (R183). -/
def State.pFlr (s : State) (d : Nat) : Nat := s.cn 8 (64 + 16 * d + 8) 4
/-- The policy's ICAP; 0 selects the ceiling (R179, R183, R271). -/
def State.polIcap (s : State) (d : Nat) : Nat := if s.inst.factory then 0 else s.cn 8 (64 + 16 * d + 12) 2

/-- ON_DELAY, ON_RATE, OFF_DELAY, OFF_RATE of a domain (R265). -/
def State.seqEntry (s : State) (d k : Nat) : Nat := if s.inst.factory then 0 else s.cb 7 (8160 + 16 * d + k)
/-- The bridle record of a domain, field by field, with the defaults of R264 on the factory safe table (R271). -/
def State.bridle (s : State) (d off n dflt : Nat) : Nat :=
  if s.inst.factory then dflt else s.cn 7 (32 * s.cb 1 (64 * d + 5) + off) n
/-- STAGES (R264). -/
def State.bStages (s : State) (d : Nat) : Nat := s.bridle d 1 1 8
/-- RETRIES of the bridle record (R264; 0 under R271). -/
def State.bRetries (s : State) (d : Nat) : Nat := s.bridle d 2 1 0
/-- RETRY_GAP of the bridle record, frames (R264). -/
def State.bGap (s : State) (d : Nat) : Nat := s.bridle d 3 1 16
/-- HOLD, ticks (R264). -/
def State.bHold (s : State) (d : Nat) : Nat := s.bridle d 4 2 2000
/-- INTERVAL of a stage, ticks (R264). -/
def State.bInterval (s : State) (d k : Nat) : Nat := s.bridle d (8 + k) 1 16
/-- INRUSH of a stage, 0.1 A (R264). -/
def State.bInrush (s : State) (d k : Nat) : Nat := s.bridle d (16 + k) 1 20

/-- STG of a domain (R115); M, L, A and factory-safe domains carry 0xFF. -/
def State.stg (s : State) (d : Nat) : Nat := if s.inst.factory then 255 else s.cb 5 (524288 + 8 * d)
/-- G_FF, steps per A, 1/256 (R115). -/
def State.gff (s : State) (d : Nat) : Nat := if s.inst.factory then 0 else s.cn 5 (524288 + 8 * d + 2) 2
/-- DIDT_MAX code (R115). -/
def State.didtMax (s : State) (d : Nat) : Nat := if s.inst.factory then 0 else s.cn 5 (524288 + 8 * d + 4) 2

/-- A field of a launch profile as the profile region of the table SRAM holds it (R114, R137), or of the safe record of
R271. -/
def State.prof (s : State) (i off n safe : Nat) : Nat :=
  if s.inst.factory then safe else readLE 0 s.eng.mem (256 * 0x1800 + 128 * i + off) n
/-- VALID of a profile (R114). -/
def State.pfValid (s : State) (i : Nat) : Bool := bit (s.prof i 7 1 1) 0
/-- HEAVY (R114). -/
def State.pfHeavy (s : State) (i : Nat) : Bool := bit (s.prof i 7 1 1) 1
/-- LEAD, ticks (R114). -/
def State.pfLead (s : State) (i : Nat) : Nat := s.prof i 2 1 4
/-- LIFT, set-point codes (R114). -/
def State.pfLift (s : State) (i : Nat) : Nat := s.prof i 3 1 0
/-- LIFT_SLOTS (R114). -/
def State.pfLiftSlots (s : State) (i : Nat) : Nat := s.prof i 4 1 1
/-- TOL_PCT (R114). -/
def State.pfTolPct (s : State) (i : Nat) : Nat := s.prof i 5 1 100
/-- TOL_ABS, 0.5 A (R114). -/
def State.pfTolAbs (s : State) (i : Nat) : Nat := s.prof i 6 1 255
/-- ISCALE, 10 mA (R114). -/
def State.pfIscale (s : State) (i : Nat) : Nat := s.prof i 8 2 1
/-- RUN_MAX, frames (R114). -/
def State.pfRunMax (s : State) (i : Nat) : Nat := s.prof i 10 2 65535
/-- Curve point j, held at p[63] beyond the table (R114). -/
def State.pfCurve (s : State) (i j : Nat) : Nat := s.prof i (64 + min j 63) 1 0

/-! ### The effective voltage table (R174, R175) -/

/-- VT_d[k] (R174). -/
def State.vt (s : State) (d k : Nat) : Nat := nth 0 s.fuses.vt (16 * d + k)
/-- VT_d[k] with the clamped user offset, before the running maximum (R175). -/
def vOffset (s : State) (uc : List Int) (d k : Nat) : Nat := ((s.vt d k : Int) + clampI (nth 0 uc k) (-100) 100).toNat
/-- The effective point V_d[k] under offsets `uc` (R175). -/
def State.veffWith (s : State) (uc : List Int) (d : Nat) : Nat → Nat
  | 0 => vOffset s uc d 0
  | k + 1 => max (vOffset s uc d (k + 1)) (s.veffWith uc d k)
/-- The effective point V_d[k] in force. -/
def State.veff (s : State) (d k : Nat) : Nat := s.veffWith (s.dom d).uc d k

/-! ### Ratings (R21, R22, R28, R288) -/

/-- A working tile (R20, R21, R95). -/
def State.working (s : State) (t : Nat) : Bool := !(s.view t).lost
/-- The working tiles of a mitten. -/
def State.mworking (s : State) (m : Nat) : List Nat := ((List.range 6).map (6 * m + ·)).filter s.working
/-- The working tiles of a domain. -/
def State.dworking (s : State) (d : Nat) : List Nat := (s.dtiles d).filter s.working
/-- The continuous rating of a working tile, 10 mA (R21). -/
def State.rating (s : State) (t : Nat) : Nat := if (s.view t).phLost = 0 then 800 else 600
/-- The transient rating of a working tile, 10 mA (R21). -/
def State.ratingT (s : State) (t : Nat) : Nat := if (s.view t).phLost = 0 then 1200 else 900
/-- The continuous ceiling of a mitten by its tiles alone, 10 mA (R21, R24). -/
def State.mceil0 (s : State) (spare : Bool) (m : Nat) : Nat :=
  let w := s.mworking m
  if w.length < 3 then 0
  else (w.map s.rating).sum - (if w.length = 6 ∧ !spare then 800 else 0)
/-- The transient ceiling of a mitten by its tiles alone, 10 mA (R21). -/
def State.mceilT0 (s : State) (m : Nat) : Nat :=
  let w := s.mworking m
  if w.length < 3 then 0 else (w.map s.ratingT).sum
/-- The continuous ceiling of a mitten of domain `d`: the tiles' (R21), held to the 4-tile row while no sensor of the
domain is valid (R28) or a derate rung is in force (R288). -/
def State.mceil (s : State) (d m : Nat) : Nat :=
  let c := s.mceil0 (s.commitSpare d) m
  if (s.dom d).tempLost || (s.dom d).derate then min c 3200 else c
/-- The transient ceiling of a mitten of domain `d`. -/
def State.mceilT (s : State) (d m : Nat) : Nat :=
  let c := s.mceilT0 m
  if (s.dom d).tempLost || (s.dom d).derate then min c 4800 else c
/-- Recomputes the ceilings and ICAP of a domain (R22, R179). -/
def refreshCeil (d : Nat) (s : State) : State :=
  let c := ((s.dmittens d).map (s.mceil d)).sum
  let ct := ((s.dmittens d).map (s.mceilT d)).sum
  let p := s.polIcap d
  s.updDom d fun x => { x with ceil := c, ceilT := ct, icap := if p = 0 then c else min p c }

end Sys2Proof.Machine
end

