-- ==== Sys2Proof/Machine/Operands.lean ====
section
/-!
DEFINITION. The layouts of the words that cross the block's ports, each read or built in one place: the tile spine
(R58 to R63), the tether flits (R214 to R216).
-/

namespace Sys2Proof.Machine

/-! ### Open roundings -/

/-- A result between two codes for which the spec names no rounding: one of the two codes (log entry 4). -/
def openRound (q : Rat) : Int := if q.den = 1 then q.num else if Config.roundUp q then q.floor + 1 else q.floor

/-- A result the spec rounds to the nearest code without saying how a tie goes (log entry 4). -/
def openNearest (q : Rat) : Int :=
  let r := q - q.floor
  if r < 1 / 2 then q.floor else if 1 / 2 < r then q.floor + 1 else if Config.roundUp q then q.floor + 1 else q.floor

/-- Rounded to the nearest code, ties up. -/
def nearestUp (q : Rat) : Int := (q + 1 / 2).floor

/-! ### Downstream spine words (R58 to R60) -/

/-- The type of a downstream word (R58). -/
def dwType (w : Word) : Nat := bits w.toNat 31 28
/-- The chain position a CMD or CFG word names; 31 names every tile (R58). -/
def dwPos (w : Word) : Nat := bits w.toNat 27 23

/-- Whether a CMD or CFG word names the tile at its chain position, or every tile of the chain (R58). -/
def dwFor (t : Nat) (w : Word) : Bool := dwPos w == 31 || dwPos w == t % 24
/-- The command code of a CMD word (R58, R59). -/
def dwCode (w : Word) : Nat := bits w.toNat 22 18
/-- The parameter index of a CFG word (R58, R60). -/
def dwIndex (w : Word) : Nat := bits w.toNat 22 18
/-- The command that a CMD word carries, its argument cut to the bits that the command has; none for a reserved code (R59). -/
def cmdOf (w : Word) : Option TileWord :=
  let a := w.toNat
  match dwCode w with
  | 0x00 => some .nop
  | 0x01 => some .start
  | 0x02 => some (.ssTarget (bits a 11 0))
  | 0x03 => some (.ssGo (bits a 17 0))
  | 0x04 => some .stop
  | 0x05 => some (.shed (bits a 3 0))
  | 0x06 => some (.unshed (bits a 3 0))
  | 0x07 => some (.retirePhase (bits a 3 0))
  | 0x08 => some .retireTile
  | 0x09 => some .crowbar
  | 0x0A => some .clear
  | 0x0B => some (.setOfs (bits a 6 0))
  | 0x0C => some (.setShare (bits a 7 0))
  | 0x0D => some (.capTest (bits a 11 0))
  | _ => none

/-- The even parity of `n` bits from bit `lo`: the bit that makes their number of ones even. -/
def parity (w lo n : Nat) : Bool := (List.range n).foldl (fun p i => p != bit w (lo + i)) false
/-- What the 8 data lanes and the check lane of the downstream link carry: the lane's bit in a unit interval (R56). -/
def dwLane (w : Word) (j lane : Nat) : Bool := bit w.toNat (8 * j + lane)
/-- The check lane of a downstream word, bit j in unit interval j: the even parity of byte j (R56). -/
def dwCheck (w : Word) : BitVec 4 := BitVec.ofNat 4 (listMask ((List.range 4).filter fun j => parity w.toNat (8 * j) 8))
/-- The bit that an upstream data lane carries in a unit interval (R56). -/
def uwLane (w : BitVec 64) (j lane : Nat) : Bool := bit w.toNat (16 * j + lane)
/-- The check lane of an upstream word, bit j in unit interval j: the even parity of bits 16j+15 to 16j (R56). -/
def uwCheck (w : BitVec 64) : BitVec 4 := BitVec.ofNat 4 (listMask ((List.range 4).filter fun j => parity w.toNat (16 * j) 16))

/-- A CMD word for a chain position, 0x1F for all (R58, R59). -/
def cmdWord (pos code arg : Nat) : Word := BitVec.ofNat 32 (0x30000000 + pos % 32 * 2 ^ 23 + code % 32 * 2 ^ 18 + arg % 2 ^ 18)
/-- A CFG word (R58, R60). -/
def cfgWord (pos index code : Nat) : Word :=
  BitVec.ofNat 32 (0x40000000 + pos % 32 * 2 ^ 23 + index % 32 * 2 ^ 18 + code % 2 ^ 16 * 4)
/-- The SYNC word of the sample that starts at a tick (R58). -/
def syncWord (t : Nat) : Word := BitVec.ofNat 32 (t / 16 % 2 ^ 28)
/-- The MREF word for a mitten of the chain (R58). -/
def mrefWord (mit vref : Nat) (ff : Int) (t : Nat) : Word :=
  BitVec.ofNat 32 (0x10000000 + mit % 4 * 2 ^ 26 + vref % 4096 * 2 ^ 14 + uext 10 ff * 16 + t / 16 % 16)
/-- The MSUM word for a mitten of the chain (R58). -/
def msumWord (mit imit margin t : Nat) : Word :=
  BitVec.ofNat 32 (0x20000000 + mit % 4 * 2 ^ 26 + imit % 65536 * 2 ^ 10 + margin % 64 * 16 + t / 16 % 16)

/-- The command code and argument of a word a tile holds (R59); a CFG word has none. -/
def tileWordCode : TileWord → Nat × Nat
  | .nop => (0, 0) | .start => (1, 0) | .ssTarget c => (2, c) | .ssGo l => (3, l) | .stop => (4, 0)
  | .shed m => (5, m) | .unshed m => (6, m) | .retirePhase m => (7, m) | .retireTile => (8, 0) | .crowbar => (9, 0)
  | .clear => (10, 0) | .setOfs o => (11, o) | .setShare w => (12, w) | .capTest d => (13, d) | .cfg _ _ => (0, 0)

/-- A queued word as it travels (R58). -/
def spineWordBits (w : SpineWord) : Word :=
  let pos := if w.all then 31 else w.pos
  match w.word with
  | .cfg i c => cfgWord pos i c
  | x => cmdWord pos (tileWordCode x).1 (tileWordCode x).2

/-! ### Upstream spine words (R61 to R63) -/

/-- The TREP word (R61). -/
def trepWord (pos state : Nat) (itile : Int) (vsns active retired : Nat) (ilim droop hold lost : Bool) (seq : Nat) : BitVec 64 :=
  BitVec.ofNat 64 (8 * 2 ^ 60 + pos % 32 * 2 ^ 55 + state % 16 * 2 ^ 51 + uext 16 itile * 2 ^ 35 + vsns % 4096 * 2 ^ 23 +
    active % 16 * 2 ^ 19 + retired % 16 * 2 ^ 15 + b2n ilim * 2 ^ 14 + b2n droop * 2 ^ 13 + b2n hold * 2 ^ 12 +
    b2n lost * 2 ^ 11 + seq % 16)

/-- The EVENT word (R62). -/
def eventWord (pos code tick data : Nat) : BitVec 64 :=
  BitVec.ofNat 64 (9 * 2 ^ 60 + pos % 32 * 2 ^ 55 + code % 128 * 2 ^ 48 + tick % 65536 * 2 ^ 32 + data % 2 ^ 32)

/-- The type of an upstream word (R61, R62). -/
def uwType (w : BitVec 64) : Nat := bits w.toNat 63 60
/-- The chain position of an upstream word (R61, R62). -/
def uwPos (w : BitVec 64) : Nat := bits w.toNat 59 55

/-! ### Parameters (R39, R46, R47, R60) -/

/-- The nearest code in a range, signed for ILIM_NEG only. -/
def clampNat (x lo hi : Nat) : Nat := max lo (min x hi)

/-- Whether a parameter index is in use (R60). -/
def parIndex (k : Nat) : Bool := k < 14 || (16 ≤ k && k < 24)

/-- The inclusive range of a parameter code (R39, R46, R47); ILIM_NEG is signed. -/
def parRange : Nat → Int × Int
  | 0 => (4, 32) | 1 => (256, 480) | 2 => (2, 15) | 3 => (0, 255) | 4 => (0, 255) | 5 => (0, 255) | 6 => (0, 255)
  | 7 => (0, 255) | 8 => (0, 127) | 9 => (0, 255) | 10 => (0, 63) | 11 => (0, 255) | 12 => (0, 15) | 13 => (5, 60)
  | 16 => (20, 80) | 17 => (-60, -10) | 18 => (200, 300) | 19 => (100, 200) | 20 => (16, 156) | 21 => (50, 150)
  | 22 => (5, 40) | 23 => (50, 800) | _ => (0, 0)

/-- A 2-byte parameter code as a number: two's complement for ILIM_NEG (R60). -/
def parValue (k code : Nat) : Int := if k = 17 then sext 16 code else (code % 65536 : Nat)

/-- One parameter of a record set to a number (R60). -/
def TilePar.put (p : TilePar) (k : Nat) (v : Int) : TilePar :=
  let n := v.toNat
  match k with
  | 0 => { p with dMin := n } | 1 => { p with dMax := n } | 2 => { p with dt := n } | 3 => { p with kp := n }
  | 4 => { p with ki := n } | 5 => { p with intLim := n } | 6 => { p with corrLim := n } | 7 => { p with ks := n }
  | 8 => { p with sLim := n } | 9 => { p with kb := n } | 10 => { p with bLim := n } | 11 => { p with droopBoost := n }
  | 12 => { p with droopHold := n } | 13 => { p with droopMargin := n } | 16 => { p with ilimPk := n }
  | 17 => { p with ilimNeg := v } | 18 => { p with ilimTrans := n } | 19 => { p with ilimCont := n }
  | 20 => { p with tlim := n } | 21 => { p with ovRel := n } | 22 => { p with openTh := n } | 23 => { p with shedRise := n }
  | _ => p

/-- One parameter of a record (R60). -/
def TilePar.get (p : TilePar) : Nat → Int
  | 0 => p.dMin | 1 => p.dMax | 2 => p.dt | 3 => p.kp | 4 => p.ki | 5 => p.intLim | 6 => p.corrLim | 7 => p.ks
  | 8 => p.sLim | 9 => p.kb | 10 => p.bLim | 11 => p.droopBoost | 12 => p.droopHold | 13 => p.droopMargin
  | 16 => p.ilimPk | 17 => p.ilimNeg | 18 => p.ilimTrans | 19 => p.ilimCont | 20 => p.tlim | 21 => p.ovRel
  | 22 => p.openTh | 23 => p.shedRise | _ => 0

/-- The parameter indexes in use (R60). -/
def parIndexes : List Nat := (List.range 24).filter parIndex

/-- A CFG word takes effect: a code outside the range takes the nearer end, a reserved index is ignored (R60). -/
def TilePar.cfg (p : TilePar) (k code : Nat) : TilePar :=
  if parIndex k then p.put k (clampI (parValue k code) (parRange k).1 (parRange k).2) else p

/-! ### Codes of the tile events (R63) -/

/-- DATA of PRECHARGE_DONE. -/
def lWord (x : Tile) : Nat := x.p0.lCode + 256 * x.p1.lCode + 65536 * x.p2.lCode + 16777216 * x.p3.lCode

/-! ### Checks over bits -/

/-- The `n` low bits of a number, most significant first. -/
def bitsMsb (n w : Nat) : List Bool := (List.range n).map fun i => bit w (n - 1 - i)

/-- The low `n` bytes of a number, least significant first. -/
def leBytes (n w : Nat) : List (BitVec 8) := (List.range n).map fun i => BitVec.ofNat 8 (w / 2 ^ (8 * i))

/-- One bit of a CRC whose register shifts left. -/
def crcStep (width poly : Nat) (c : Nat) (b : Bool) : Nat :=
  let out := bit c (width - 1) != b
  let c := c * 2 % 2 ^ width
  if out then c ^^^ poly else c

/-- CRC-16 of R215: polynomial 0x1021, initial 0xFFFF, most significant bit first. -/
def crc16 (l : List Bool) : Nat := l.foldl (crcStep 16 0x1021) 0xFFFF

/-! ### Tether flits (R214 to R216) -/

/-- A field of a flit. -/
def fbits (f : Flit) (hi lo : Nat) : Nat := bits f.toNat hi lo
/-- KIND (R214). -/
def fKind (f : Flit) : Nat := fbits f 127 123
/-- CLASS (R214). -/
def fClass (f : Flit) : Nat := fbits f 122 121
/-- SRC (R214). -/
def fSrc (f : Flit) : Nat := fbits f 120 118
/-- DST (R214). -/
def fDst (f : Flit) : Nat := fbits f 117 115
/-- BC (R214). -/
def fBc (f : Flit) : Bool := bit f.toNat 114
/-- HOPS (R214). -/
def fHops (f : Flit) : Nat := fbits f 113 111
/-- SEQ (R214). -/
def fSeq (f : Flit) : Nat := fbits f 110 105

/-- The CRC of a flit: bits 127 to 16 with HOPS taken as 0 (R215). -/
def flitCrc (f : Flit) : Nat :=
  let w := f.toNat
  crc16 (bitsMsb 112 ((w - fHops f * 2 ^ 111) / 65536))

/-- Whether a flit's CRC agrees (R215). -/
def flitOk (f : Flit) : Bool := fbits f 15 0 == flitCrc f

/-- A flit as its source sends it (R214); `pay` holds the payload in its own bit places. -/
def mkFlit (kind cls src dst : Nat) (bc : Bool) (seq pay : Nat) : Flit :=
  let body : Flit := BitVec.ofNat 128 (kind % 32 * 2 ^ 123 + cls % 4 * 2 ^ 121 + src % 8 * 2 ^ 118 +
    (if bc then 2 ^ 114 else dst % 8 * 2 ^ 115) + seq % 64 * 2 ^ 105 + pay % 2 ^ 105 / 65536 * 65536)
  BitVec.ofNat 128 (body.toNat + flitCrc body)

/-- A flit with another SEQ. -/
def flitWithSeq (f : Flit) (seq : Nat) : Flit :=
  mkFlit (fKind f) (fClass f) (fSrc f) (fDst f) (fBc f) seq (f.toNat % 2 ^ 105)

end Sys2Proof.Machine
end

