-- ==== Sys2Proof/Machine/Send.lean ====
section
/-!
DEFINITION. Sending, repeating and receiving flits on the tether (R208, R210, R211, R213, R214, R217, R218, R230 to R232, R236,
R359). What an instance originates is noted in `tth.out` and handed to the outgoing links, which carry one flit in each flit
time, IDLE where there is none; an entry with rings 0 is what the manager part and its own worker part exchange without the
rings (R208).
-/

namespace Sys2Proof.Machine

/-! ### The links (R210, R211, R213) -/

/-- The IDLE flit (R216; its unlisted fields 0, log entry 75). -/
def idleFlit : Flit := mkFlit 0 0 0 0 false 0 0

/-- The bit of a flit on lane `i` of a ring link in unit interval `j` (R210). -/
def laneBit (f : Flit) (j i : Nat) : Bool := bit f.toNat (120 - 8 * j + i)

/-- The bit of a flit on lane `i` of the off-die port in unit interval `j` (R236). -/
def xtLaneBit (f : Flit) (j i : Nat) : Bool := bit f.toNat (127 - 2 * j - i)

/-- The outgoing link of a ring. -/
def State.link (s : State) : Ring → Link
  | .one => s.tth.link1
  | .two => s.tth.link2

/-- Changes the outgoing link of a ring. -/
def State.updLink (s : State) (r : Ring) (f : Link → Link) : State :=
  s.updTth fun t => match r with | .one => { t with link1 := f t.link1 } | .two => { t with link2 := f t.link2 }

/-- What lane `i` of a ring's outgoing link carries in unit interval `j` of the flit time (R210). -/
def State.laneOut (s : State) (r : Ring) (j i : Nat) : Bool := laneBit ((s.link r).now.getD idleFlit) j i

/-- What a lane of the off-die port carries; a worker drives it low (R236). -/
def State.txLane (s : State) (j i : Nat) : Bool := s.inst.manager && xtLaneBit (s.tth.xtNow.getD idleFlit) j i

/-- Takes the first entry that satisfies a test out of a list. -/
def takeFirst {α : Type} (ok : α → Bool) : List α → Option (α × List α)
  | [] => none
  | a :: l => if ok a then some (a, l) else (takeFirst ok l).map fun (b, m) => (b, a :: m)

/-- Puts a flit on the link in place of an IDLE: a displaced flit comes first, then an own one; of TRACE at most one in 272 flit
times (R213). -/
def Link.insert (ok : Flit → Bool) (now : Nat) (l : Link) : Link :=
  let may (f : Flit) : Bool := ok f && (fKind f != 0x1B || l.traceAt.all fun t => t + 544 ≤ now)
  match takeFirst ok l.held, takeFirst may l.own with
  | some (f, r), _ => { l with now := some f, held := r }
  | none, some (f, r) => { l with now := some f, own := r, traceAt := if fKind f = 0x1B then some now else l.traceAt }
  | none, none => { l with now := none }

/-- One flit time of a link (R211, R213): a flit to repeat passes, and a class 0 flit of the manager takes its place unless it is
of class 0 itself; with nothing to repeat an own flit replaces the IDLE. `ok` tells which flits may leave. -/
def Link.step (ok : Flit → Bool) (now : Nat) (l : Link) : Link :=
  match takeFirst ok l.rep, takeFirst ok l.top with
  | some (p, r), some (u, t) =>
    if fClass p = 0 then { l with now := some p, rep := r } else { l with now := some u, rep := r, top := t, held := l.held ++ [p] }
  | some (p, r), none => { l with now := some p, rep := r }
  | none, some (u, t) => { l with now := some u, top := t }
  | none, none => l.insert ok now

/-- Whether a flit may leave: while the ports are stopped only THAW and COOL_STOP (R351). -/
def State.mayLeave (s : State) (f : Flit) : Bool := !s.obs.frozen || fKind f == 0x05 || fKind f == 0x07

/-- Notes an own flit that goes onto a link: its resend limit counts from here, and so does the limit of a worker's digest from its
last SECT flit (R218, R223). -/
def State.noteLeft (s : State) (now : Option Flit) : State :=
  match now with
  | none => s
  | some f =>
    if fSrc f ≠ s.inst.fieldId then s
    else
      let s := s.updTth fun t => { t with slots := t.slots.map fun x => if x.word = f then { x with sentAt := s.time } else x }
      if fKind f = 0x19 ∧ s.inst.manager then
        let to_ (m : Manager) : List Nat := if fBc f then m.roster else [fDst f]
        s.updMgr fun m => { m with lastSect := (to_ m).foldl (fun l w => tset 0 l w s.time) m.lastSect }
      else s

/-- The flit time of one ring's link. -/
def State.stepLink (s : State) (r : Ring) : State :=
  let s := s.updLink r fun l => l.step s.mayLeave s.time
  s.noteLeft (s.link r).now

/-- A flit time begins at every even tick: what the commands of that tick have handed over leaves with it (R211). One of the
off-die port lasts 8 ticks (R236). -/
def State.linkTick (s : State) : State :=
  let s := if s.time % 2 = 0 then (s.stepLink .one).stepLink .two else s
  if s.time % 8 = 0 then s.updTth fun t => { t with xtNow := t.xtQ.head?, xtQ := t.xtQ.tail } else s

/-! ### Rings and positions -/

/-- Whether both rings are taken as down (R232). -/
def State.lineMode (s : State) : Bool := s.tth.ring1Down && s.tth.ring2Down

/-- The FIELD_ID of the manager: its own, or the one its TRAIN flit carried (R219). -/
def State.mgrId (s : State) : Option Nat :=
  if s.inst.manager then some s.inst.fieldId else (s.tth.seen.find? fun e => e.2.1).map (·.1)

/-- The ring position of a field (R209). -/
def State.posOf (s : State) (fld : Nat) : Nat :=
  if fld = s.inst.fieldId then s.tth.pos
  else if some fld = s.mgrId then 0 else s.mgr.roster.findIdx (· == fld)

/-- The ring with fewer hops to a field, ring 1 on a tie (R213). -/
def State.nearRing (s : State) (dst : Nat) : Nat :=
  let n := s.tth.n
  let h := (s.posOf dst + n - s.tth.pos) % (max n 1)
  if h ≤ n - h then 1 else 2

/-- The rings a flit of a class takes: 1, 2, both 3; 0 none (R213, R231, R232). -/
def State.ringsFor (s : State) (cls dst : Nat) (bc : Bool) : Nat :=
  if s.lineMode then (if cls = 3 then 0 else 3)
  else if s.tth.ring1Down then 2
  else if s.tth.ring2Down then 1
  else match cls with
    | 0 => 3
    | 1 => if bc then 1 else s.nearRing dst
    | 2 => 1
    | _ => 2

/-- The rings a waiting flit takes now: TRAIN, TIME and LINK_DOWN keep theirs, and so does what leaves by another port; the others
follow the rings' state (R219, R226, R230 to R232). -/
def State.ringsNow (s : State) (w : OutFlit) : Nat :=
  if 4 ≤ w.rings ∨ fKind w.word = 0x01 ∨ fKind w.word = 0x02 ∨ fKind w.word = 0x0A then w.rings
  else s.ringsFor (fClass w.word) (fDst w.word) (fBc w.word)

/-- How many resend slots of a ring are in use (R359). -/
def State.slotsUsed (s : State) (ring : Nat) : Nat := (s.tth.slots.filter (·.ring == ring)).length

/-- Whether a SEQ may be used again: not within 256 ticks of its last use (R217). -/
def State.seqFree (s : State) (seq : Nat) : Bool :=
  let u := tget 0 s.tth.seqUse seq
  u == 0 || u + 255 < s.time + 1

/-- Whether a flit must be kept for resending: class 1 or 2 in ring mode, LINK_DOWN apart (R218, R230). -/
def State.keeps (s : State) (f : Flit) : Bool := (fClass f == 1 || fClass f == 2) && !s.lineMode && fKind f != 0x0A

/-- Whether the next SEQ and a resend slot are free for a flit (R217, R359). While the ports are stopped only THAW and
COOL_STOP leave (R351). -/
def State.canSend (s : State) (rings : Nat) (f : Flit) : Bool :=
  s.seqFree s.tth.seq && (!s.keeps f || s.slotsUsed rings < 32) && (!s.obs.frozen || fKind f == 0x05 || fKind f == 0x07)

/-- Hands a flit to the outgoing links of rings: 1, 2, both 3, the off-die port 4, port B 5, port A 6. -/
def State.toLinks (s : State) (rings : Nat) (f : Flit) : State :=
  let put (l : Link) : Link := if fClass f = 0 ∧ fKind f ≠ 0x09 then { l with top := l.top ++ [f] } else { l with own := l.own ++ [f] }
  if rings = 4 then s.updTth fun t => { t with xtQ := t.xtQ ++ [f] }
  else
    let s := if rings = 1 ∨ rings = 3 ∨ rings = 5 then s.updLink .one put else s
    if rings = 2 ∨ rings = 3 ∨ rings = 6 then s.updLink .two put else s

/-- Notes a flit as originated and hands it to the links. -/
def State.putOut (s : State) (rings : Nat) (f : Flit) : State :=
  (s.updTth fun t => { t with out := t.out ++ [{ rings := rings, word := f }] }).toLinks rings f

/-- The manager's TIME on one ring, sent at this tick's flit time (R216, R226). -/
def State.timeFlit (s : State) (seq ring rev : Nat) : Flit :=
  mkFlit 0x02 0 s.inst.fieldId 0 true seq ((s.time + s.time % 2) % 2 ^ 64 * 2 ^ 41 + (ring - 1) * 2 ^ 36 + rev % 256 * 2 ^ 28)

/-- Hands one flit to the links with the next SEQ and keeps it where it must be kept; the two copies of TIME differ (R217, R218,
R226). -/
def State.emitFlit (s : State) (rings : Nat) (f : Flit) : State :=
  let q := s.tth.seq
  let g := flitWithSeq f q
  let s := s.updTth fun t => { t with
    seq := (t.seq + 1) % 64, seqUse := tset 0 t.seqUse t.seq (s.time + 1)
    slots := if s.keeps f then t.slots ++ [{ word := g, ring := rings, sentAt := s.time }] else t.slots }
  if fKind f = 0x02 then
    ((s.putOut 1 (s.timeFlit q 1 s.tth.rev1)).putOut 2 (s.timeFlit q 2 s.tth.rev2)).updTth fun t => { t with
      timeSent1 := 16 * (s.time + s.time % 2) }
  else s.putOut rings g

/-- Sends a flit on given rings, or lets it wait behind those that wait; a class 0 flit waits behind class 0 only (R213, R217,
R359). -/
def State.sendOn (s : State) (rings : Nat) (f : Flit) : State :=
  let zero (w : OutFlit) : Bool := fClass w.word == 0
  if rings = 0 then s
  else if fClass f = 0 then
    if (s.tth.wait.filter zero).isEmpty && s.canSend rings f then s.emitFlit rings f
    else s.updTth fun t => { t with wait := t.wait.filter zero ++ [{ rings := rings, word := f }] ++ t.wait.filter fun w => !zero w }
  else if s.tth.wait.isEmpty && s.canSend rings f then s.emitFlit rings f
  else s.updTth fun t => { t with wait := t.wait ++ [{ rings := rings, word := f }] }

/-- Sends one waiting flit, when it can leave, on the rings of now (R231, R232). -/
def State.drainOne (s : State) : State :=
  match s.tth.wait with
  | [] => s
  | w :: r =>
    let k := s.ringsNow w
    if k = 0 then s.updTth fun t => { t with wait := r }
    else if s.canSend k w.word then (s.updTth fun t => { t with wait := r }).emitFlit k w.word else s

/-- Hands a flit to the manager part or the worker part of the same instance (R208). -/
def State.sendInternal (s : State) (f : Flit) : State :=
  s.updTth fun t => { t with out := t.out ++ [{ rings := 0, word := f }] }

/-- A unicast flit; to its own field it goes internally (R208, R213). -/
def State.unicast (s : State) (kind cls dst pay : Nat) : State :=
  let f := mkFlit kind cls s.inst.fieldId dst false 0 pay
  if dst = s.inst.fieldId then s.sendInternal f else s.sendOn (s.ringsFor cls dst false) f

/-- A unicast flit to the manager. -/
def State.toManager (s : State) (kind cls pay : Nat) : State :=
  match s.mgrId with
  | some m => s.unicast kind cls m pay
  | none => s

/-- A broadcast flit (R213). -/
def State.broadcast (s : State) (kind cls pay : Nat) : State :=
  s.sendOn (s.ringsFor cls 0 true) (mkFlit kind cls s.inst.fieldId 0 true 0 pay)

/-- A broadcast flit whose copy for the manager's own worker part goes internally (R208). -/
def State.broadcastAll (s : State) (kind cls pay : Nat) : State :=
  (s.broadcast kind cls pay).sendInternal (mkFlit kind cls s.inst.fieldId 0 true 0 pay)

/-- A broadcast on both rings as one flit with one SEQ (R230). -/
def State.broadcastBoth (s : State) (kind cls pay : Nat) : State :=
  s.sendOn 3 (mkFlit kind cls s.inst.fieldId 0 true 0 pay)

/-- A flit on the off-die port: HOPS and BC 0, SRC and DST the FIELD_IDs of the two managers; until the partner has named itself,
the own one stands for its (R236; log entry 16). -/
def State.sendXt (s : State) (kind pay : Nat) : State :=
  s.sendOn 4 (mkFlit kind 0 s.inst.fieldId (s.mgr.xtPeer.getD s.inst.fieldId) false 0 pay)

/-- The low 32 bits of a tick at bit `lo`. -/
def t32 (t lo : Nat) : Nat := t % 2 ^ 32 * 2 ^ lo
/-- The 64 bits of a tick at bit `lo`. -/
def t64 (t lo : Nat) : Nat := t % 2 ^ 64 * 2 ^ lo

/-! ### Receiving -/

/-- Whether a SEQ of a source was accepted within the last 256 ticks (R217). -/
def State.isDup (s : State) (f : Flit) : Bool :=
  s.tth.recent.any fun (a, b, t) => a == fSrc f && b == fSeq f && s.time < t + 256

/-- Whether the instance accepts a flit of a kind (R214, R215, R217). A flit of its own source is one that the two parts
of the manager exchange (R208). -/
def State.accepts (s : State) (kind : Nat) (f : Flit) : Bool :=
  !s.inst.inReset && s.inst.pll && flitOk f && fKind f == kind && (fBc f || fDst f == s.inst.fieldId) &&
    (fClass f != 0 || some (fSrc f) == s.mgrId) &&
    (if fSrc f = s.inst.fieldId then s.inst.manager else !s.isDup f)

/-- Notes an accepted flit for the duplicate check (R217). -/
def State.noteFlit (s : State) (f : Flit) : State :=
  if fSrc f = s.inst.fieldId then s
  else s.updTth fun t => { t with recent := (fSrc f, fSeq f, s.time) :: t.recent.filter fun e => s.time < e.2.2 + 256 }

/-- The repeats after which a flit is removed: n − 1, or 7 before the roster is known (R214). -/
def State.hopLimit (s : State) : Nat := if s.tth.trained then s.tth.n - 1 else 7

/-- Whether an instance repeats a flit (R211, R214, R215): not one of its own, nor one for itself alone, nor one at its last
repeat, nor a class 0 flit of another source than the manager. -/
def State.repeats (s : State) (f : Flit) : Bool :=
  !s.inst.inReset && s.inst.pll && flitOk f && fSrc f != s.inst.fieldId && fHops f < s.hopLimit &&
    (fBc f || fDst f != s.inst.fieldId) && (fClass f != 0 || some (fSrc f) == s.mgrId) && fKind f != 0 && fKind f != 0x09

/-- A flit with one more repeat; its CRC takes HOPS as 0 (R214, R215). -/
def flitHop (f : Flit) : Flit := BitVec.ofNat 128 (f.toNat + 2 ^ 111)

/-- A flit that comes in on a ring shows that its link works again once it has been trained, and is repeated onto the same ring
(R211, R214, R231). What the manager's two parts exchange has the own source and comes in on no ring (R208). -/
def State.passOn (s : State) (r : Ring) (f : Flit) : State :=
  let s := if s.tth.retrained ∧ flitOk f ∧ fSrc f ≠ s.inst.fieldId then
      s.updTth fun t => match r with | .one => { t with linkA := false } | .two => { t with linkB := false }
    else s
  if s.repeats f then s.updLink r fun l => { l with rep := l.rep ++ [flitHop f] } else s

/-- Captures a flit at its port while the tether ports are stopped: 8 at each port, further ones are discarded with
CAPOVF (R353). -/
def State.captureFlit (s : State) (r : Ring) (c : Instr) : State :=
  let one := r == .one
  if (if one then s.tth.capA else s.tth.capB).length < 8 then
    let s := s.updObs fun o => { o with capt := min 255 (o.capt + 1) }
    s.updTth fun t => if one then { t with capA := t.capA ++ [(s.time, c)] } else { t with capB := t.capB ++ [(s.time, c)] }
  else s.updObs fun o => { o with capOvf := true }

/-- Receives a flit of a kind on a ring: it is repeated where it must be, and what is not accepted is not acted on; while frozen
every flit but THAW and COOL_STOP is captured (R211, R214, R353). -/
def State.recv (s : State) (kind : Nat) (r : Ring) (f : Flit) (c : Instr) (act : State → State) : Out :=
  if s.obs.frozen && kind != 0x05 && kind != 0x07 then .next (s.captureFlit r c)
  else
    let t := s.passOn r f
    if t.accepts kind f then .next (act (t.noteFlit f)) else .next t

end Sys2Proof.Machine
end

