-- ==== Sys2Proof/Machine/Flags.lean ====
section
/-!
DEFINITION. Raising faults (R276 to R285, R424), the flags of the block: the class table, sources, the history queue, the
event buffer that each raise also enters (R325 to R327), open occurrences, FAULT_N and the freeze trigger (R350).
-/

namespace Sys2Proof.Machine

/-! ### Class codes (R278) -/

/-- OUT_SHORT (R278). -/
abbrev cOutShort : Nat := 0x01
/-- OV_CROWBAR (R278). -/
abbrev cOvCrowbar : Nat := 0x02
/-- OPEN_PHASE (R278). -/
abbrev cOpenPhase : Nat := 0x03
/-- L_WINDOW (R278). -/
abbrev cLWindow : Nat := 0x04
/-- PHASE_MAP (R278). -/
abbrev cPhaseMap : Nat := 0x05
/-- TILE_LOST (R278). -/
abbrev cTileLost : Nat := 0x06
/-- ILIM_HOLD (R278). -/
abbrev cIlimHold : Nat := 0x07
/-- VSNS_OPEN (R278). -/
abbrev cVsnsOpen : Nat := 0x08
/-- VIN_UV (R278). -/
abbrev cVinUv : Nat := 0x09
/-- VIN_OV (R278). -/
abbrev cVinOv : Nat := 0x0A
/-- VIN_REV (R278). -/
abbrev cVinRev : Nat := 0x0B
/-- VIN_RANGE (R278). -/
abbrev cVinRange : Nat := 0x0C
/-- SHED_REVERSED (R278). -/
abbrev cShedReversed : Nat := 0x0D
/-- SHED_REFUSED (R278). -/
abbrev cShedRefused : Nat := 0x0E
/-- CLEAR_REFUSED (R278). -/
abbrev cClearRefused : Nat := 0x0F
/-- CAP_WINDOW (R278). -/
abbrev cCapWindow : Nat := 0x10
/-- SPINE_ERR (R278). -/
abbrev cSpineErr : Nat := 0x11
/-- MITTEN_DARK (R278). -/
abbrev cMittenDark : Nat := 0x12
/-- SENSE_TRUST (R278). -/
abbrev cSenseTrust : Nat := 0x20
/-- SENSE_MITTEN_LOST (R278). -/
abbrev cSenseMittenLost : Nat := 0x21
/-- SENSE_DOMAIN_LOST (R278). -/
abbrev cSenseDomainLost : Nat := 0x22
/-- TGT_CLAMP (R278). -/
abbrev cTgtClamp : Nat := 0x23
/-- BALLAST_CLAMP (R278). -/
abbrev cBallastClamp : Nat := 0x24
/-- DOM_SAT (R278). -/
abbrev cDomSat : Nat := 0x25
/-- DOM_SAT_PERSIST (R278). -/
abbrev cDomSatPersist : Nat := 0x26
/-- SHED_BLOCKED (R278). -/
abbrev cShedBlocked : Nat := 0x27
/-- REDIST_SLOW (R278). -/
abbrev cRedistSlow : Nat := 0x28
/-- SHARE_OSC (R278). -/
abbrev cShareOsc : Nat := 0x29
/-- DOM_TEMP_LOST (R278). -/
abbrev cDomTempLost : Nat := 0x2A
/-- TKT_PORT_ERR (R278). -/
abbrev cTktPortErr : Nat := 0x30
/-- TKT_EXPIRED (R278). -/
abbrev cTktExpired : Nat := 0x31
/-- BALLAST_MISMATCH (R278). -/
abbrev cBallastMismatch : Nat := 0x32
/-- SG_THROTTLED (R278). -/
abbrev cSgThrottled : Nat := 0x33
/-- SG_FAIL (R278). -/
abbrev cSgFail : Nat := 0x34
/-- SG_SPLIT (R278). -/
abbrev cSgSplit : Nat := 0x35
/-- TKT_VERSION (R278). -/
abbrev cTktVersion : Nat := 0x36
/-- ENG_DESC (R278). -/
abbrev cEngDesc : Nat := 0x40
/-- ENG_NAN (R278). -/
abbrev cEngNan : Nat := 0x41
/-- ENG_BUDGET_DL (R278). -/
abbrev cEngBudgetDl : Nat := 0x42
/-- ENG_FCST_LATE (R278). -/
abbrev cEngFcstLate : Nat := 0x43
/-- ENG_ATTR_LATE (R278). -/
abbrev cEngAttrLate : Nat := 0x44
/-- ENG_PAGE_CHK (R278). -/
abbrev cEngPageChk : Nat := 0x45
/-- ENG_PAGE_RELOAD_FAIL (R278). -/
abbrev cEngPageReloadFail : Nat := 0x46
/-- ENG_ARRAY_RETIRED (R278). -/
abbrev cEngArrayRetired : Nat := 0x47
/-- DOM_ICAP (R278). -/
abbrev cDomIcap : Nat := 0x50
/-- IIN_OVER (R278). -/
abbrev cIinOver : Nat := 0x51
/-- CL_MARGIN_LOW (R278). -/
abbrev cClMarginLow : Nat := 0x52
/-- CAP_FLOOR (R278). -/
abbrev cCapFloor : Nat := 0x53
/-- CAP_FLOOR_END (R278). -/
abbrev cCapFloorEnd : Nat := 0x54
/-- NRG_JOB_FULL (R278). -/
abbrev cNrgJobFull : Nat := 0x55
/-- ATTR_RESIDUAL (R278). -/
abbrev cAttrResidual : Nat := 0x56
/-- THERM_SENSOR (R278). -/
abbrev cThermSensor : Nat := 0x60
/-- THERM_HIGH (R278). -/
abbrev cThermHigh : Nat := 0x61
/-- THERM_RISE (R278). -/
abbrev cThermRise : Nat := 0x62
/-- THERM_LOW (R278). -/
abbrev cThermLow : Nat := 0x63
/-- THERM_CRIT (R278). -/
abbrev cThermCrit : Nat := 0x64
/-- THERM_TRIP (R278). -/
abbrev cThermTrip : Nat := 0x65
/-- COOL_LOSS (R278). -/
abbrev cCoolLoss : Nat := 0x66
/-- PWR_FAIL (R278). -/
abbrev cPwrFail : Nat := 0x67
/-- TTH_UNDELIVERED (R278). -/
abbrev cTthUndelivered : Nat := 0x70
/-- TTH_ROLE (R278). -/
abbrev cTthRole : Nat := 0x71
/-- TTH_ROSTER (R278). -/
abbrev cTthRoster : Nat := 0x72
/-- TTH_HASH (R278). -/
abbrev cTthHash : Nat := 0x73
/-- TTH_DISPUTE (R278). -/
abbrev cTthDispute : Nat := 0x74
/-- TTH_TIME_INVALID (R278). -/
abbrev cTthTimeInvalid : Nat := 0x75
/-- TTH_TIME_STEP (R278). -/
abbrev cTthTimeStep : Nat := 0x76
/-- TTH_LINK_DOWN (R278). -/
abbrev cTthLinkDown : Nat := 0x77
/-- TTH_LINE_MODE (R278). -/
abbrev cTthLineMode : Nat := 0x78
/-- TTH_MGR_LOST (R278). -/
abbrev cTthMgrLost : Nat := 0x79
/-- TTH_WORKER_LOST (R278). -/
abbrev cTthWorkerLost : Nat := 0x7A
/-- TTH_FIELD_ID (R278). -/
abbrev cTthFieldId : Nat := 0x7B
/-- TTH_VERSION (R278). -/
abbrev cTthVersion : Nat := 0x7C
/-- XT_TIME (R278). -/
abbrev cXtTime : Nat := 0x7D
/-- XT_ROLE (R278). -/
abbrev cXtRole : Nat := 0x7E
/-- XT_LINK_DOWN (R278). -/
abbrev cXtLinkDown : Nat := 0x7F
/-- FUSE_CRC (R278). -/
abbrev cFuseCrc : Nat := 0x80
/-- IMG_BAD (R278). -/
abbrev cImgBad : Nat := 0x81
/-- UCAL_LAW_IGNORED (R278). -/
abbrev cUcalLawIgnored : Nat := 0x82
/-- BRING_WINDOW (R278). -/
abbrev cBringWindow : Nat := 0x83
/-- BRIDLE_HOLD (R278). -/
abbrev cBridleHold : Nat := 0x84
/-- BRIDLE_FAIL (R278). -/
abbrev cBridleFail : Nat := 0x85
/-- NO_VERDICT (R278). -/
abbrev cNoVerdict : Nat := 0x86
/-- HK_RANGE (R278). -/
abbrev cHkRange : Nat := 0x90
/-- HK_THERM_REV (R278). -/
abbrev cHkThermRev : Nat := 0x91
/-- PMB_NACK (R278). -/
abbrev cPmbNack : Nat := 0x92
/-- PMB_ADDR_CLASH (R278). -/
abbrev cPmbAddrClash : Nat := 0x93
/-- PMB_ALERT (R278). -/
abbrev cPmbAlert : Nat := 0x94
/-- PMB_CONV_FAULT (R278). -/
abbrev cPmbConvFault : Nat := 0x95
/-- LOG_LOST (R278). -/
abbrev cLogLost : Nat := 0xA0
/-- LOG_DEFERRED (R278). -/
abbrev cLogDeferred : Nat := 0xA1
/-- LOG_WRITE_FAIL (R278). -/
abbrev cLogWriteFail : Nat := 0xA2
/-- OBS_CUT_INCOMPLETE (R278). -/
abbrev cObsCutIncomplete : Nat := 0xA3
/-- TRACE_DROP (R278). -/
abbrev cTraceDrop : Nat := 0xA4
/-- LOCKSTEP (R278). -/
abbrev cLockstep : Nat := 0xB0
/-- PLL_HOLDOVER (R278). -/
abbrev cPllHoldover : Nat := 0xB1
/-- PLL_RELOCK (R278). -/
abbrev cPllRelock : Nat := 0xB2
/-- GROUNDED_ENTRY (R278). -/
abbrev cGroundedEntry : Nat := 0xB3
/-- ESC_RUNG (R278). -/
abbrev cEscRung : Nat := 0xB4
/-- HOST_PRIV (R278). -/
abbrev cHostPriv : Nat := 0xB5
/-- GROUNDED_EXIT (R278). -/
abbrev cGroundedExit : Nat := 0xB6

/-- The severity of a class: 0 NOTE, 1 WARN, 2 ERROR, 3 FATAL (R276, R278). -/
def faultSev (c : Nat) : Nat :=
  if [0x03, 0x04, 0x05, 0x06, 0x08, 0x0C, 0x21, 0x22, 0x25, 0x28, 0x29, 0x34, 0x35, 0x36, 0x41, 0x42, 0x45, 0x50, 0x51, 0x53, 0x61, 0x63, 0x67, 0x75, 0x77, 0x7D, 0x7E, 0x7F, 0x84, 0x90, 0x91, 0x92, 0xA0, 0xB1].contains c then 1
  else if [0x01, 0x02, 0x09, 0x0A, 0x0B, 0x10, 0x12, 0x26, 0x2A, 0x40, 0x46, 0x47, 0x64, 0x66, 0x72, 0x73, 0x78, 0x79, 0x7A, 0x7B, 0x7C, 0x81, 0x83, 0x85, 0x86, 0x93, 0x95, 0xA2, 0xB3].contains c then 2
  else if [0x65, 0x71, 0x80, 0xB0].contains c then 3
  else 0

/-- The default timer in frames and the rungs of a class (R278, R287, R288): 1 derate, 2 domain off, 3 GROUNDED, 4 die
stop. -/
def faultEsc : Nat → Nat × List Nat
  | 0x01 => (976563, [2, 3])
  | 0x02 => (977, [3])
  | 0x08 => (97657, [1])
  | 0x26 => (9766, [1, 2, 3])
  | 0x29 => (97657, [1])
  | 0x2A => (976563, [2])
  | 0x40 => (9766, [3])
  | 0x42 => (97657, [1, 3])
  | 0x46 => (97657, [1, 3])
  | 0x64 => (976563, [3, 4])
  | 0x95 => (97657, [4])
  | _ => (0, [])

/-- The classes of R278. -/
def faultClasses : List Nat :=
  [0x01, 0x02, 0x03, 0x04, 0x05, 0x06, 0x07, 0x08, 0x09, 0x0A, 0x0B, 0x0C, 0x0D, 0x0E, 0x0F, 0x10] ++
  [0x11, 0x12, 0x20, 0x21, 0x22, 0x23, 0x24, 0x25, 0x26, 0x27, 0x28, 0x29, 0x2A, 0x30, 0x31, 0x32] ++
  [0x33, 0x34, 0x35, 0x36, 0x40, 0x41, 0x42, 0x43, 0x44, 0x45, 0x46, 0x47, 0x50, 0x51, 0x52, 0x53] ++
  [0x54, 0x55, 0x56, 0x60, 0x61, 0x62, 0x63, 0x64, 0x65, 0x66, 0x67, 0x70, 0x71, 0x72, 0x73, 0x74] ++
  [0x75, 0x76, 0x77, 0x78, 0x79, 0x7A, 0x7B, 0x7C, 0x7D, 0x7E, 0x7F, 0x80, 0x81, 0x82, 0x83, 0x84] ++
  [0x85, 0x86, 0x90, 0x91, 0x92, 0x93, 0x94, 0x95, 0xA0, 0xA1, 0xA2, 0xA3, 0xA4, 0xB0, 0xB1, 0xB2] ++
  [0xB3, 0xB4, 0xB5, 0xB6]

/-- Whether a class is of die scope (X of R278). -/
def dieScope (c : Nat) : Bool :=
  [0x33, 0x34, 0x35, 0x53, 0x54, 0x55, 0x56, 0x72, 0x74, 0x78, 0x7A, 0x7D, 0x7E, 0x7F, 0x81, 0xA3].contains c

/-- Whether a class acts on every domain of its instance: scopes A, Q, H and F (R278, R289). -/
def instScope (c : Nat) : Bool :=
  [0x45, 0x47, 0x77, 0x90, 0x91, 0x92, 0x93, 0x94, 0x95, 0x0C, 0x40, 0x41, 0x42, 0x43, 0x44, 0x46, 0x51, 0x65, 0x66, 0x67, 0x70, 0x71, 0x73, 0x75, 0x76, 0x79, 0x7B, 0x7C, 0x80, 0x86, 0xA0, 0xA1, 0xA2, 0xA4, 0xB0, 0xB1, 0xB2, 0xB3, 0xB5, 0xB6].contains c

/-! ### Sources (R279) -/

/-- A source word: KIND and NUMBER. -/
def mkSrc (kind n : Nat) : Nat := kind * 65536 + n % 4096
/-- A source word with a die-wide number. -/
def mkSrcDw (kind n : Nat) : Nat := kind * 65536 + 32768 + n % 4096
/-- The instance. -/
def State.srcInst (s : State) : Nat := mkSrc 0 s.inst.fieldId
/-- KIND of a source. -/
def srcKind (w : Nat) : Nat := bits w 19 16
/-- DW of a source. -/
def srcDw (w : Nat) : Bool := bit w 15
/-- NUMBER of a source. -/
def srcNum (w : Nat) : Nat := bits w 11 0

/-- The local domain of a source of kinds tile to cluster (R289, R325). -/
def State.srcDom (s : State) (w : Nat) : Option Nat :=
  if srcDw w then none
  else match srcKind w with
    | 1 => s.tileDom (srcNum w)
    | 2 => s.mittenDom (srcNum w)
    | 3 => s.mittenDom (srcNum w / 16)
    | 4 => s.mittenDom (srcNum w / 4)
    | 5 => some (srcNum w)
    | 6 => s.clusterDom (srcNum w)
    | _ => none

/-! ### The event buffer (R325 to R327, R334, R339) -/

/-- The highest mitten temperature of a domain, 0 where no mitten has one. -/
def State.domTemp (s : State) (d : Nat) : Int :=
  ((s.dmittens d).filterMap fun m => (s.mitten m).tempNow).foldl (fun a t => match a with | none => some t | some x => some (max x t))
    (none : Option Int) |>.getD 0

/-- CTX of a source: VSET, domain current, highest mitten temperature, mode and loop state of its domain; 0 for a source
with no domain (R325). -/
def State.ctxOf (s : State) (src : Nat) : Nat :=
  match s.srcDom src with
  | none => 0
  | some d =>
    let x := s.dom d
    x.vset % 4096 + x.iNow % 65536 * 2 ^ 16 + uext 16 (s.domTemp d) * 2 ^ 32 + modeCode s.modeNow * 2 ^ 48 + loopCode x.loop * 2 ^ 50

/-- OP_MIN of a record with a TIME (R326). -/
def State.opMin (s : State) (t : Nat) : Nat :=
  s.log.opm0 + match s.inst.tOn with | none => 0 | some on => (t - on) / 15000000000

/-- Fills PWR_CYC and OP_MIN as a record enters the manager's buffer after the start-up scan (R326). -/
def State.stampRec (s : State) (r : Rec) : Rec :=
  if s.inst.manager ∧ s.log.scanned then { r with pwrCyc := s.log.pwrCyc, opMin := s.opMin r.time } else r

/-- Puts a record at the end of the buffer; records of one instance and one tick stand in the order of class, then
source, and take their RSEQ in that order (R285, R339). -/
def placeRec : List Rec → Rec → List Rec
  | [], r => [r]
  | e :: l, r =>
    if e.origin = r.origin ∧ e.time = r.time ∧ (r.cls < e.cls ∨ (r.cls = e.cls ∧ r.src < e.src)) then
      { r with rseq := e.rseq } :: placeRec l { e with rseq := r.rseq }
    else e :: placeRec l r

/-- The lowest severity among records (L of R334). -/
def lowSev (l : List Rec) : Nat := l.foldl (fun m r => min m r.sev) 3

/-- The oldest record of a severity, by TIME and then RSEQ (R334). -/
def oldestOf (l : List Rec) (sev : Nat) : Option Rec :=
  l.foldl (fun a r => if r.sev ≠ sev then a else match a with
    | none => some r
    | some x => if r.time < x.time ∨ (r.time = x.time ∧ r.rseq < x.rseq) then some r else some x) none

/-- A record dropped unwritten or unsent is counted; LOG_LOST is raised at the next frame (R327). -/
def State.countLost (s : State) : State :=
  s.updLog fun l => { l with lost := min 0xFFFFFFFF (l.lost + 1), lostN := min 65535 (l.lostN + 1) }

/-- A record enters the event buffer of 1,024 records. A full buffer gives up its oldest sent or written record, else a
record by the rule of R334, and then counts it as lost (R327). -/
def State.bufferRec (s : State) (r : Rec) : State :=
  let r := s.stampRec r
  let b := s.log.buf
  if b.length < 1024 then s.updLog fun l => { l with buf := placeRec b r }
  else match b.find? fun e => e.gone with
    | some e => s.updLog fun l => { l with buf := placeRec (b.erase e) r }
    | none =>
      let low := lowSev b
      if r.sev < low then s.countLost
      else match oldestOf b low with
        | some e => (s.updLog fun l => { l with buf := placeRec (b.erase e) r }).countLost
        | none => s

/-- What a record entering the manager's buffer triggers: ERROR and FATAL start a flush, PWR_FAIL a power-fail flush
(R331, R332). -/
def State.flushOn (s : State) (r : Rec) : State :=
  if !s.inst.manager then s
  else
    let s := if 2 ≤ r.sev then s.updLog fun l => { l with flushTrig := true, failHalt := false } else s
    if r.cls = cPwrFail ∧ s.log.pfTrig.isNone then s.updLog fun l => { l with pfTrig := some s.time } else s

/-- The record of a raise (R280, R325). -/
def State.recordRaise (s : State) (cls sev src data : Nat) : State :=
  let r : Rec := { origin := s.inst.fieldId, cls := cls, sev := sev, rseq := s.log.rseq, time := s.time, src := src,
                   data := data, ctx := s.ctxOf src, flags := if s.inst.manager then 0 else 4 }
  ((s.updLog fun l => { l with rseq := (l.rseq + 1) % 2 ^ 32 }).bufferRec r).flushOn r

/-! ### The history queue (R285) -/

/-- The history entry of a SEQ. -/
def State.hist (s : State) (seq : Nat) : Hist := tget {} s.flt.hist (seq % 16)

/-- Writes the entry of a SEQ. -/
def State.setHist (s : State) (seq : Nat) (h : Hist) : State :=
  s.updFlt fun f => { f with hist := tset {} f.hist (seq % 16) { h with seq := seq } }

/-- Moves the newest entry before those of its tick with a higher class, or the same class and a higher source. -/
def State.sortHist (s : State) (seq : Nat) : Nat → State
  | 0 => s
  | n + 1 =>
    let prev := (seq + 65535) % 65536
    let a := s.hist prev
    let b := s.hist seq
    if a.seq = prev ∧ a.time = b.time ∧ (b.cls < a.cls ∨ (b.cls = a.cls ∧ b.src < a.src)) then
      ((s.setHist prev b).setHist seq a).sortHist prev n
    else s

/-- A raise enters the history queue: merged into the newest entry of the same class and source, else a new entry. -/
def State.addHist (s : State) (cls sev src data : Nat) : State :=
  let h := s.hist s.flt.head
  if s.flt.any ∧ h.cls = cls ∧ h.src = src then
    s.setHist s.flt.head { h with repeats := min 63 (h.repeats + 1), last := s.time % 2 ^ 32 }
  else
    let seq := if s.flt.any then (s.flt.head + 1) % 65536 else 0
    let s := s.setHist seq { time := s.time, cls := cls, sev := sev, src := src, data := data, last := s.time % 2 ^ 32 }
    (s.updFlt fun f => { f with head := seq, any := true }).sortHist seq 15

/-! ### Occurrences (R276, R280, R287, R290) -/

/-- The escalation timer of a class in force, frames (R287). -/
def State.escTimer (s : State) (cls : Nat) : Nat := (tget none s.flt.esc cls).getD (faultEsc cls).1

/-- Whether an occurrence of a class and source is open. -/
def State.isOpen (s : State) (cls src : Nat) : Bool := s.flt.occs.any fun o => o.cls == cls && o.src == src

/-- Whether any occurrence of a class is open. -/
def State.clsOpen (s : State) (cls : Nat) : Bool := s.flt.occs.any fun o => o.cls == cls

/-- Opens the occurrence of a raise, or keeps the open one, whose severity can rise (R280, R284). -/
def State.openOcc (s : State) (cls sev src data : Nat) : State :=
  if s.isOpen cls src then
    s.updFlt fun f => { f with occs := f.occs.map fun o =>
      if o.cls == cls && o.src == src then { o with sev := max o.sev sev, ended := false, raisedAt := s.time } else o }
  else s.updFlt fun f => { f with occs := f.occs ++
    [{ cls := cls, sev := sev, src := src, data := data, start := frameOf s.time, timer := s.escTimer cls
       raisedAt := s.time }] }

/-- A raise of OUT_SHORT or OV_CROWBAR starts the domain's retry gap where none runs (R290). -/
def State.startGap (s : State) (cls src : Nat) : State :=
  if cls = cOutShort ∨ cls = cOvCrowbar then
    match s.srcDom src with
    | none => s
    | some d =>
      let r := (s.dom d).retry
      if r.gapFrom.isNone ∧ ¬ (s.dom d).bring.retryRun then
        s.updDom d fun x => { x with retry := { r with gapFrom := some (frameOf s.time) } }
      else s
  else s

/-- Whether a freeze may be started: on the manager, not frozen, no coolant stop or power-fail ramp, no lockstep mismatch
(R350). -/
def State.mayFreeze (s : State) : Bool :=
  s.inst.manager && !s.obs.frozen && s.obs.tf.isNone && !s.lim.coolStop && !s.lim.pwrFail && !s.inst.lockstep

/-- Schedules a freeze at the tick of acceptance plus 16 and sends FREEZE on both rings (R350). -/
def State.schedFreeze (s : State) : State :=
  let tf := s.time + 16
  (s.updObs fun o => { o with tf := some tf, regTf := tf, late := false, capOvf := false, timeInv := false, ended := false }).broadcast
    0x06 0 (t64 tf 41)

/-- A raise of the class that OBS_FRZ_CTL names freezes the die (R350). -/
def State.freezeOn (s : State) (cls : Nat) : State :=
  if s.obs.frzEn ∧ s.obs.frzCls = cls ∧ s.mayFreeze then s.schedFreeze else s

/-- What a raise does at the tick of detection (R280): history entry, event record, and for WARN and above an
occurrence, ESC_RUNG apart. -/
def State.raiseCore (s : State) (cls sev src data : Nat) : State :=
  let data := data % 2 ^ 32
  let s := (s.addHist cls sev src data).recordRaise cls sev src data
  if 1 ≤ sev ∧ cls ≠ cEscRung then (s.startGap cls src).openOcc cls sev src data else s

/-- A raise with its severity (R280). -/
def State.raiseSev (s : State) (cls sev src data : Nat) : State := (s.raiseCore cls sev src data).freezeOn cls

/-- A raise whose detection tick `x` a tile stamped (R62, R280). -/
def State.raiseSevAt (s : State) (x cls sev src data : Nat) : State :=
  let now := s.time
  ({ (({ s with time := min x s.time }).raiseCore cls sev src data) with time := now }).freezeOn cls

/-- A raise of a class at its severity of R278. -/
def State.raise (s : State) (cls src data : Nat) : State := s.raiseSev cls (faultSev cls) src data

/-- A raise whose source is the instance. -/
def State.raiseInst (s : State) (cls data : Nat) : State := s.raise cls s.srcInst data

/-- FAULT_N is low: pulled from RST_N to the end of the fuse read, then while an ERROR or FATAL occurrence is open (R284,
R371). -/
def State.faultNLow (s : State) : Bool := s.flt.held || s.flt.occs.any fun o => 2 ≤ o.sev

/-- The cause of the open occurrences of a class and source has ended (R282). -/
def State.endCause (s : State) (cls src : Nat) : State :=
  s.updFlt fun f => { f with occs := f.occs.map fun o => if o.cls == cls && o.src == src then { o with ended := true } else o }

/-- LOG_LOST for the drops of the last frame, once per frame (R327; log entry 18). -/
def State.raiseLost (s : State) : State :=
  if s.log.lostN = 0 then s
  else
    let n := s.log.lostN
    (s.updLog fun l => { l with lostN := 0, lostFrame := some (frameOf s.time) }).raiseInst cLogLost (0x10000000 + n)

end Sys2Proof.Machine
end

