-- ==== Sys2Proof/Machine/Cmd.lean ====
section
/-!
DEFINITION. The command register pair as the functions use it (R398, R399): the command under way and its completion.
RESULT codes: 0 NONE, 1 DONE, 2 REFUSED, 3 NOT_RUNNING (R402).
-/

namespace Sys2Proof.Machine

/-- Whether a command of a code is BUSY. -/
def State.cmdIs (s : State) (code : Nat) : Bool := s.host.cmd.any (·.code == code)

/-- The BUSY command completes: BUSY clears and RESULT takes the outcome (R398). -/
def State.cmdEnd (s : State) (res : Nat) : State := s.updHost fun h => { h with cmd := none, result := res }

/-- A command of a code completes where it is the one under way. -/
def State.cmdDone (s : State) (code res : Nat) : State := if s.cmdIs code then s.cmdEnd res else s

/-- Sets the tick and the outcome at which the BUSY command completes. -/
def State.cmdAt (s : State) (tick res : Nat) : State :=
  s.updHost fun h => { h with cmd := h.cmd.map fun c => { c with doneAt := some (tick, res) } }

/-- Completes the command whose scheduled tick has come. -/
def State.cmdTick (s : State) : State :=
  match s.host.cmd with
  | some c => match c.doneAt with
    | some (t, r) => if t ≤ s.time then s.cmdEnd r else s
    | none => s
  | none => s

end Sys2Proof.Machine
end

