-- ==== Sys2Proof/Machine/HostCmd.lean ====
section
/-!
DEFINITION. Host requests and the acceptance of commands (R242, R293, R297, R351, R391, R398, R399): the response of the
host port, the privilege check that comes first, and the gates before READY and after a lockstep mismatch.
-/

namespace Sys2Proof.Machine

/-- The host port answers from the end of the fuse read (R242). -/
def State.hostUp (s : State) : Bool := s.inst.fuseDone && !s.inst.inReset

/-- The response of the host port (R391). -/
def State.rsp (s : State) (st : HostSt) (data : Nat) : State :=
  s.updHost fun h => { h with rspSt := st, rspData := BitVec.ofNat 32 data, rspCnt := h.rspCnt + 1 }

/-- OKAY for a write. -/
def State.okay (s : State) : State := s.rsp .okay 0
/-- REFUSED. -/
def State.refuse (s : State) : State := s.rsp .refused 0

/-- A request without the privilege it needs (R391): PRIV, and HOST_PRIV with the word address and the direction. -/
def State.privFail (s : State) (addr : Nat) (write : Bool) : State :=
  (s.rsp .priv 0).raiseInst cHostPriv (addr % 2 ^ 20 / 4 * 4 + if write then 2 ^ 31 else 0)

/-- The address of CMD (R402). -/
def cmdAddr : Nat := 0x14

/-- A command is accepted (R398): `CMD_ARG` is latched, BUSY sets, SEQ advances, RESULT reads NONE. -/
def State.acceptCmd (s : State) (code : Nat) (cool : Bool) : State :=
  s.updHost fun h => { h with
    cmd := some { code := code, arg := h.arg, accAt := s.time, cool := cool }, ignored := false, result := 0, code := code
    seq := (h.seq + 1) % 65536 }

/-- Whether the gates ahead of R399's table let a command through: before READY only NOP and ABORT, after a lockstep
mismatch NOP, ABORT, FLUSH_LOG and CLEAR_FAULT (R242, R293), and what only the manager accepts. -/
def State.cmdGate (s : State) (code : Nat) (mgrOnly : Bool) : Bool :=
  (s.inst.ready || code ≤ 1) && (!s.inst.lockstep || [0, 1, 0xA, 0xB].contains code) && (!mgrOnly || s.inst.manager)

/-- Commands that a freeze does not hold back: NOP, ABORT, FREEZE, THAW, DUMP and SNAPSHOT (R299, R350, R355, R363). -/
def runsFrozen (code : Nat) : Bool := [0, 1, 6, 7, 8, 9].contains code

/-- Runs the body of an accepted command, or holds it for the thaw while the supervisors are halted (R351, R423). -/
def State.startBody (s : State) (code : Nat) (body : State → State) : State :=
  if s.obs.frozen ∧ ¬ runsFrozen code then s.updHost fun h => { h with cmd := h.cmd.map fun c => { c with held := true } }
  else body s

/-- A write of a command code to `CMD` (R398, R399): privilege first, then BUSY, then the gates. -/
def State.runCmd (s : State) (code : Nat) (needPriv mgrOnly priv cool : Bool) (body : State → State) : Out :=
  if ¬ s.hostUp then .next s
  else if needPriv && !priv then .next (s.privFail cmdAddr true)
  else if s.host.cmd.isSome ∧ code ≠ 1 then .next ((s.updHost fun h => { h with ignored := true }).okay)
  else
    let t := (s.acceptCmd code cool).okay
    if s.cmdGate code mgrOnly then .next (t.startBody code body) else .next (t.cmdEnd 2)

/-- The argument of the command under way. -/
def State.cmdArg (s : State) : Nat := (s.host.cmd.map (·.arg.toNat)).getD 0

/-- The local domain in bits of a command argument (R268, R273, R297). -/
def State.argDom (s : State) (lo : Nat) : Nat := s.cmdArg / 2 ^ lo % 32

/-- NOP (R399): DONE at the tick after acceptance. -/
def execNop (priv : Bool) (s : State) : Out := s.runCmd 0 false false priv false fun s => s.cmdAt (s.time + 1) 1

/-- A reserved command code is accepted and ends REFUSED (R399); the codes that name a command have rows of their own. -/
def execCmdReservedCode (code : BitVec 8) (priv : Bool) (s : State) : Out :=
  if code.toNat < 13 then .next s else s.runCmd code.toNat false false priv false fun s => s.cmdEnd 2

/-- HOST_PRIV (R391): a read without the privilege it needs is answered PRIV. Which reads need it stands with the registers
(R345, R401); this row is the host's request as the port sees it refused. -/
def State.readPriv (s : State) (addr : Nat) : State := s.privFail addr false

end Sys2Proof.Machine
end

