-- ==== Sys2Proof/Machine/Crypto.lean ====
section
/-!
DEFINITION. SHA-256 (FIPS 180-4) and the verification of ECDSA signatures on curve P-384 (FIPS 186), as R222 and R255 use
them, over bytes.
-/

namespace Sys2Proof.Machine

/-! ### SHA-256 -/

/-- Whether a number has no divisor but itself and 1. -/
def isPrime (p : Nat) : Bool := 2 ≤ p && (List.range p).all fun d => d < 2 || p % d != 0

/-- The first 64 primes, of which the last is 311. -/
def shaPrimes : List Nat := (List.range 312).filter isPrime

/-- The largest `x` below 2^`n` with x^`d` at most `v`, bit by bit on top of `x0`. -/
def rootOf (d v : Nat) : Nat → Nat → Nat
  | 0, x0 => x0
  | n + 1, x0 => rootOf d v n (if (x0 + 2 ^ n) ^ d ≤ v then x0 + 2 ^ n else x0)

/-- The first 32 bits of the fractional part of the `d`-th root of a number below 512: the constants of FIPS 180-4 are such roots
of the primes. -/
def rootFrac (d p : Nat) : Word := BitVec.ofNat 32 (rootOf d (p * 2 ^ (32 * d)) 37 0)

/-- The eight variables that a block works on. -/
structure ShaVars where
  a : Word
  b : Word
  c : Word
  d : Word
  e : Word
  f : Word
  g : Word
  h : Word
  deriving DecidableEq, Repr

/-- The variables as a list, and back. -/
def ShaVars.list (v : ShaVars) : List Word := [v.a, v.b, v.c, v.d, v.e, v.f, v.g, v.h]
/-- See `ShaVars.list`. -/
def ShaVars.of (l : List Word) : ShaVars :=
  let at_ (i : Nat) : Word := nth 0 l i
  { a := at_ 0, b := at_ 1, c := at_ 2, d := at_ 3, e := at_ 4, f := at_ 5, g := at_ 6, h := at_ 7 }

/-- The hash before the first block: square roots of the first eight primes. -/
def shaStart : ShaVars := .of ((shaPrimes.take 8).map (rootFrac 2))

/-- The exclusive or of a word's rotations to the right. -/
def rotMix (x : Word) (l : List Nat) : Word := l.foldl (fun a n => a ^^^ x.rotateRight n) 0

/-- One step of a block on the sum of its constant and its message word. -/
def ShaVars.step (v : ShaVars) (kw : Word) : ShaVars :=
  let pick := v.g ^^^ (v.e &&& (v.f ^^^ v.g))
  let most := (v.a &&& (v.b ||| v.c)) ||| (v.b &&& v.c)
  let t := v.h + kw + pick + rotMix v.e [6, 11, 25]
  { a := t + most + rotMix v.a [2, 13, 22], b := v.a, c := v.b, d := v.c, e := v.d + t, f := v.e, g := v.f, h := v.g }

/-- The next 16 words of the message schedule, of which the step at hand takes the first. -/
def shaSlide (w : List Word) : List Word :=
  let x := nth 0 w 1
  let y := nth 0 w 14
  w.tail ++ [nth 0 w 0 + nth 0 w 9 + (rotMix x [7, 18] ^^^ x >>> 3) + (rotMix y [17, 19] ^^^ y >>> 10)]

/-- The steps of a block, one for each constant. -/
def shaSteps : List Word → List Word → ShaVars → ShaVars
  | [], _, v => v
  | k :: ks, w, v => shaSteps ks (shaSlide w) (v.step (k + w.headD 0))

/-- The hash after one more block of 16 words. -/
def shaBlock (hash : ShaVars) (block : List Word) : ShaVars :=
  .of (List.zipWith (· + ·) hash.list (shaSteps (shaPrimes.map (rootFrac 3)) block hash).list)

/-- A number as `n` big-endian bytes. -/
def bytesBE : Nat → Nat → List (BitVec 8)
  | 0, _ => []
  | n + 1, v => BitVec.ofNat 8 (v / 256 ^ n) :: bytesBE n v

/-- A big-endian byte string as a number. -/
def natBE (l : List (BitVec 8)) : Nat := l.foldl (fun a b => 256 * a + b.toNat) 0

/-- The 16 words of a block of 64 bytes. -/
def blockWords (l : List (BitVec 8)) : List Word :=
  (List.range 16).map fun i => BitVec.ofNat 32 (natBE ((l.drop (4 * i)).take 4))

/-- SHA-256 of bytes, as a number whose most significant bit is bit 255 of the digest: a 1 bit, zeros and the length in bits fill
the last block. -/
def sha256 (l : List (BitVec 8)) : Nat :=
  let k := (l.length + 9 + 63) / 64
  let m := l ++ BitVec.ofNat 8 128 :: List.replicate (64 * k - l.length - 9) 0 ++ bytesBE 8 (8 * l.length)
  let h := (List.range k).foldl (fun h i => shaBlock h (blockWords ((m.drop (64 * i)).take 64))) shaStart
  h.list.foldl (fun a w => a * 2 ^ 32 + w.toNat) 0

/-! ### ECDSA on P-384 -/

/-- The field prime. -/
def p384 : Nat := 2 ^ 384 - 2 ^ 128 - 2 ^ 96 + 2 ^ 32 - 1
/-- The order of the base point. -/
def n384 : Nat := 0xFFFFFFFFFFFFFFFFFFFFFFFFFFFFFFFFFFFFFFFFFFFFFFFFC7634D81F4372DDF581A0DB248B0A77AECEC196ACCC52973
/-- The coefficient b of the curve; a is −3. -/
def b384 : Nat := 0xB3312FA7E23EE7E4988E056BE3F82D19181D9C6EFE8141120314088F5013875AC656398D8A2ED19D2A85C8EDD3EC2AEF
/-- The base point. -/
def g384 : Nat × Nat :=
  (0xAA87CA22BE8B05378EB1C71EF320AD746E1D3B628BA79B9859F741E082542A385502F25DBF55296C3A545E3872760AB7,
   0x3617DE4A96262C6F5D9E98BF9292DC29F8F41DBD289A147CE9DA3113B5F0B8C00A60B1CE1D7E819D7A431D7C90EA0E5F)

/-- A power modulo `m`, over the low `k` bits of the exponent. -/
def powMod (m : Nat) : Nat → Nat → Nat → Nat
  | 0, _, _ => 1
  | k + 1, b, e => let r := powMod m k (b * b % m) (e / 2); if e % 2 = 1 then r * b % m else r

/-- The inverse modulo a prime. -/
def invMod (m x : Nat) : Nat := powMod m 384 (x % m) (m - 2)

/-- The sum of two points of the curve; `none` is the point at infinity. -/
def addPt (a b : Option (Nat × Nat)) : Option (Nat × Nat) :=
  match a, b with
  | none, b => b
  | a, none => a
  | some (x, y), some (u, v) =>
    if x = u ∧ (y + v) % p384 = 0 then none
    else
      let l := if x = u then (3 * x * x + p384 - 3) * invMod p384 (2 * y) % p384
        else (v + p384 - y) * invMod p384 (u + p384 - x) % p384
      let w := (l * l + 2 * p384 - x - u) % p384
      some (w, (l * (x + p384 - w) + p384 - y) % p384)

/-- A multiple of a point, over the low `k` bits. -/
def mulPt : Nat → Nat → Option (Nat × Nat) → Option (Nat × Nat)
  | 0, _, _ => none
  | k + 1, e, p => let r := mulPt k (e / 2) (addPt p p); if e % 2 = 1 then addPt r p else r

/-- Whether a point lies on the curve. -/
def onCurve (x y : Nat) : Bool :=
  decide (x < p384) && decide (y < p384) && y * y % p384 == (x * x * x + (p384 - 3) * x + b384) % p384

/-- Verifies an ECDSA signature (r, s) of a 256-bit hash under a public key (FIPS 186). -/
def ecdsaOk (qx qy r s h : Nat) : Bool :=
  if onCurve qx qy ∧ 1 ≤ r ∧ r < n384 ∧ 1 ≤ s ∧ s < n384 then
    let w := invMod n384 s
    match addPt (mulPt 384 (h * w % n384) (some g384)) (mulPt 384 (r * w % n384) (some (qx, qy))) with
    | some (x, _) => x % n384 == r
    | none => false
  else false

end Sys2Proof.Machine
end

