-- ==== Sys2Proof/Machine/ProfGen.lean ====
section
/-!
DEFINITION. The profile generator (R82), with every value in 1/256 of its unit, and the travel time it gives (R261, R262).
-/

namespace Sys2Proof.Machine

/-- The generator's values: position in mV, velocity in mV/µs, acceleration in mV/µs², each times 256. -/
structure PgState where
  pos : Int
  vel : Int
  acc : Int
  deriving DecidableEq, Repr

/-- `√(y / 4)` rounded to the nearest integer, ties up: the speed of R82 for a motion upward. -/
def sqrtUp (y : Nat) : Nat := (Nat.sqrt y + 1) / 2

/-- The same with ties down: its negative rounds ties toward +∞ (R82). -/
def sqrtDown (y : Nat) : Nat :=
  let n := sqrtUp y
  if 1 ≤ n ∧ (2 * n - 1) * (2 * n - 1) = y then n - 1 else n

/-- One step of the generator toward `tgt` (in 1/256 mV) under limits in mV/µs, mV/µs² and mV/µs³; the flag tells a final
step (R82). -/
def pgStep (p : PgState) (tgt : Int) (vmax amax jmax : Nat) : PgState × Bool :=
  let err := tgt - p.pos
  let dir : Int := err.sign
  let ab : Int := 128 * amax
  let lag := roundUpTie (p.vel.natAbs * ab) (256 * jmax)
  let y := (8 * ab * max 0 ((err.natAbs : Int) - lag)).toNat
  let sp : Int := min (256 * vmax : Nat) (if 0 < dir then sqrtUp y else sqrtDown y)
  let vd := dir * sp
  let ad := clampI (roundUpTie ((vd - p.vel) * 125) 8) (-(256 * amax : Nat)) (256 * amax : Nat)
  let da := ad - p.acc
  let a := p.acc + (if da.natAbs * 125 ≤ 2048 * jmax then da else roundUpTie (da.sign * (2048 * jmax : Nat)) 125)
  let vnew := clampI (roundUpTie (p.vel * 125 + a * 8) 125) (-(256 * vmax : Nat)) (256 * vmax : Nat)
  let step := roundUpTie (vnew * 8) 125
  if dir = 0 ∨ (err - step).sign ≠ dir ∨ (err.natAbs ≤ 64 ∧ vnew.natAbs ≤ 256) then
    (⟨tgt, 0, 0⟩, true)
  else (⟨p.pos + step, vnew, a⟩, false)

/-- VSET: pos as a set-point code, rounded to the nearest, ties up (R82). -/
def pgVset (p : PgState) : Nat := (roundUpTie p.pos 128).toNat

/-- The generator's target for a set-point code, in 1/256 mV. -/
def pgTgt (code : Nat) : Int := 128 * code

/-- The samples the generator takes from its values to a target, at most `fuel`. -/
def pgSamples (tgt : Int) (vmax amax jmax : Nat) : Nat → PgState → Nat
  | 0, _ => 0
  | n + 1, p =>
    let r := pgStep p tgt vmax amax jmax
    if r.2 then 1 else 1 + pgSamples tgt vmax amax jmax n r.1

/-- The travel time from 0 mV to a code, in ticks, a whole number of domain samples (R261); a travel longer than the
16,383 samples that SS_GO can carry is cut there (R59). -/
def pgTravel (code vmax amax jmax : Nat) : Nat := 16 * pgSamples (pgTgt code) vmax amax jmax 16383 ⟨0, 0, 0⟩

end Sys2Proof.Machine
end

