-- ==== Sys2Proof/Machine/Spine.lean ====
section
/-!
DEFINITION. The spine as the field core drives it: the queue of CMD and CFG words per chain, what a sample's 32 slots
carry (R57, R58), the arbitration of events (R64), and the share weights of a mitten with the words that carry them (R94
to R96).
-/

namespace Sys2Proof.Machine

/-! ### Queueing words (R57) -/

/-- CROWBAR, STOP and RETIRE_TILE go ahead of every other word (R57). -/
def TileWord.protective : TileWord → Bool
  | .crowbar | .stop | .retireTile => true
  | .nop | .start | .ssTarget _ | .ssGo _ | .shed _ | .unshed _ | .retirePhase _ | .clear | .setOfs _ | .setShare _
  | .capTest _ | .cfg _ _ => false

/-- Adds a word to a chain's queue. -/
def qAdd (q : List SpineWord) (w : SpineWord) : List SpineWord :=
  if w.word.protective then q.takeWhile (·.word.protective) ++ w :: q.dropWhile (·.word.protective) else q ++ [w]

/-- Queues a word for its chain. -/
def State.queueWord (s : State) (w : SpineWord) : State :=
  s.updSpine fun p => { p with q := tset [] p.q w.chain (qAdd (tget [] p.q w.chain) w) }

/-- A word for one tile. -/
def tileWord (t : Nat) (w : TileWord) : SpineWord := { chain := t / 24, pos := t % 24, all := false, word := w, grp := 0 }

/-- Queues a word for a tile, for the next free slot. -/
def State.sendTile (s : State) (t : Nat) (w : TileWord) : State := s.queueWord (tileWord t w)

/-- A word for a tile by a field decision of this frame: it travels in the frame's last sample and applies at the first
sample of the next frame (R15, R57). In the last sample itself it travels as soon as it can. -/
def State.decideTile (s : State) (t : Nat) (w : TileWord) : State :=
  if s.time % 256 < 240 then s.updSpine fun p => { p with frameQ := p.frameQ ++ [tileWord t w] } else s.sendTile t w

/-- A word for a tile queued at the first sample of the next frame (R52, R413). -/
def State.sendNext (s : State) (t : Nat) (w : TileWord) : State :=
  s.updSpine fun p => { p with nextQ := p.nextQ ++ [tileWord t w] }

/-- Moves the words of the frame's last sample, or of the next frame's first sample, to the chains' queues. -/
def State.releaseWords (s : State) : State :=
  let s := if s.time % 256 = 240 then
      forL s.spine.frameQ (fun w s => s.queueWord w) (s.updSpine fun p => { p with frameQ := [] }) else s
  if s.time % 256 = 0 then forL s.spine.nextQ (fun w s => s.queueWord w) (s.updSpine fun p => { p with nextQ := [] }) else s

/-! ### The slots of a sample (R57) -/

/-- Takes the words that travel in `free` slots, in order: the words of one group all travel or all wait. `go` lists the
groups that travel and `stay` those that wait. Answers what travels and what stays queued. -/
def fillSlots : List SpineWord → Nat → List Nat → List Nat → List SpineWord × List SpineWord
  | [], _, _, _ => ([], [])
  | w :: r, free, go, stay =>
    if w.grp != 0 && go.contains w.grp then
      let (a, b) := fillSlots r free go stay
      (w :: a, b)
    else if w.grp != 0 && !stay.contains w.grp && 1 + (r.filter (·.grp == w.grp)).length ≤ free then
      let (a, b) := fillSlots r (free - (1 + (r.filter (·.grp == w.grp)).length)) (w.grp :: go) stay
      (w :: a, b)
    else if w.grp = 0 ∧ free ≠ 0 then
      let (a, b) := fillSlots r (free - 1) go stay
      (w :: a, b)
    else
      let (a, b) := fillSlots r free go (if w.grp = 0 then stay else w.grp :: stay)
      (a, w :: b)

/-- A slot that carries no queued word carries NOP. -/
def nopWord : Word := cmdWord 31 0 0

/-- The 32 downstream words of a sample on a chain: SYNC, CMD and CFG, MREF and MSUM of its four mittens (R57). -/
def chainWords (t : Nat) (cmds mrefs msums : List Word) : List Word :=
  let c := cmds ++ List.replicate (23 - cmds.length) nopWord
  syncWord t :: c.take 19 ++ mrefs ++ msums ++ c.drop 19

/-- DROOP_MARGIN as the MSUMs of a chain carry it (R60). -/
def State.msumMargin (s : State) (q : Nat) : Nat := tget 20 s.spine.margins q

/-- DROOP_MARGIN once the words that travel in a sample apply: a CFG word and the MSUMs of its sample bring the same value from
the same boundary (R60). -/
def marginAfter (m : Nat) (now : List SpineWord) : Nat :=
  now.foldl (fun m w => match w.word with
    | .cfg 13 c => (clampI (parValue 13 c) (parRange 13).1 (parRange 13).2).toNat
    | _ => m) m

/-- The weights that travel for a mitten in a sample, position by position. -/
def travelling (now : List SpineWord) (m : Nat) : List Nat :=
  (List.range 6).map fun p => match now.find? (fun w => w.grp == m + 1 && 24 * w.chain + w.pos == 6 * m + p) with
    | some { word := .setShare w, .. } => w
    | _ => 0

/-- The SET_SHARE words of a mitten travel in the sample that starts now (R95): they apply at its end, and the current of a lost
tile leaves the mitten's with them. -/
def sharesTravel (now : List SpineWord) (m : Nat) (s : State) : State :=
  if now.any (·.grp == m + 1) then
    let due := s.time + 16
    let s := s.updMitten m fun x => { x with wOld := if x.wAt ≤ s.time then x.wNew else x.wOld, wNew := travelling now m, wAt := due }
    forIdx 6 (fun p s => s.updView (6 * m + p) fun v => if v.imitTo = notYet then { v with imitTo := due } else v) s
  else s

/-- What one chain carries in the sample that starts now: its queue's words, and the reference of each mitten where
`ref` gives one. While frozen the CMD slots carry NOP, but for the crowbar fan-out (R352). -/
def State.driveChain (s : State) (ref : Nat → Option (Nat × Int)) (q : Nat) : State :=
  let all := tget [] s.spine.q q
  let held := if s.obs.frozen then all.filter (·.word != .crowbar) else []
  let (now, rest) := fillSlots (if s.obs.frozen then all.filter (·.word == .crowbar) else all) 23 [] []
  let mrefs := (List.range 4).map fun i => match ref (4 * q + i) with
    | some (v, f) => mrefWord i v f s.time
    | none => nopWord
  let s := s.updSpine fun p => { p with margins := tset 20 p.margins q (marginAfter (s.msumMargin q) now) }
  let s := forIdx 4 (fun i s => sharesTravel now (4 * q + i) s) s
  let msums := (List.range 4).map fun i => msumWord i (s.mitten (4 * q + i)).imit (s.msumMargin q) s.time
  s.updSpine fun p => { p with
    q := tset [] p.q q (rest ++ held), down := tset [] p.down q (chainWords s.time (now.map spineWordBits) mrefs msums) }

/-- The bit that a data lane of a chain's downstream link carries in unit interval `j` of a slot of the running sample (R56, R57). -/
def State.downLane (s : State) (q slot j lane : Nat) : Bool := dwLane (nth 0 (tget [] s.spine.down q) slot) j lane
/-- The bit that its check lane carries there (R56). -/
def State.downCheck (s : State) (q slot j : Nat) : Bool := bit (dwCheck (nth 0 (tget [] s.spine.down q) slot)).toNat j

/-- What all chains carry in the sample that starts now. -/
def State.driveSpine (s : State) (ref : Nat → Option (Nat × Int)) : State :=
  forIdx 8 (fun q s => s.driveChain ref q) s

/-! ### Event slots (R64) -/

/-- The events of a chain that compete for the slots of a sample, in the order in which they win: farther tiles first,
each tile's oldest first. -/
def State.competing (s : State) (q lim : Nat) : List (Nat × TileEv) :=
  (List.range 24).reverse.flatMap fun u =>
    ((s.tile (24 * q + u)).events.filter fun e => e.tick ≤ lim).map fun e => (24 * q + u, e)

/-- The events of a chain that take its 8 event slots leave their tiles and travel. -/
def State.sendEvents (s : State) (q lim : Nat) : State :=
  forL ((s.competing q lim).take 8) (fun (t, e) s =>
    (s.updTile t fun x => { x with events := x.events.erase e }).updSpine fun p => { p with
      up := p.up ++ [(q, eventWord (t % 24) e.code e.tick e.data)] }) s

/-- The arbitration of a sample, after its tick 8 (R64). -/
def State.arbitrate (s : State) : State :=
  let lim := 16 * (s.time / 16) + 8
  forIdx 8 (fun q s => s.sendEvents q lim) s

/-! ### Share weights (R93 to R96) -/

/-- The matrix row that R94 starts from: the single-loss row of position `p`, or the base row; 1 at every position in
GROUNDED and on the factory safe table (R271). -/
def State.shareRow (s : State) (m : Nat) (lost : List Nat) (p : Nat) : Nat :=
  if s.grounded ∨ s.inst.factory then 1
  else match lost with
    | [l] => s.cb 6 (48 * m + 6 + 6 * l + p)
    | _ => s.cb 6 (48 * m + p)

/-- Hands `n` units one each to the largest remainders, ties to the lowest position. -/
def handOut : Nat → List Nat → List Nat → List Nat
  | 0, w, _ => w
  | n + 1, w, rem =>
    let best := rem.foldl max 0
    let i := rem.findIdx (· == best)
    handOut n (w.set i (nth 0 w i + 1)) (rem.set i 0)

/-- The weights that raw values give; none where every raw value is 0 (R94). -/
def weightsOf (raw : List Nat) : List Nat :=
  let tot := raw.sum
  if tot = 0 then raw
  else
    let w := raw.map fun r => 256 * r / tot
    handOut (256 - w.sum) w (raw.map fun r => 256 * r % tot)

/-- The weights of a mitten as its working tiles and retired phases stand (R94). -/
def State.weights (s : State) (m : Nat) : List Nat :=
  let lost := (List.range 6).filter fun p => !s.working (6 * m + p)
  weightsOf ((List.range 6).map fun p =>
    if lost.contains p then 0
    else s.shareRow m lost p * (if (s.view (6 * m + p)).phLost = 0 then 4 else 3))

/-- The weights in force at the tiles of a mitten at a tick (R95). -/
def Mitten.weightsAt (x : Mitten) (t : Nat) : List Nat := if x.wAt ≤ t then x.wNew else x.wOld

/-- Queues the weights of a mitten for its working tiles, kept together: in the frame's last sample, or in the first
sample that can hold them (R57, R95). They replace weights of the mitten that have not travelled. With no working tile left
there is no word to wait for. -/
def State.queueShares (s : State) (m : Nat) : State :=
  let w := s.weights m
  let words := ((List.range 6).filter fun p => s.working (6 * m + p)).map fun p =>
    { tileWord (6 * m + p) (.setShare (nth 0 w p)) with grp := m + 1 }
  let s := s.updSpine fun p => { p with frameQ := p.frameQ.filter (·.grp != m + 1) }
  let s := s.updSpine fun p => { p with q := tset [] p.q (m / 4) ((tget [] p.q (m / 4)).filter (·.grp != m + 1)) }
  let s := if s.time % 256 < 240 then s.updSpine fun p => { p with frameQ := p.frameQ ++ words }
    else forL words (fun w s => s.queueWord w) s
  let s := if words.isEmpty then
      forIdx 6 (fun p s => s.updView (6 * m + p) fun v => if v.imitTo = notYet then { v with imitTo := nextFrame s.time } else v) s
    else s
  s.updMitten m fun x => { x with weights := w, dirty := false, holdTo := nextFrame s.time + 16 * s.redistHold }

/-- A change of the working tiles of a mitten: a new loss moves the weights at once, another change waits for the end of
REDIST_HOLD (R96). -/
def State.reshare (s : State) (m : Nat) (loss : Bool) : State :=
  if loss ∨ (s.mitten m).holdTo ≤ s.time then s.queueShares m else s.updMitten m fun x => { x with dirty := true }

end Sys2Proof.Machine
end

