-- ==== Sys2Proof/Machine/Bring.lean ====
section
/-!
DEFINITION. Bringing domains up and turning them off (R23, R52, R55, R71, R95, R261 to R275, R290): the targets, the
record of losses, the bring-up steps, the bridle sequence, the off sequence and the retry policy. A supervisor decision is
taken when its cause arrives and applies at the next frame (R15).
-/

namespace Sys2Proof.Machine

/-! ### Targets (R71 to R74) -/

/-- The brim of a mode, set-point code (R72). -/
def brimCode : Mode → Nat
  | .peak => 50 | .balanced => 90 | .efficient => 110 | .grounded => 180

/-- The brim in force: BALANCED before READY (R261); that of a new mode enters at the frame after it is taken (R173). -/
def State.brim (s : State) : Nat :=
  if s.grounded then 180 else if s.inst.ready then brimCode (if s.inst.modeSince = s.time then s.inst.modePrev else s.inst.mode)
  else brimCode .balanced

/-- The target of a domain as it is composed now, and the DATA of TGT_CLAMP where the range held it (R71, R74, R424). -/
def State.target (s : State) (d : Nat) : Nat × Option Nat :=
  let x := s.dom d
  if x.retain then (s.vret d, none)
  else if s.grounded then (min (s.vsafe d + 180) 2100, none)
  else
    let sum := (if x.vreqEn then x.vreqCode else s.veff d x.pSel + s.brim) + (if x.tileLocal then 60 else 0)
    if sum < 900 then (900, some 900) else if 2100 < sum then (2100, some (2100 + 4096)) else (sum, none)

/-- The generator limits in force for a domain: the coolant limits, the defaults of R81 in GROUNDED, or the programmed
ones with ON_RATE or OFF_RATE (R81, R198, R261, R272, R295). -/
def State.pgLimits (s : State) (d : Nat) : Nat × Nat × Nat :=
  let x := s.dom d
  let rate (k : Nat) : Nat := if s.seqEntry d k = 0 then x.pgVmax else s.seqEntry d k
  if x.bring.coolRamp || x.retain then (100, 1000, 10000)
  else if s.grounded then (10, 20, 100)
  else match x.bring.step with
    | .precharge | .capTest | .ramp => (rate 1, x.pgAmax, x.pgJmax)
    | .rampDown => (rate 3, x.pgAmax, x.pgJmax)
    | .idle | .waiting | .bridleWait | .bridle | .backOut | .gap | .up | .stagesOff | .stopping =>
      (x.pgVmax, x.pgAmax, x.pgJmax)

/-- The first boundary at which a word decided now can apply (R15, R57). -/
def State.applyTick (s : State) : Nat := if s.time % 256 < 240 then nextFrame s.time else nextFrame s.time + 16

/-! ### The sequence record -/

/-- Changes the sequence record of a domain. -/
def State.updBring (s : State) (d : Nat) (f : Bring → Bring) : State := s.updDom d fun x => { x with bring := f x.bring }

/-- A step in which a bring-up has started (R261, R269). -/
def BringStep.rising : BringStep → Bool
  | .precharge | .capTest | .ramp | .bridleWait | .bridle | .backOut | .gap => true
  | .idle | .waiting | .up | .stagesOff | .rampDown | .stopping => false

/-- A step of an off sequence (R272). -/
def BringStep.falling : BringStep → Bool
  | .stagesOff | .rampDown | .stopping => true
  | .idle | .waiting | .up | .precharge | .capTest | .ramp | .bridleWait | .bridle | .backOut | .gap => false

/-- Whether a bring-up of a domain is scheduled or in progress. -/
def Dom.inBring (x : Dom) : Bool :=
  (x.bring.step.rising && !x.bring.keepStatus) || x.bring.step == .waiting

/-- A failed retry starts the next gap from the frame in which it ended (R290). -/
def Dom.endRetry (x : Dom) (now : Nat) : Dom :=
  if x.bring.retryRun then
    { x with bring := { x.bring with retryRun := false }, retry := { x.retry with gapFrom := some (frameOf now), sent := false } }
  else x

/-- Ends a bring-up with a failure status, which stays through the off sequence that follows at the next frame (R269). -/
def State.endBring (s : State) (d : Nat) (st : BringSt) : State :=
  s.updDom d fun x => ({ x with bring := { x.bring with
    status := st, keepStatus := true, startAt := none, winEnd := none, offAt := some (nextFrame s.time)
    step := if x.bring.step = BringStep.waiting then .idle else x.bring.step } }).endRetry s.time

/-- A bring-up that is refused at its start (R262, R269). -/
def State.refuseBring (s : State) (d : Nat) (st : BringSt) : State :=
  s.updDom d fun x => ({ x with bring := { x.bring with status := st, step := .idle, startAt := none, winEnd := none } }).endRetry s.time

/-- The domain is READY (R261). -/
def State.bringReady (s : State) (d : Nat) : State :=
  s.updBring d fun b => { b with status := .ready, step := .up, winEnd := none, retryRun := false, keepStatus := false }

/-! ### Losses and returns (R21 to R23, R95, R98) -/

/-- A mitten goes dark: MITTEN_DARK is raised and its domain turned off (R23). -/
def State.darken (s : State) (d m : Nat) : State :=
  let s := (s.updMitten m fun x => { x with dark := true }).raise cMittenDark (mkSrc 2 m) 0
  if (s.dom d).inBring then s.endBring d .dark
  else if (s.dom d).loop ≠ .idle ∧ ¬ (s.dom d).bring.step.falling then
    s.updBring d fun b => { b with offAt := some (nextFrame s.time) }
  else s

/-- Whether a domain is shed, or committed to it, at a tick: it is so until the UNSHED words apply (R91). -/
def Dom.shedIn (x : Dom) (now : Nat) : Bool := x.shedLvl.isSome && (x.unshedAt == 0 || decide (now < x.unshedAt))

/-- The return of a domain's phases has applied. -/
def shedOver (d : Nat) (s : State) : State :=
  if (s.dom d).shedLvl.isSome ∧ ¬ (s.dom d).shedIn s.time then
    s.updDom d fun x => { x with shedLvl := none, unshedAt := 0, dwell := [] } else s

/-- Every shed phase of a domain returns at the next frame, unless its return is on the way (R88, R92, R98). -/
def State.unshedDom (s : State) (d : Nat) : State :=
  if (s.dom d).shedLvl.isSome ∧ (s.dom d).unshedAt = 0 then
    forL (s.dtiles d) (fun t s => (s.updView t fun v => { v with shedSent := 0 }).decideTile t (.unshed 15))
      (s.updDom d fun x => { x with unshedAt := s.applyTick, dwell := [] })
  else s

/-- What follows a loss in a mitten: the weights, the ceilings, the shed phases, and a dark mitten. -/
def State.afterLoss (s : State) (m : Nat) : State :=
  match s.mittenDom m with
  | none => s
  | some d =>
    let s := (refreshCeil d ((s.updMitten m fun x => { x with lossTicks := x.lossTicks ++ [s.time] }).reshare m true)).unshedDom d
    if (s.mworking m).length < 3 ∧ ¬ (s.mitten m).dark then s.darken d m else s

/-- Records the loss of a tile; `gone` where only RST_N ends it. Its current leaves the mitten's with the weights that follow
(R95). -/
def State.recordLoss (s : State) (t : Nat) (gone : Bool) : State :=
  if (s.view t).lost then s.updView t fun v => { v with gone := v.gone || gone }
  else (s.updView t fun v => { v with lost := true, gone := gone, imitTo := notYet }).afterLoss (t / 6)

/-- Records the loss of a phase (R95); with a second one the tile counts as lost (R21). -/
def State.recordPhase (s : State) (t k : Nat) : State :=
  if bit (s.view t).phLost k then s
  else
    let s := s.updView t fun v => { v with phLost := v.phLost + 2 ^ k }
    if 2 ≤ (maskList 4 (s.view t).phLost).length then s.recordLoss t true else s.afterLoss (t / 6)

/-- A tile lost through CROWBAR or LATCHED reports OFF and counts as working again (R95). -/
def State.returnTile (s : State) (t : Nat) : State :=
  if (s.view t).lost ∧ ¬ (s.view t).gone then
    let m := t / 6
    let s := s.updView t fun v => { v with lost := false }
    match s.mittenDom m with
    | none => s
    | some d => (refreshCeil d (s.reshare m false)).updMitten m fun x => { x with dark := x.dark && (s.mworking m).length < 3 }
  else s

/-! ### Bring-up (R261, R262, R55) -/

/-- The sense points of a domain that take part in its minimum, ascending (R26, R75). -/
def State.domPoints (s : State) (d : Nat) : List Nat :=
  (s.dmittens d).zipIdx.flatMap fun (m, k) =>
    ((List.range 16).filter fun i => !bit (s.senseExclude d k) i).map fun i => 16 * m + i

/-- The sense points that a domain reads are trusted, at start and at each entry to RAMP (R75); an excluded one never is (R27). -/
def trustAll (d : Nat) (s : State) : State :=
  forL (s.domPoints d) (fun i s => s.updPoint i fun p =>
    { p with trusted := true, locked := false, disCnt := 0, same := [], passCnt := 0 }) s

/-- The loop of a domain enters RAMP from a position of its generator (R68, R75). -/
def State.enterRamp (s : State) (d : Nat) (pos : Int) (moving : Bool) : State :=
  trustAll d (s.updDom d fun x => { x with
    loop := .ramp, pos := pos, vel := if moving then x.vel else 0, acc := if moving then x.acc else 0
    lift := 0, liftNext := 0, ffb := 0, ffbNext := 0, safeI := 0, safeE := 0, safeU := 0, satCnt := 0, tileLocal := false })

/-- Whether a mitten of a domain is dark. -/
def State.anyDark (s : State) (d : Nat) : Option Nat := (s.dmittens d).find? fun m => (s.mworking m).length < 3

/-- Step 1 of R261: START to every working tile, unless a start is refused. -/
def State.startBring (s : State) (d : Nat) : State :=
  if s.inst.lockstep ∨ s.inst.fuseBad then s.updBring d fun b => { b with startAt := none, step := .idle }
  else if s.lim.pwrFail then s.refuseBring d .refusedPwr
  else if s.lim.coolStop then s.refuseBring d .refusedCool
  else if (s.dom d).thLow then s.refuseBring d .refusedTherm
  else match s.anyDark d with
    | some m => ((if s.isOpen cMittenDark (mkSrc 2 m) then s else s.raise cMittenDark (mkSrc 2 m) 0).refuseBring d .dark)
    | none =>
      let s := forL (s.dtiles d) (fun t s => s.updView t fun v => { v with reported := false, capDv := none }) s
      let s := forL (s.dworking d) (fun t s => s.sendTile t .start) s
      s.updBring d fun b => { b with
        status := .running, step := .precharge, startAt := none, offAt := none, stages := [], nextStage := 0, tries := 0
        due := s.time + 64, coolRamp := false, keepStatus := false, resume := false }

/-- Step 3 of R261: SS_TARGET and SS_GO; the loop enters RAMP when they apply. -/
def State.softStart (s : State) (d : Nat) : State :=
  let s := s.updBring d fun b => { b with step := .ramp, due := s.applyTick }
  let v := (s.target d).1
  let (vm, am, jm) := s.pgLimits d
  let l := pgTravel v vm am jm
  let s := forL (s.dworking d) (fun t s => (s.decideTile t (.ssTarget v)).decideTile t (.ssGo l)) s
  s.updBring d fun b => { b with rampEnd := b.due + l }

/-- The capacitance check of R55 over the rises reported: `n` tiles that took part, `w` working tiles, the sum of the
rises in set-point codes, and the duration in ticks. N × 1 A × duration / ΔV per working tile lies in 0.8 µF to 3.2 µF,
with ΔV the mean rise (log entry 19). -/
def capOk (n w sum dur : Nat) : Bool := sum * w ≤ 10 * n * n * dur && 5 * n * n * dur ≤ 2 * sum * w

/-- Steps 2 and 3 of R261, when the last awaited report has arrived. -/
def State.bringProgress (s : State) (d : Nat) : State :=
  let ts := s.dworking d
  match (s.dom d).bring.step with
  | .precharge =>
    if ts.all fun t => (s.view t).reported then
      forL ts (fun t s => s.decideTile t (.capTest 50)) (s.updBring d fun b => { b with step := .capTest })
    else s
  | .capTest =>
    if ts.all fun t => (s.view t).capDv.isSome then
      let dv := (s.dtiles d).filterMap fun t => (s.view t).capDv
      if capOk dv.length ts.length dv.sum 50 then s.softStart d
      else (s.raise cCapWindow (mkSrc 5 d) 0).endBring d .capWindow
    else s
  | .idle | .waiting | .ramp | .bridleWait | .bridle | .backOut | .gap | .up | .stagesOff | .rampDown | .stopping => s

/-- Step 4 of R261: the loop enters CLOSED, or GROUND in GROUNDED (R68), with its integrator at 0; M, L and A domains are
READY there. -/
def State.closeLoop (s : State) (d : Nat) : State :=
  let s := s.updDom d fun x => { x with loop := if s.grounded then .ground else .closed }
  if s.dclass d = 0 then s.updBring d fun b => { b with step := .bridleWait } else s.bringReady d

/-! ### Off sequence (R272, R198) -/

/-- STOP to every tile of a domain. -/
def stopTiles (d : Nat) (s : State) : State := forL (s.dtiles d) (fun t s => s.sendTile t .stop) s

/-- The off ramp of a domain from the set-point in force (R272). -/
def State.rampOff (s : State) (d : Nat) : State :=
  let x := s.dom d
  let s := if x.loop = .ramp then s.updDom d fun x => { x with lift := 0, liftNext := 0, ffb := 0, ffbNext := 0 }
    else if x.loop = .ground then s.enterRamp d (pgTgt x.vref) false
    else s.enterRamp d x.pos true
  s.updBring d fun b => { b with step := .rampDown }

/-- Starts the off sequence of a domain from the state it has reached; `cool` takes the coolant limits and keeps the header
stages on until 0 mV (R198, R272, R274). -/
def State.startOff (s : State) (d : Nat) (cool : Bool) : State :=
  let s := s.updBring d fun b => { b with
    offAt := none, startAt := none, winEnd := none, coolRamp := cool || (b.coolRamp && b.step.falling), resume := false }
  let s := s.updDom d fun x => { x with retain := false }
  let x := s.dom d
  match x.bring.step with
  | .idle | .waiting =>
    if x.loop = .idle then s.updBring d fun b => { b with step := .idle, coolRamp := false } else s.rampOff d
  | .precharge | .capTest => (stopTiles d s).updBring d fun b => { b with step := .stopping }
  | .ramp =>
    if x.loop = .idle then (stopTiles d s).updBring d fun b => { b with step := .stopping } else s.rampOff d
  | .stopping => s
  | .rampDown => s
  | .stagesOff => if cool then s.rampOff d else s
  | .bridleWait | .bridle | .backOut | .gap | .up =>
    match x.bring.stages, cool with
    | k :: _, false => s.updBring d fun b => { b with step := .stagesOff, due := s.time + s.bInterval d k }
    | _, _ => s.rampOff d

/-- A domain in bring-up ends it as ABORTED before it turns off (R269, R273). -/
def State.abortBring (s : State) (d : Nat) : State :=
  if (s.dom d).inBring then
    s.updDom d fun x => ({ x with bring := { x.bring with status := .aborted, keepStatus := true } }).endRetry s.time
  else s

/-- The domain is IDLE: no lift, every stage off, and the outcome of an off sequence that was not a failed bring-up is OFF
(R269, R272; log entry 20). -/
def State.domIdle (s : State) (d : Nat) : State :=
  s.updDom d fun x => { x with
    loop := .idle, pos := 0, vel := 0, acc := 0, vset := 0, vsetNext := 0, lift := 0, liftNext := 0, ffb := 0, ffbNext := 0
    shedLvl := none, unshedAt := 0, dwell := [], satCnt := 0, tileLocal := false
    bring := { x.bring with
      status := if x.bring.keepStatus then x.bring.status
        else if x.bring.step.falling then .off
        else if x.bring.step.rising then .protect else x.bring.status
      step := .idle, stages := [], coolRamp := false, keepStatus := false, offAt := none, winEnd := none } }

/-! ### The sequence at a sample boundary -/

/-- One header stage goes off where it is due; after the last one the off ramp or the retry gap follows (R267, R272). -/
def State.stageOff (s : State) (d : Nat) : State :=
  let b := (s.dom d).bring
  if s.time < b.due then s
  else match b.stages with
    | _ :: k :: r => s.updBring d fun b => { b with stages := k :: r, due := s.time + s.bInterval d k }
    | _ =>
      let s := s.updBring d fun b => { b with stages := [] }
      if b.step = .stagesOff then s.rampOff d
      else if ¬ b.keepStatus then s.updBring d fun b => { b with step := .gap, gapFrom := frameOf s.time }
      else s.updBring d fun b => { b with step := .up }

/-- Whether no tile of a domain is on: the states in which R68 has the domain IDLE. -/
def State.allOff (s : State) (d : Nat) : Bool :=
  (s.dtiles d).all fun t => [0, 5, 6, 7].contains (s.view t).state || (s.view t).lost

/-- What a sample boundary brings to the sequence of a domain (R68, R261, R267, R269, R272). -/
def bringSample (d : Nat) (s : State) : State :=
  let x := s.dom d
  let b := x.bring
  match b.step with
  | .precharge | .capTest =>
    if b.due ≤ s.time ∧ s.allOff d then ((s.domIdle d).updDom d fun x => x.endRetry s.time) else s
  | .ramp =>
    if x.loop = .idle then (if b.due ≤ s.time then s.enterRamp d 0 false else s)
    else if (s.dworking d).all fun t => (s.view t).state == 3 then s.closeLoop d
    else if b.due + 32 ≤ s.time ∧ s.allOff d then ((s.domIdle d).updDom d fun x => x.endRetry s.time)
    else s
  | .bridle =>
    if s.allOff d then ((s.domIdle d).updDom d fun x => x.endRetry s.time)
    else if b.nextStage = s.bStages d ∧ b.due < s.time then s.bringReady d else s
  | .bridleWait | .gap | .up | .waiting | .idle =>
    if x.loop ≠ .idle ∧ s.allOff d then ((s.domIdle d).updDom d fun x => x.endRetry s.time) else s
  | .backOut | .stagesOff => if s.allOff d then s.domIdle d else s.stageOff d
  | .rampDown =>
    if s.allOff d then s.domIdle d
    else if x.vset = 0 ∧ x.pos = 0 then
      (stopTiles d s).updBring d fun b => { b with step := .stopping, stages := [] }
    else s
  | .stopping => if s.allOff d then s.domIdle d else s

/-! ### The commands -/

/-- BRING_UP_START (R262): the START words travel in the sample before the scheduled tick, so that they apply at it. -/
def execBringUpStart (d : Fin 32) (s : State) : Out :=
  match (s.dom d).bring.startAt with
  | some t => if t ≤ s.time + 16 ∧ (s.dom d).bring.step = .waiting then .next (s.startBring d) else .next s
  | none => .next s

/-- BRING_WINDOW (R263). -/
def execBringWindow (d : Fin 32) (s : State) : Out :=
  match (s.dom d).bring.winEnd with
  | some t =>
    if t ≤ s.time ∧ (s.dom d).inBring then .next ((s.raise cBringWindow (mkSrc 5 d) 0).endBring d .window) else .next s
  | none => .next s

/-- The bridle sequence starts, or starts again, from stage 0 (R266, R267). -/
def State.bridleFrom0 (s : State) (d : Nat) : State :=
  s.updBring d fun b => { b with step := .bridle, stages := [], nextStage := 0, due := s.time + s.bInterval d 0 }

/-- BRIDLE_START (R266). -/
def execBridleStart (d : Fin 32) (s : State) : Out :=
  if (s.dom d).bring.step = .bridleWait ∧ s.time % 256 = 0 then .next (s.bridleFrom0 d) else .next s

/-- The field's sample power, mW (R177). -/
def State.fieldP (s : State) : Nat := (domIdx.map fun d => if s.enabled d then (s.dom d).pNow else 0).sum

/-- Whether a stage may switch on: no mitten above 85% of its continuous ceiling, and the input estimate with the stage's
inrush at most 85% of IIN_LIM (R178, R266). -/
def State.stageFits (s : State) (d k : Nat) : Bool :=
  (s.dmittens d).all (fun m => 100 * (s.mitten m).imit ≤ 85 * s.mceil d m) &&
    100000 * s.fieldP + 5000 * s.bInrush d k * (s.dom d).vtgt ≤ 765 * s.lim.vinF * s.iinLim

/-- BRIDLE_STAGE (R266). A window that ends at this boundary comes first (R275). -/
def execBridleStage (d : Fin 32) (s : State) : Out :=
  let b := (s.dom d).bring
  let k := b.nextStage
  if b.step = .bridle ∧ k < s.bStages d ∧ b.due ≤ s.time ∧ s.time < b.due + s.bHold d ∧ s.time % 16 = 0 ∧
      (b.winEnd.all fun t => s.time < t) ∧ s.stageFits d k then
    .next (s.updBring d fun b => { b with
      stages := k :: b.stages, nextStage := k + 1
      due := if k + 1 < s.bStages d then s.time + s.bInterval d (k + 1) else s.time })
  else .next s

/-- The stages that are on go off in reverse order at their intervals (R267, R275). -/
def State.backOut (s : State) (d : Nat) : State :=
  match (s.dom d).bring.stages with
  | [] => s.updBring d fun b =>
      if ¬ b.keepStatus then { b with step := .gap, gapFrom := frameOf s.time } else { b with step := .up }
  | k :: _ => s.updBring d fun b => { b with step := .backOut, due := s.time + s.bInterval d k }

/-- BRIDLE_HOLD (R267). -/
def execBridleHold (d : Fin 32) (s : State) : Out :=
  let b := (s.dom d).bring
  if b.step = .bridle ∧ b.nextStage < s.bStages d ∧ b.due + s.bHold d ≤ s.time then
    let s := s.raise cBridleHold (mkSrc 5 d) 0
    if b.tries < s.bRetries d then .next (s.backOut d)
    else .next ((s.raise cBridleFail (mkSrc 5 d) 0).endBring d .bridleFail)
  else .next s

/-- BRIDLE_RETRY (R267). -/
def execBridleRetry (d : Fin 32) (s : State) : Out :=
  let b := (s.dom d).bring
  if b.step = .gap ∧ s.time % 256 = 0 ∧ b.gapFrom + s.bGap d ≤ frameOf s.time then
    .next ((s.bridleFrom0 d).updBring d fun b => { b with tries := b.tries + 1 })
  else .next s

/-- OFF_SEQUENCE_START (R272, R273). A start tick of R273 with PWRFAIL_N asserted starts nothing (R275). -/
def execOffSequenceStart (d : Fin 32) (s : State) : Out :=
  let b := (s.dom d).bring
  let due := (b.offAt.any fun t => t ≤ s.time) || (b.offAllAt.any fun t => t ≤ s.time)
  if due then
    let s := s.updBring d fun b => { b with
      offAt := if b.offAt.any (· ≤ s.time) then none else b.offAt
      offAllAt := if b.offAllAt.any (· ≤ s.time) then none else b.offAllAt }
    if s.lim.pwrFail then .next s else .next ((s.abortBring d).startOff d false)
  else .next s

/-- An occurrence whose rung turned a domain off that no DOMAIN_ON has brought back since (R281, R288, R300). -/
def Occ.rungOff (d : Nat) (o : Occ) : Bool := o.off.contains d

/-- Notes on the occurrences that `p` picks that their rung turns a domain off; a domain already off is unaffected (R288). -/
def State.markOff (s : State) (d : Nat) (p : Occ → Bool) : State :=
  let x := s.dom d
  if (x.loop = .idle ∧ ¬ x.inBring) ∨ x.bring.step.falling then s
  else s.updFlt fun f => { f with occs := f.occs.map fun o => if p o then { o with off := d :: o.off.filter (· != d) } else o }

/-- A DOMAIN_ON accepted acknowledges every open occurrence whose rung turned the domain off, and ends that rung (R281, R288). -/
def State.ackOff (s : State) (d : Nat) : State :=
  s.updFlt fun f => { f with
    occs := f.occs.map fun o => if o.rungOff d then { o with ack := true, off := o.off.filter (· != d) } else o }

/-- Sends CLEAR to the CROWBAR and LATCHED tiles of a domain (R282, R290). -/
def clearTiles (d : Nat) (s : State) : State :=
  forL ((s.dtiles d).filter fun t => (s.view t).state == 5 || (s.view t).state == 6)
    (fun t s => (s.updView t fun v => { v with clearRef := false }).sendTile t .clear) s

/-- A retry that cannot start counts as used. -/
def Dom.useRetry (x : Dom) (again : Option Nat) (sent : Bool) : Dom :=
  { x with retry := { x.retry with used := x.retry.used + 1, gapFrom := again, sent := sent } }

/-- RETRY_GAP (R290, R300). -/
def execRetryGap (d : Fin 32) (s : State) : Out :=
  let r := (s.dom d).retry
  match r.gapFrom with
  | some f =>
    if f + s.flt.gap ≤ frameOf s.time ∧ r.used < s.flt.retries ∧ ¬ s.inst.lockstep ∧ ¬ s.obs.frozen then
      if s.flt.occs.any (Occ.rungOff d) then .next (s.updDom d fun x => x.useRetry (some (frameOf s.time)) false)
      else .next ((clearTiles d s).updDom d fun x => x.useRetry none true)
    else .next s
  | none => .next s

/-- After the answers to a retry's CLEAR: a bring-up as for an accepted DOMAIN_ON once no tile is left in CROWBAR or
LATCHED (R290). -/
def retryAnswers (d : Nat) (s : State) : State :=
  let x := s.dom d
  if x.retry.sent ∧ x.loop = .idle ∧ ¬ x.bring.step.rising ∧ (s.dtiles d).all fun t => (s.view t).state != 5 && (s.view t).state != 6 then
    s.updDom d fun x => { x with
      retry := { x.retry with sent := false }
      bring := { x.bring with status := .waiting, step := .waiting, startAt := none, retryRun := true } }
  else s

/-- A waiting domain of DOMAIN_ON or a retry starts at the next frame once no neighbour of the field is in bring-up
(R268). -/
def State.admitWaiting (s : State) (d : Nat) : State :=
  let b := (s.dom d).bring
  let busy (e : Nat) : Bool := let c := (s.dom e).bring; (c.step == .waiting && c.startAt.isSome) || c.step.rising
  if b.step = .waiting ∧ b.startAt.isNone ∧
      (s.nbrs d).all (fun n => n / 32 ≠ s.inst.fieldId || !busy (n % 32)) then
    s.updBring d fun b => { b with startAt := some (nextFrame s.time) }
  else s

end Sys2Proof.Machine
end

