-- ==== Sys2Proof/Machine/Format.lean ====
section
/-!
DEFINITION. Skelrak's eleven number formats and its arithmetic (R140 to R143): decoding and encoding, rounding to nearest
even, the integer and the float accumulator, and the conversion of results.
-/

namespace Sys2Proof.Machine

/-- A value of the float path: NaN, an infinity with its sign, or a finite number; `neg` tells −0 from 0. -/
inductive FV where
  | nan
  | inf (neg : Bool)
  | num (q : Rat) (neg : Bool)
  deriving DecidableEq, Repr

/-- Two to an integer power. -/
def pow2 (e : Int) : Rat := if 0 ≤ e then ((2 ^ e.toNat : Nat) : Rat) else 1 / ((2 ^ (-e).toNat : Nat) : Rat)

/-- Rounded to the nearest integer, ties to even. -/
def rne (q : Rat) : Int :=
  let r := q - q.floor
  if r < 1 / 2 then q.floor else if 1 / 2 < r then q.floor + 1 else if q.floor % 2 = 0 then q.floor else q.floor + 1

/-- The largest power of two not above a positive number, as its exponent. -/
def log2Q (a : Rat) : Int :=
  let l : Int := (Nat.log2 a.num.natAbs : Int) - (Nat.log2 a.den : Int)
  if a < pow2 l then l - 1 else if pow2 (l + 1) ≤ a then l + 1 else l

/-- The width of a format in bits (R140). -/
def fmtW : Nat → Nat
  | 0 => 4 | 1 => 8 | 2 => 16 | 3 => 32 | 4 => 16 | 5 => 32 | 6 => 8 | 7 => 8 | 8 => 16 | 9 => 16 | 10 => 32 | _ => 0

/-- Whether a format is a float format (R140). -/
def fmtFloat (f : Nat) : Bool := 6 ≤ f && f ≤ 10

/-- The fraction bits of a format (R140). -/
def fmtFrac : Nat → Nat
  | 4 => 15 | 5 => 31 | _ => 0

/-- Mantissa bits and bias of a float format (R140). -/
def fmtMB : Nat → Nat × Int
  | 6 => (3, 7) | 7 => (2, 15) | 8 => (7, 127) | 9 => (10, 15) | _ => (23, 127)

/-- The largest finite value of a float format (R140). -/
def fmtMax (f : Nat) : Rat :=
  if f = 6 then 448
  else
    let (m, b) := fmtMB f
    (2 - pow2 (-(m : Int))) * pow2 b

/-- The value of a float pattern; subnormals are honoured (R140). -/
def decFloat (f n : Nat) : FV :=
  let w := fmtW f
  let (m, b) := fmtMB f
  let neg := bit n (w - 1)
  let e := bits n (w - 2) m
  let k := n % 2 ^ m
  let top := 2 ^ (w - 1 - m) - 1
  let sg : Rat := if neg then -1 else 1
  if f = 6 ∧ e = top ∧ k = 7 then .nan
  else if f ≠ 6 ∧ e = top then (if k = 0 then .inf neg else .nan)
  else if e = 0 then .num (sg * k * pow2 (1 - b - m)) neg
  else .num (sg * (2 ^ m + k : Nat) * pow2 ((e : Int) - b - m)) neg

/-- The pattern of the NaN that Skelrak produces (R140). -/
def nanBits (f : Nat) : Nat :=
  let (m, _) := fmtMB f
  if f = 6 then 0x7F else (2 ^ (fmtW f - 1 - m) - 1) * 2 ^ m + 2 ^ (m - 1)

/-- The pattern of an infinity. -/
def infBits (f : Nat) (neg : Bool) : Nat :=
  let (m, _) := fmtMB f
  b2n neg * 2 ^ (fmtW f - 1) + (2 ^ (fmtW f - 1 - m) - 1) * 2 ^ m

/-- The pattern of the largest finite value. -/
def maxBits (f : Nat) (neg : Bool) : Nat :=
  if f = 6 then b2n neg * 128 + 0x7E else infBits f neg - 1

/-- Rounds a finite number to a float format's grid, to nearest even, before its overflow is looked at. -/
def roundGrid (f : Nat) (q : Rat) : Rat :=
  if q = 0 then 0
  else
    let (m, b) := fmtMB f
    let e := max (log2Q |q|) (1 - b)
    let u := pow2 (e - m)
    rne (q / u) * u

/-- The pattern of a number that lies on the format's grid and within its range. -/
def encGrid (f : Nat) (q : Rat) (neg : Bool) : Nat :=
  let w := fmtW f
  let (m, b) := fmtMB f
  let a := |q|
  if a = 0 then b2n neg * 2 ^ (w - 1)
  else
    let e := log2Q a
    if e < 1 - b then b2n neg * 2 ^ (w - 1) + (a / pow2 (1 - b - m)).floor.toNat
    else b2n neg * 2 ^ (w - 1) + (e + b).toNat * 2 ^ m + ((a / pow2 (e - m)).floor.toNat - 2 ^ m)

/-- A result in a float format, with NAN and SAT (R142): overflow gives the largest finite value, or with WRAP an
infinity, in FP8-E4M3 a NaN. -/
def encFloat (f : Nat) (wrap : Bool) : FV → Nat × Bool × Bool
  | .nan => (nanBits f, true, false)
  | .inf neg => if wrap then (if f = 6 then (nanBits f, false, true) else (infBits f neg, false, true)) else (maxBits f neg, false, true)
  | .num q neg =>
    let g := roundGrid f q
    let neg := if g = 0 then neg else decide (g < 0)
    if fmtMax f < |g| then
      (if wrap then (if f = 6 then nanBits f else infBits f neg) else maxBits f neg, false, true)
    else (encGrid f g neg, false, false)

/-- A finite result rounded to FP32 in the accumulator; past the range it is an infinity (IEEE 754). -/
def fp32 (q : Rat) (neg : Bool) : FV :=
  let g := roundGrid 10 q
  if fmtMax 10 < |g| then .inf (decide (g < 0)) else .num g (if g = 0 then neg else decide (g < 0))

/-- The sign of a value. -/
def FV.neg : FV → Bool
  | .nan => false | .inf n => n | .num _ n => n

/-- Product, rounded to FP32 (R141). -/
def FV.mul : FV → FV → FV
  | .num a s, .num b t => fp32 (a * b) (s != t)
  | .nan, _ => .nan
  | _, .nan => .nan
  | .inf s, .inf t => .inf (s != t)
  | .inf s, .num b t => if b = 0 then .nan else .inf (s != t)
  | .num a s, .inf t => if a = 0 then .nan else .inf (s != t)

/-- Sum, rounded to FP32 (R141). -/
def FV.add : FV → FV → FV
  | .num a s, .num b t => fp32 (a + b) (if a + b = 0 then s && t else decide (a + b < 0))
  | .nan, _ => .nan
  | _, .nan => .nan
  | .inf s, .inf t => if s = t then .inf s else .nan
  | .inf s, .num _ _ => .inf s
  | .num _ _, .inf t => .inf t

/-- The negated value. -/
def FV.opp : FV → FV
  | .nan => .nan | .inf s => .inf !s | .num q s => .num (-q) !s

/-- Whether a value is below another; false where one is NaN. -/
def FV.lt : FV → FV → Bool
  | .nan, _ => false
  | _, .nan => false
  | .inf s, .inf t => s && !t
  | .inf s, .num _ _ => s
  | .num _ _, .inf t => !t
  | .num a _, .num b _ => decide (a < b)

/-- A value held to a range; NaN stays NaN. -/
def FV.clamp (x lo hi : FV) : FV := if x.lt lo then lo else if hi.lt x then hi else x

/-- A whole number in FP32. -/
def FV.ofInt (n : Int) : FV := fp32 n false

/-- The FP32 pattern of a value, infinities kept. -/
def FV.bits32 (x : FV) : BitVec 32 :=
  match x with
  | .nan => BitVec.ofNat 32 (nanBits 10)
  | .inf n => BitVec.ofNat 32 (infBits 10 n)
  | .num q n => BitVec.ofNat 32 (encGrid 10 q n)

/-- The value of an FP32 pattern. -/
def FV.of32 (w : BitVec 32) : FV := decFloat 10 w.toNat

/-! ### The accumulator (R141) -/

/-- An accumulator value: INT32 with the path's fraction bits, or FP32. -/
inductive Acc where
  | int (n : Int)
  | flt (x : FV)
  deriving DecidableEq, Repr

/-- How a descriptor computes: the float path, or the integer path with `frac` fraction bits (R141). -/
structure Path where
  flt : Bool
  frac : Nat
  wrap : Bool
  deriving DecidableEq, Repr

/-- INT32 by saturation or, with WRAP, modulo 2^32; the flag tells a change (R141). -/
def fit32 (wrap : Bool) (n : Int) : Int × Bool :=
  if n < -(2 ^ 31) ∨ 2 ^ 31 ≤ n then (if wrap then sext 32 (uext 32 n) else clampI n (-(2 ^ 31)) (2 ^ 31 - 1), true) else (n, false)

/-- An operand of a format in the accumulator's form, exact on the integer path, as a number of `frac` fraction bits
where the path has at least the operand's (R141). -/
def Path.operand (p : Path) (fmt raw : Nat) : Acc :=
  if p.flt then
    if fmtFloat fmt then .flt (decFloat fmt (raw % 2 ^ fmtW fmt))
    else .flt (fp32 ((sext (fmtW fmt) raw : Rat) / (2 ^ fmtFrac fmt : Nat)) false)
  else .int (sext (fmtW fmt) raw * 2 ^ (p.frac - fmtFrac fmt))

/-- A bias or per-row coefficient of a page: 32 bits in the accumulator's format (R143). -/
def Path.coef (p : Path) (raw : Nat) : Acc := if p.flt then .flt (decFloat 10 raw) else .int (sext 32 raw)

/-- IMM as an accumulator value (R143). -/
def Path.imm (p : Path) (fw imm : Nat) : Acc :=
  if fmtFloat fw then .flt (decFloat 9 imm)
  else
    let q : Rat := (sext 16 imm : Rat) / (2 ^ min (fmtFrac fw) 15 : Nat)
    if p.flt then .flt (fp32 q false) else .int (rne (q * (2 ^ p.frac : Nat)))

/-- Zero of the accumulator. -/
def Path.zero (p : Path) : Acc := if p.flt then .flt (.num 0 false) else .int 0

/-- Addition with the accumulator's rounding and range (R141); the flag tells saturation or a wrap. -/
def Path.add (p : Path) : Acc → Acc → Acc × Bool
  | .int a, .int b => let (n, f) := fit32 p.wrap (a + b); (.int n, f)
  | .flt a, .flt b => (.flt (a.add b), false)
  | a, _ => (a, false)

/-- The accumulator's range for a value formed without an addition (R141); the flag tells saturation or a wrap. -/
def Path.fit (p : Path) : Acc → Acc × Bool
  | .int n => let (m, f) := fit32 p.wrap n; (.int m, f)
  | .flt x => (.flt x, false)

/-- The negated value. -/
def Acc.opp : Acc → Acc
  | .int a => .int (-a) | .flt x => .flt x.opp

/-- Whether a value is below another. -/
def Acc.lt : Acc → Acc → Bool
  | .int a, .int b => decide (a < b)
  | .flt a, .flt b => a.lt b
  | _, _ => false

/-- Whether a value is NaN. -/
def Acc.isNan : Acc → Bool
  | .flt .nan => true | _ => false

/-- A value held to a range. -/
def Acc.clamp (x lo hi : Acc) : Acc := if x.isNan then x else if x.lt lo then lo else if hi.lt x then hi else x

/-- A product of two operands of formats with given fraction bits: exact, and rounded to the path's fraction bits or to
FP32 (R141). -/
def Path.mulRaw (p : Path) (fi ri fw rw : Nat) : Acc :=
  if p.flt then
    match p.operand fi ri, p.operand fw rw with
    | .flt a, .flt b => .flt (a.mul b)
    | a, _ => a
  else
    let n := sext (fmtW fi) ri * sext (fmtW fw) rw
    let f := fmtFrac fi + fmtFrac fw
    .int (if f ≤ p.frac then n * 2 ^ (p.frac - f) else rne ((n : Rat) / (2 ^ (f - p.frac) : Nat)))

/-- The product of an operand and a coefficient that is already in the accumulator's format. -/
def Path.mulCoef (p : Path) (fi ri : Nat) (c : Acc) : Acc :=
  match c with
  | .flt b => match p.operand fi ri with
    | .flt a => .flt (a.mul b)
    | a => a
  | .int b => .int (rne ((sext (fmtW fi) ri * b : Int) / (2 ^ fmtFrac fi : Nat) : Rat))

/-- The exact value of a finite accumulator. -/
def Path.rat (p : Path) : Acc → Rat
  | .int n => (n : Rat) / (2 ^ p.frac : Nat)
  | .flt (.num q _) => q
  | .flt _ => 0

/-- An integer code of `w` bits by saturation or by keeping the low bits, with SAT (R142). -/
def fitW (w : Nat) (wrap : Bool) (n : Int) : Nat × Bool :=
  if n < -(2 ^ (w - 1)) ∨ 2 ^ (w - 1) ≤ n then
    (uext w (if wrap then n else clampI n (-(2 ^ (w - 1))) (2 ^ (w - 1) - 1)), true)
  else (uext w n, false)

/-- The result of a row: the accumulator times 2^EXP in the output format, with NAN and SAT (R142). -/
def Path.result (p : Path) (fo : Nat) (exp : Int) (a : Acc) : Nat × Bool × Bool :=
  if fmtFloat fo then
    match a with
    | .int _ => encFloat fo p.wrap (.num (p.rat a * pow2 exp) false)
    | .flt (.num q s) => encFloat fo p.wrap (.num (q * pow2 exp) s)
    | .flt x => encFloat fo p.wrap x
  else
    let w := fmtW fo
    match a with
    | .flt .nan => (0, true, false)
    | .flt (.inf s) => (uext w (if s then -(2 ^ (w - 1)) else 2 ^ (w - 1) - 1), false, true)
    | _ => let (n, f) := fitW w p.wrap (rne (p.rat a * pow2 exp * (2 ^ fmtFrac fo : Nat))); (n, false, f)

/-- The accumulator times 2^EXP as a whole code held to a range, for an EMIT target (R152); none for NaN. -/
def Path.code (p : Path) (exp lo hi : Int) (a : Acc) : Option Int :=
  match a with
  | .flt .nan => none
  | .flt (.inf s) => some (if s then lo else hi)
  | _ => some (clampI (rne (p.rat a * pow2 exp)) lo hi)

/-- Whether that code lies outside the range, so that holding it there sets SAT (R142, R152). -/
def Path.past (p : Path) (exp lo hi : Int) (a : Acc) : Bool :=
  match a with
  | .flt .nan => false
  | .flt (.inf _) => true
  | _ => let n := rne (p.rat a * pow2 exp); decide (n < lo) || decide (hi < n)

/-- The largest value of a format, for EMPTY rows (R148, R155). -/
def fmtLargest (fo : Nat) : Nat := if fmtFloat fo then maxBits fo false else 2 ^ (fmtW fo - 1) - 1

/-- A raw result sign-extended to the 32 bits of a V element (R138); float patterns stay right-justified. -/
def toElem (fo raw : Nat) : BitVec 32 := BitVec.ofNat 32 (uext 32 (sext (fmtW fo) raw))

end Sys2Proof.Machine
end

