-- ==== Sys2Proof/Machine/Engine.lean ====
section
/-!
DEFINITION. Skelrak's descriptors, operand spaces, operations and costs (R134 to R156), on one lane, one descriptor at a
time. The schedule of lanes and windows stands in Machine/Sched.lean.
-/

namespace Sys2Proof.Machine

/-- An operation descriptor (R144). -/
structure Desc where
  op : Nat
  fi : Nat
  fw : Nat
  fo : Nat
  wrap : Bool
  bias : Bool
  last : Bool
  sub : Nat
  m : Nat
  k : Nat
  saSp : Nat
  saIx : Nat
  sbSp : Nat
  sbIx : Nat
  dst : Nat
  exp : Int
  wpage : Nat
  apage : Nat
  rowmap : Nat
  imm : Nat
  deriving DecidableEq, Repr

/-- The fields of a descriptor (R144). -/
def parseDesc (n : Nat) : Desc :=
  { op := bits n 127 124, fi := bits n 123 120, fw := bits n 119 116, fo := bits n 115 112, wrap := bit n 111
    bias := bit n 110, last := bit n 109, sub := bits n 108 105, m := bits n 104 96, k := bits n 95 86
    saSp := bits n 85 83, saIx := bits n 82 72, sbSp := bits n 71 69, sbIx := bits n 68 58, dst := bits n 57 54
    exp := sext 6 (bits n 53 48), wpage := bits n 47 35, apage := bits n 34 22, rowmap := bits n 21 16, imm := bits n 15 0 }

/-- A program header (R157). -/
structure Prog where
  idx : Nat
  hp : Nat
  lane : Nat
  act : Nat
  fallback : Nat
  ndesc : Nat
  order : Nat
  dlist : List Nat
  deriving DecidableEq, Repr

/-- `n` bytes of a table page as a number (R8, R137). -/
def State.page (s : State) (pg off n : Nat) : Nat := readLE 0 s.eng.mem (256 * pg + off) n

/-- Program `p` of the directory (R157). -/
def State.prog (s : State) (p : Nat) : Option Prog :=
  let e := s.page 0 (4 * p) 4
  if bit e 13 ∧ ¬ s.inst.factory ∧ s.inst.committed then
    let h := e % 8192
    some { idx := p, hp := h, lane := s.page h 0 1, act := s.page h 1 1, fallback := s.page h 2 1, ndesc := s.page h 4 2
           order := s.page h 8 1, dlist := (List.range (min 32 (s.page h 3 1))).map fun i => s.page h (16 + i) 1 }
  else none

/-- The programs of a lane and activity in run order (R157, R159). -/
def State.progsOf (s : State) (lane act : Nat) : List Prog :=
  let l := ((List.range 64).filterMap s.prog).filter fun p => p.lane == lane && p.act == act
  (List.range 256).flatMap fun o => l.filter (·.order == o)

/-- Descriptor `i` of a program: 16 to a page after the header (R144, R157). -/
def State.desc (s : State) (p : Prog) (i : Nat) : Desc := parseDesc (s.page (p.hp + 1 + i / 16) (16 * (i % 16)) 16)

/-- `⌈a / b⌉`. -/
def cdiv (a b : Nat) : Nat := (a + b - 1) / b

/-- Columns per cycle (R135). -/
def Desc.cols (d : Desc) : Nat :=
  let w := max (fmtW d.fi) (fmtW d.fw)
  if w ≤ 8 then 16 else if w = 16 then 8 else 4

/-- The path of a descriptor's accumulator (R141): SCALE and MATVEC form products. -/
def Desc.path (d : Desc) : Path :=
  { flt := fmtFloat d.fi || fmtFloat d.fw, wrap := d.wrap
    frac := if d.op = 1 ∨ d.op = 3 then min 31 (fmtFrac d.fi + fmtFrac d.fw) else max (fmtFrac d.fi) (fmtFrac d.fw) }

/-- Whether source B is read (R145, R150). -/
def Desc.usesB (d : Desc) : Bool := d.op == 2 || d.op == 7 || d.op == 8

/-- The registers a descriptor writes (R144, R149, R150). -/
def Desc.regs (d : Desc) : Nat :=
  match d.op with
  | 10 => 0
  | 7 => 3 + cdiv d.m 64
  | 8 => max (cdiv d.m 64) (1 + cdiv (d.m * d.sub) 64)
  | _ => cdiv d.m 64

/-- The pages that a row reads (R136, R143, R145, R149 to R151). -/
def Desc.rowPages (d : Desc) (r : Nat) : List Nat :=
  match d.op with
  | 1 =>
    let nb := cdiv d.k d.cols
    let w := if d.fw = 0 then (List.range (cdiv d.k 16)).map fun b => d.wpage + (r / 16 * cdiv d.k 16 + b) / 2
      else (List.range nb).map fun b => d.wpage + r / 16 * nb + b
    w ++ (if d.bias then [d.apage + r / 64] else [])
  | 3 => if d.sub = 1 then [d.wpage + r / 64] else []
  | 4 => if d.sub = 0 then [d.wpage + r / 32] else []
  | 6 => [d.apage]
  | 7 => [d.wpage + r / 32]
  | 8 => [d.wpage + r]
  | _ => []

/-- The V elements that a descriptor writes over the rows that are not masked; a masked row's result is written too (R144, R149,
R150, R154). -/
def Desc.wrote (d : Desc) (live : List Nat) (e : Nat) : Bool :=
  d.op != 10 && ((64 * d.dst ≤ e && e < 64 * d.dst + d.m) || match d.op with
    | 7 => [1, 2, 3].any fun k => live.any fun r => e == 64 * (d.dst + k) + r
    | 8 => live.any fun r => 64 * (d.dst + 1) + r * d.sub ≤ e && e < 64 * (d.dst + 1) + r * d.sub + d.sub
    | _ => false)

/-- The stationary-bank load that a lane holds after a descriptor: its own if it is a MATVEC, unless the descriptor has written an
element of that source (R145). -/
def Desc.nextLoad (d : Desc) (live : List Nat) (pl : Option (Nat × Nat × Nat × Nat)) : Option (Nat × Nat × Nat × Nat) :=
  (if d.op = 1 then some (d.saSp, d.saIx, d.k, d.fi) else pl).filter fun (sp, ix, k, _) =>
    !(sp == 0 && (List.range k).any fun j => d.wrote live ((ix + j) % 1024))

/-- A list in groups of 16. -/
def groups16 (l : List Nat) : List (List Nat) := (List.range (cdiv l.length 16)).map fun g => (l.drop (16 * g)).take 16

/-- The pages of a list of rows, each once. -/
def pagesBy (f : Nat → Nat) (l : List Nat) : List Nat := (l.map f).dedup

/-- The weight page of row `r` in column cycle `b` of a MATVEC (R135, R136). -/
def Desc.weightPage (d : Desc) (b r : Nat) : Nat :=
  if d.fw = 0 then d.wpage + (r / 16 * cdiv d.k 16 + b * d.cols / 16) / 2 else d.wpage + r / 16 * cdiv d.k d.cols + b

/-- The pages that a descriptor's feeder streams in each cycle of its body behind the bank load, over the rows that are not masked
(R134 to R136, R143, R145). Rows go by 16; a bias or coefficient page is read in the first cycle of its rows, a LUT page in the
extra cycle of the LUT (log entry 73). -/
def Desc.body (d : Desc) (rows : List Nat) : List (List Nat) :=
  let g := groups16 rows
  let bias (l : List Nat) : List Nat := if d.bias then pagesBy (fun r => d.apage + r / 64) l else []
  match d.op with
  | 1 =>
    if d.k = 0 then g.map bias
    else g.flatMap fun l => (List.range (cdiv d.k d.cols)).map fun b => pagesBy (d.weightPage b) l ++ (if b = 0 then bias l else [])
  | 3 => g.map fun l => if d.sub = 1 then pagesBy (fun r => d.wpage + r / 64) l else []
  | 4 => g.map fun l => if d.sub = 0 then pagesBy (fun r => d.wpage + r / 32) l else []
  | 5 => List.replicate (if d.sub = 0 then cdiv (rows.length * d.k) 256 else 2 + g.length) []
  | 6 => [d.apage] :: g.map fun _ => []
  | 7 => g.flatMap fun l => pagesBy (fun r => d.wpage + r / 32) l :: List.replicate 3 []
  | 8 => rows.flatMap fun r => [[d.wpage + r], []]
  | _ => g.map fun _ => []

/-- The pages that a set of rows reads. -/
def Desc.pages (d : Desc) (rows : List Nat) : List Nat := (rows.flatMap d.rowPages).dedup

/-- Whether a space code fits a format (R138, R153). -/
def spaceOk (sp fi : Nat) : Bool :=
  match sp with
  | 0 => true | 1 => fi == 2 | 2 => fi == 2 | 3 => fi == 2 | 4 => fi == 3 | 5 => fi == 3 | 7 => true | _ => false

/-- Whether a sub-function exists for an operation (R145, R152, R153). -/
def subOk (op sub : Nat) : Bool :=
  match op with
  | 1 => sub ≤ 3 | 2 => sub ≤ 1 | 3 => sub ≤ 1 | 4 => sub ≤ 1 | 5 => sub ≤ 2 | 6 => sub == 0 | 7 => sub == 0
  | 8 => 1 ≤ sub && sub ≤ 8 | 9 => 1 ≤ sub && sub ≤ 3 | 10 => sub ≤ 4 | _ => false

/-- Whether a descriptor is invalid (R153). -/
def Desc.invalid (d : Desc) : Bool :=
  !(1 ≤ d.op && d.op ≤ 10) || !subOk d.op d.sub || 11 ≤ d.fi || 11 ≤ d.fw || 11 ≤ d.fo ||
    !spaceOk d.saSp d.fi || (d.usesB && !spaceOk d.sbSp d.fi) || d.m == 0 || 256 < d.m || (d.op == 1 && 256 < d.k) ||
    (d.op == 5 && d.sub != 0 && (d.k != 0 || d.saSp != 1)) || 16 < d.dst + d.regs ||
    (d.op == 8 && !(d.fw == 8 || d.fw == 9 || d.fw == 4)) || (d.pages (List.range d.m)).any (0x1800 ≤ ·)

/-! ### Rows and domains (R147, R154) -/

/-- The group of a row; none where the rows belong to no domain (R147). -/
def Desc.group (d : Desc) (r : Nat) : Option Nat :=
  if d.rowmap = 0 then none else if d.rowmap = 63 then some 0 else some (r / d.rowmap)

/-- The domain of a row. -/
def Desc.rowDom (d : Desc) (dl : List Nat) (r : Nat) : Option Nat := (d.group r).map fun g => nth 255 dl g

/-- Whether rows of a domain are masked (R154). -/
def State.domMasked (s : State) (d : Nat) : Bool :=
  32 ≤ d || !s.enabled d || (s.dom d).loop == .idle || (s.dom d).loop == .ground

/-- Whether a row is masked. -/
def State.rowMasked (s : State) (d : Desc) (dl : List Nat) (r : Nat) : Bool := (d.rowDom dl r).any s.domMasked

/-- The rows that are not masked. -/
def State.liveRows (s : State) (d : Desc) (dl : List Nat) : List Nat := (List.range d.m).filter fun r => !s.rowMasked d dl r

/-- The 32-bit group mask of a status word (R154). -/
def State.groupMask (s : State) (d : Desc) (dl : List Nat) : Nat :=
  listMask (((List.range d.m).filter (s.rowMasked d dl)).filterMap d.group |>.filter (· < 32) |>.dedup)

/-! ### Operand spaces (R138, R139) -/

/-- A TERM value (R138). A domain of another class than C has no forecaster, and its term is 0 (R25). -/
def State.term (s : State) (q d : Nat) : Int :=
  let x := s.dom d
  match q with
  | 0 => x.vsetNext | 1 => x.liftNext | 2 => x.ffbNext
  | 3 => if s.modeNow = .efficient ∨ s.dclass d ≠ 0 then 0 else clampI x.fff (-128) 127
  | 4 => x.rPrev | 5 => x.vsetNext + x.liftNext | _ => 0

/-- Element `j` of a source as its raw pattern (R138, R139); what an index outside a space's list reads is log entry 73. -/
def State.source (s : State) (lane : Nat) (d : Desc) (dl : List Nat) (sp ix j : Nat) : Nat :=
  match sp with
  | 0 => (tget 0 (s.eng.lane lane).v ((ix + j) % 1024)).toNat
  | 1 => (s.point ((ix + j) % 512)).mean
  | 2 =>
    let i := ix + j
    if i < 192 then uext 16 (s.view i).itile else if 256 ≤ i ∧ i < 448 then (s.view (i - 256)).vsns else 0
  | 3 => let i := ix + nth 255 dl ((d.group j).getD 0); uext 16 (s.term (i / 32) (i % 32))
  | 4 => uext 32 (tget 0 s.eng.fin (64 * nth 255 dl 0 + ix + j))
  | 5 => tget 0 s.eng.cntPrev (ix + j)
  | _ => 0

/-! ### Minimum sense (R75, R77, R80, R148) -/

/-- The trusted points whose word of the sample arrived (R77, R384). -/
def State.trustedPts (s : State) (d : Nat) : List Nat :=
  (s.domPoints d).filter fun p => (s.point p).trusted && (s.point p).valid

/-- The smallest mean of some points with the lowest-numbered point that has it, mV. -/
def State.minPoint (s : State) (l : List Nat) : Option (Nat × Nat) :=
  l.foldl (fun a p => let v := (s.point p).mean; match a with
    | none => some (v, p)
    | some (w, q) => if v < w then some (v, p) else some (w, q)) none

/-- The smallest TREP VSNS of the working tiles, set-point code (R80). -/
def State.minTile (s : State) (d : Nat) : Option Nat :=
  (s.dworking d).foldl (fun a t => let v := (s.view t).vsns; some (match a with | none => v | some w => min v w)) none

/-- vmin of a domain as a set-point code, and its source point (R77, R80). -/
def State.vminOf (s : State) (d : Nat) : Option (Nat × Option Nat) :=
  match s.minPoint (s.trustedPts d) with
  | some (v, p) => some (2 * v, some p)
  | none => (s.minTile d).map fun v => (v, none)

/-! ### Row results (R145) -/

/-- What a row answers: its accumulator, and whether SAT, EMPTY or TREPFB are set. -/
structure RowRes where
  acc : Acc
  sat : Bool := false
  empty : Bool := false
  trepfb : Bool := false
  deriving DecidableEq, Repr

/-- Weight W[r][k] of a MATVEC (R136). -/
def State.weight (s : State) (d : Desc) (r k : Nat) : Nat :=
  if d.fw = 0 then
    let b := r / 16 * cdiv d.k 16 + k / 16
    let byte := s.page (d.wpage + b / 2) (128 * (b % 2) + 8 * (r % 16) + k % 16 / 2) 1
    if k % 2 = 0 then byte % 16 else byte / 16
  else
    let c := d.cols
    let w := fmtW d.fw / 8
    s.page (d.wpage + r / 16 * cdiv d.k c + k / c) (16 * (r % 16) + k % c * w) w

/-- An activation (R145): 1 max(a, 0), 2 clamp(a, −1, 1), 3 clamp(a, 0, IMM). -/
def Desc.activate (d : Desc) (sub : Nat) (a : Acc) : Acc :=
  let p := d.path
  let one : Acc := if p.flt then .flt (.num 1 false) else .int (2 ^ p.frac)
  match sub with
  | 1 => if a.isNan then a else if a.lt p.zero then p.zero else a
  | 2 => a.clamp one.opp one
  | 3 => a.clamp p.zero (p.imm d.fw d.imm)
  | _ => a

/-- A MATVEC row: bias, then the products in ascending column order, each addition in range (R141, R145, R155). -/
def State.matvec (s : State) (lane : Nat) (d : Desc) (dl : List Nat) (r : Nat) : RowRes :=
  let p := d.path
  let start := if d.bias then p.coef (s.page (d.apage + r / 64) (4 * (r % 64)) 4) else p.zero
  let (a, f) := (List.range d.k).foldl (fun (a, f) k =>
    let (b, g) := p.add a (p.mulRaw d.fi (s.source lane d dl d.saSp d.saIx k) d.fw (s.weight d r k))
    (b, f || g)) (start, false)
  { acc := d.activate d.sub a, sat := f }

/-- The minimum of accumulators; NaN where one is NaN. -/
def minAcc : List Acc → Option Acc
  | [] => none
  | a :: l => some (l.foldl (fun m x => if m.isNan then m else if x.isNan ∨ x.lt m then x else m) a)

/-- A piecewise-linear table read (R151). -/
def State.lut (s : State) (d : Desc) (a : Acc) : Acc :=
  let p := d.path
  let n := d.imm % 64
  let x (i : Nat) : Acc := p.coef (s.page d.apage (8 * i) 4)
  let y (i : Nat) : Acc := p.coef (s.page d.apage (8 * i + 4) 4)
  if a.isNan then a
  else if a.lt (x 0) then y 0
  else if n = 0 ∨ ¬ a.lt (x (n - 1)) then y (n - 1)
  else
    let i := ((List.range (n - 1)).filter fun i => !(a.lt (x i))).foldl max 0
    let q := p.rat (y i) + (p.rat a - p.rat (x i)) * (p.rat (y (i + 1)) - p.rat (y i)) / (p.rat (x (i + 1)) - p.rat (x i))
    if p.flt then .flt (fp32 q false) else .int (fit32 d.wrap (rne (q * (2 ^ p.frac : Nat)))).1

/-- One row of an operation that gives an accumulator (R145, R148). -/
def State.row (s : State) (lane : Nat) (d : Desc) (dl : List Nat) (r : Nat) : RowRes :=
  let p := d.path
  let a := s.source lane d dl d.saSp d.saIx r
  match d.op with
  | 1 => s.matvec lane d dl r
  | 2 =>
    let b := p.operand d.fi (s.source lane d dl d.sbSp d.sbIx r)
    let (x, f) := p.add (p.operand d.fi a) (if d.sub = 1 then b.opp else b)
    { acc := x, sat := f }
  | 3 =>
    let c := if d.sub = 1 then p.coef (s.page (d.wpage + r / 64) (4 * (r % 64)) 4) else p.imm d.fw d.imm
    let (x, f) := p.fit (p.mulCoef d.fi a c)
    { acc := x, sat := f }
  | 4 =>
    let lo := if d.sub = 1 then (p.imm d.fw d.imm).opp else p.coef (s.page (d.wpage + r / 32) (8 * (r % 32)) 4)
    let hi := if d.sub = 1 then p.imm d.fw d.imm else p.coef (s.page (d.wpage + r / 32) (8 * (r % 32) + 4) 4)
    { acc := (p.operand d.fi a).clamp lo hi }
  | 5 =>
    if d.sub = 0 then
      match minAcc ((List.range d.k).map fun k => p.operand d.fi (s.source lane d dl d.saSp d.saIx (r * d.k + k))) with
      | some x => { acc := x }
      | none => { acc := p.zero, empty := true }
    else
      let dom := (d.rowDom dl r).getD 255
      match s.minPoint (s.trustedPts dom) with
      | some (v, _) => { acc := p.operand 2 v }
      | none =>
        if d.sub = 1 then { acc := p.zero, empty := true }
        else match s.minTile dom with
          | some v => { acc := if p.flt then .flt (fp32 ((v : Rat) / 2) false) else .int (rne ((v : Rat) * (2 ^ p.frac : Nat) / 2)), trepfb := true }
          | none => { acc := p.zero, empty := true }
  | 6 => { acc := s.lut d (p.operand d.fi a) }
  | 9 => { acc := d.activate d.sub (p.operand d.fi a) }
  | _ => { acc := p.operand d.fi a }

/-! ### Control laws (R69, R70, R149, R150) -/

/-- The FP32 state of a PID row: integrator, previous error, previous output. -/
structure PidSt where
  i : FV
  e : FV
  u : FV
  deriving DecidableEq, Repr

/-- The lines of R69 from e to u_prev, in FP32; the flag tells |u| = u_lim. -/
def pidStep (kp ki kd lim : FV) (x : PidSt) (r vmin : FV) : FV × PidSt × Bool :=
  let z : FV := .num 0 false
  let e := r.add vmin.opp
  let usat := (x.u == lim && z.lt e) || (x.u == lim.opp && e.lt z)
  let i := if usat then x.i else (x.i.add (ki.mul e)).clamp lim.opp lim
  let u := (((kp.mul e).add i).add (kd.mul (e.add x.e.opp))).clamp lim.opp lim
  (u, ⟨i, e, u⟩, u == lim || u == lim.opp)

/-- One relay switch of the running tune: a rising switch closes a cycle with its swing (R85). -/
def Tune.switch (x : Tune) (hi : Bool) (now vmin : Nat) : Tune :=
  if hi = x.hi then x
  else if hi then
    { x with hi := true, lastSwitch := now, rises := now :: x.rises, lo := vmin, hiV := vmin
             swings := if x.rises.isEmpty then [] else (x.hiV - x.lo) :: x.swings }
  else { x with hi := false, lastSwitch := now }

/-- The relay's next position for an error in set-point codes (R85). -/
def relayHi (hi : Bool) (e : FV) : Bool :=
  if (FV.num 1 false).lt e then true else if e.lt (.num (-1) true) then false else hi

/-- Runs the relay of a tuned domain and answers u around `u0`, in set-point codes (R85). -/
def State.relay (s : State) (d : Nat) (e u0 : FV) : FV × State :=
  match s.inst.tuneRun with
  | none => (u0, s)
  | some t =>
    let hi := relayHi t.hi e
    (u0.add (.num (if hi then 10 else -10) (!hi)), s.updInst fun n => { n with tuneRun := some (t.switch hi s.time (s.dom d).vmin) })

/-- Writes one V element of a lane. -/
def State.putV (s : State) (lane i : Nat) (w : BitVec 32) : State :=
  s.updEng fun e => e.setLane lane { e.lane lane with v := tset 0 (e.lane lane).v i w }

/-- The loop state that a row's law follows; rows of no domain run as CLOSED. -/
def State.rowLoop (s : State) (d : Desc) (dl : List Nat) (r : Nat) : LoopState :=
  match d.rowDom dl r with
  | some k => (s.dom k).loop
  | none => .closed

/-- Reports a law's saturation to the field core (R84, R149). -/
def State.reportSat (s : State) (d : Desc) (dl : List Nat) (r : Nat) (sat : Bool) (u : FV) : State :=
  match d.rowDom dl r with
  | some k => s.updDom k fun x => { x with uSat := sat, uPos := (FV.num 0 false).lt u }
  | none => s

/-- One PID-STEP row (R149): u, the state registers, the report. In the first sample after TUNE u_prev is u0 (R87). -/
def State.pidRow (s : State) (lane : Nat) (d : Desc) (dl : List Nat) (r : Nat) : FV × State :=
  let at_ (k : Nat) : Nat := 64 * (d.dst + k) + r
  let v (k : Nat) : FV := .of32 (tget 0 (s.eng.lane lane).v (at_ k))
  let flt (w : Nat) : FV := match ({ flt := true, frac := 0, wrap := false } : Path).operand d.fi w with
    | .flt x => x
    | .int n => .ofInt n
  let a := flt (s.source lane d dl d.saSp d.saIx r)
  let b := flt (s.source lane d dl d.sbSp d.sbIx r)
  let put (s : State) (x : PidSt) : State :=
    ((s.putV lane (at_ 1) x.i.bits32).putV lane (at_ 2) x.e.bits32).putV lane (at_ 3) x.u.bits32
  let z : FV := .num 0 false
  match s.rowLoop d dl r with
  | .ramp => (z, (put s ⟨z, z, z⟩).reportSat d dl r false z)
  | .tune =>
    let e := a.add b.opp
    let (u, s) := s.relay ((d.rowDom dl r).getD 255) e (v 1)
    (u, (put s ⟨v 1, e, v 3⟩).reportSat d dl r false u)
  | .closed | .idle | .ground =>
    let pg := d.wpage + r / 32
    let k (o : Nat) : FV := .num ((s.page pg (8 * (r % 32) + o) 2 : Rat) / 256) false
    let lim : FV := .ofInt (s.page pg (8 * (r % 32) + 6) 2)
    let out := (d.rowDom dl r).any fun m => (s.dom m).tuneOut
    let (u, x, sat) := pidStep (k 0) (k 2) (k 4) lim ⟨v 1, v 2, if out then v 1 else v 3⟩ a b
    (u, (put s x).reportSat d dl r sat u)

/-- One SS-STEP row of order n (R150). In TUNE the relay moves around C x (log entry 21). -/
def State.ssRow (s : State) (lane : Nat) (d : Desc) (dl : List Nat) (r : Nat) : FV × State :=
  let n := d.sub
  let xi (j : Nat) : Nat := 64 * (d.dst + 1) + r * n + j
  let flt (w : Nat) : FV := match ({ flt := true, frac := 0, wrap := false } : Path).operand d.fi w with
    | .flt x => x
    | .int k => .ofInt k
  let e := (flt (s.source lane d dl d.saSp d.saIx r)).add (flt (s.source lane d dl d.sbSp d.sbIx r)).opp
  let cf (o : Nat) : FV := match ({ flt := true, frac := 0, wrap := false } : Path).operand d.fw (s.page (d.wpage + r) o 2) with
    | .flt x => x
    | .int k => .ofInt k
  let z : FV := .num 0 false
  let x := (List.range n).map fun j => FV.of32 (tget 0 (s.eng.lane lane).v (xi j))
  let dot (o : Nat) : FV := (List.range n).foldl (fun a j => a.add ((cf (o + 2 * j)).mul (nth z x j))) z
  let lim : FV := .ofInt (s.page (d.wpage + r) 0xA2 2)
  let put (s : State) (l : List FV) : State := forIdx n (fun j s => s.putV lane (xi j) (nth z l j).bits32) s
  match s.rowLoop d dl r with
  | .ramp => (z, (put s (List.replicate n z)).reportSat d dl r false z)
  | .tune =>
    let (u, s) := s.relay ((d.rowDom dl r).getD 255) e (dot 0x90)
    (u, s.reportSat d dl r false u)
  | .closed | .idle | .ground =>
    let raw := (dot 0x90).add ((cf 0xA0).mul e)
    let u := raw.clamp lim.opp lim
    let drives := (lim.lt raw && z.lt e) || (raw.lt lim.opp && e.lt z)
    let s := if drives then s else
      put s ((List.range n).map fun i => (dot (2 * n * i)).add ((cf (0x80 + 2 * i)).mul e))
    (u, s.reportSat d dl r (u == lim || u == lim.opp) u)

/-! ### Running one descriptor -/

/-- How a descriptor ended. -/
inductive DescEnd where
  | ok
  | invalid
  | nan
  | chk (pages : List Nat)
  deriving DecidableEq, Repr

/-- Leaves a status word in the lane (R156, R403). -/
def State.putStatus (s : State) (lane prog i flags mask : Nat) : State :=
  s.updEng fun e => e.setLane lane { e.lane lane with status := flags + 256 * mask, desc := i, prog := prog }

/-- The status flags of R156. -/
def flagsOf (sat nan empty trepfb masked chk pre : Bool) : Nat :=
  b2n sat + 2 * b2n nan + 4 * b2n empty + 8 * b2n trepfb + 16 * b2n masked + 32 * b2n chk + 64 * b2n pre

/-- U_LIM of the PID-STEP or SS-STEP row of a program for a domain, a set-point code; none for a law without one. -/
def State.progLim (s : State) (p : Prog) (dom : Nat) : Option Nat :=
  (List.range p.ndesc).findSome? fun i =>
    let k := s.desc p i
    if k.op = 7 ∨ k.op = 8 then ((List.range k.m).find? fun r => k.rowDom p.dlist r == some dom).map fun r =>
      if k.op = 7 then s.page (k.wpage + r / 32) (8 * (r % 32) + 6) 2 else s.page (k.wpage + r) 0xA2 2
    else none

/-- The VREF of a domain's law for an emitted code: in CLOSED its u, what it adds to VSET and lift, is held to ±U_LIM whatever the
law (R69). A law without PID-STEP and SS-STEP has the default U_LIM, reports its own saturation (R84), and in TUNE yields to
the relay around its last u (R85; log entry 71). -/
def State.emitVref (s : State) (p : Prog) (dom : Nat) (n : Int) : State :=
  let x := s.dom dom
  let base : Int := x.vsetNext + x.liftNext
  let put (s : State) (v : Int) : State := s.updDom dom fun x => { x with emVref := (clampI v 0 2200).toNat }
  match x.loop, s.progLim p dom with
  | .closed, some l =>
    (put s (base + clampI (n - base) (-l) l)).updDom dom fun x => { x with uSat := x.uSat || decide ((l : Int) < |n - base|) }
  | .closed, none =>
    let u := clampI (n - base) (-120) 120
    (put s (base + u)).updDom dom fun x => { x with uLast := u, uSat := u == 120 || u == -120, uPos := decide (0 < u) }
  | .tune, none =>
    match s.relay dom ((FV.ofInt x.rPrev).add (FV.ofInt x.vmin).opp) (.ofInt x.uLast) with
    | (.num q _, t) => put t (base + rne q)
    | (_, t) => put t base
  | .tune, some _ => put s n
  | .idle, _ => put s n
  | .ramp, _ => put s n
  | .ground, _ => put s n

/-- The EMIT of one row (R152): its code saturates whatever WRAP says. The flags tell SAT and a NaN. A forecaster term needs a C
domain (R25). -/
def State.emitRow (s : State) (lane : Nat) (q : Prog) (d : Desc) (r : Nat) : State × Bool × Bool :=
  let p : Path := { d.path with wrap := false }
  let w := s.row lane d q.dlist r
  let dom := (d.rowDom q.dlist r).getD 255
  let emit (lo hi : Int) (f : Int → State) : State × Bool × Bool :=
    match p.code d.exp lo hi w.acc with
    | some n => (f n, w.sat || p.past d.exp lo hi w.acc, false)
    | none => (s, w.sat, true)
  match d.sub with
  | 0 => emit 0 2200 fun n => s.emitVref q dom n
  | 1 => emit (-512) 511 fun n => s.updDom dom fun x => { x with emFf := n }
  | 2 => emit (-32768) 32767 fun n => if s.dclass dom = 0 then s.updDom dom fun x => { x with fffEm := n } else s
  | 3 =>
    let (e, nan, sat) := p.result d.fo d.exp w.acc
    (if nan then s else s.updEng fun g => { g with slots := tset 0 g.slots ((d.imm + r) % 256) (toElem d.fo e) }, w.sat || sat, nan)
  | _ => emit 0 (2 ^ 32 - 1) fun n => s.updDom dom fun x => { x with attrMw := n.toNat }

/-- Completes one descriptor of a program on a lane. `fails` lists the pages that failed their checksum as the feeder streamed
them (R164). -/
def State.runDesc (s : State) (lane : Nat) (p : Prog) (i : Nat) (fails : List Nat) : State × DescEnd :=
  let d := s.desc p i
  let dl := p.dlist
  if d.invalid then (s, .invalid)
  else
    let live := s.liveRows d dl
    let mask := s.groupMask d dl
    let masked := live.length != d.m
    if !fails.isEmpty then (s.putStatus lane p.idx i (flagsOf false false false false masked true false) mask, .chk fails)
    else if d.op = 10 then
      let (t, sat, nan) := live.foldl (fun (t, f, n) r => let (u, g, m) := t.emitRow lane p d r; (u, f || g, n || m)) (s, false, false)
      if nan then (s.putStatus lane p.idx i (flagsOf sat true false false masked false false) mask, .nan)
      else (t.putStatus lane p.idx i (flagsOf sat false false false masked false false) mask, .ok)
    else
      let pth := d.path
      let one (x : State × List (Nat × BitVec 32) × Bool × Bool × Bool × Bool) (r : Nat) :=
        let (t, out, sat, nan, emp, fb) := x
        if d.op = 7 ∨ d.op = 8 then
          let (u, t) := if d.op = 7 then t.pidRow lane d dl r else t.ssRow lane d dl r
          let (w, n, f) := ({ flt := true, frac := 0, wrap := d.wrap } : Path).result d.fo d.exp (.flt u)
          (t, (r, toElem d.fo w) :: out, sat || f, nan || n, emp, fb)
        else
          let q := s.row lane d dl r
          let (w, n, f) := pth.result d.fo d.exp q.acc
          (t, (r, toElem d.fo (if q.empty then fmtLargest d.fo else w)) :: out, sat || f || q.sat, nan || n, emp || q.empty, fb || q.trepfb)
      let (t, out, sat, nan, emp, fb) := live.foldl one (s, [], false, false, false, false)
      if nan then (s.putStatus lane p.idx i (flagsOf sat true emp fb masked false false) mask, .nan)
      else
        let mv := ((List.range d.m).filter (s.rowMasked d dl)).map fun r =>
          (r, BitVec.ofNat 32 (s.page p.hp (48 + 4 * (((d.group r).getD 0) % 32)) 4))
        let t := forL (out ++ mv) (fun (r, w) t => t.putV lane (64 * d.dst + r) w) t
        let t := t.updEng fun e => e.setLane lane { e.lane lane with prevLoad := d.nextLoad live (e.lane lane).prevLoad }
        (t.putStatus lane p.idx i (flagsOf sat false emp fb masked false false) mask, .ok)

/-- L of R145: the cycles that load the stationary bank of a MATVEC. -/
def State.bankLoad (s : State) (lane : Nat) (d : Desc) : Nat :=
  if d.op ≠ 1 ∨ (s.eng.lane lane).prevLoad = some (d.saSp, d.saIx, d.k, d.fi) then 0 else cdiv d.k 64

/-- The cycles of a descriptor with the pages that its feeder streams in each (R134, R145): one, the bank load, the body. -/
def State.plan (s : State) (lane : Nat) (d : Desc) (dl : List Nat) : List (List Nat) :=
  [] :: (List.replicate (s.bankLoad lane d) [] ++ d.body (s.liveRows d dl))

/-- The cycles a descriptor costs (R145). -/
def State.descCost (s : State) (lane : Nat) (d : Desc) (dl : List Nat) : Nat :=
  let m := (s.liveRows d dl).length
  1 + match d.op with
    | 1 => if d.k = 0 then cdiv m 16 else s.bankLoad lane d + cdiv m 16 * cdiv d.k d.cols
    | 5 => if d.sub = 0 then cdiv (m * d.k) 256 else 2 + cdiv m 16
    | 6 => cdiv m 16 + 1
    | 7 => 4 * cdiv m 16
    | 8 => 2 * m
    | _ => cdiv m 16

end Sys2Proof.Machine
end

