-- ==== Sys2Proof/Machine/Sched.lean ====
section
/-!
DEFINITION. Skelrak's schedule (R157 to R171): the placement of lanes on arrays, the activity windows of a sample, the
fall-backs of programs, the safe law, bad pages and their recheck, and the retirement of arrays.
-/

namespace Sys2Proof.Machine

/-! ### Placement and windows (R160, R168) -/

/-- The arrays that work under a set of retired arrays, each with the lanes it carries (R168). -/
def placement (ret : Nat) : List (Nat × List Nat) :=
  match (List.range 4).filter fun a => !bit ret a with
  | [_, _, _, _] => [(0, [0]), (1, [1]), (2, [2]), (3, [3])]
  | [a, b, c] => if bit ret 0 ∨ bit ret 1 then [(a, [0, 1]), (b, [2]), (c, [3])] else [(a, [0]), (b, [1]), (c, [2, 3])]
  | [a, b] => [(a, [0, 1]), (b, [2, 3])]
  | [a] => [(a, [0, 1])]
  | _ => []

/-- First and last-plus-one cycle of the domain-loop, forecaster and attribution windows (R160). -/
def State.window (s : State) (act : Nat) : Nat × Nat :=
  let a := s.eng.bDl / 16
  let b := a + s.eng.bFc / 16
  match act with
  | 0 => (0, a) | 1 => (a, b) | _ => (b, b + s.eng.bAt / 16)

/-! ### The safe law (R70, R165) -/

/-- The work item that stands for the safe law in place of a program. -/
def safeMark : Nat := 256

/-- One sample of the safe law for a domain (R70). -/
def safeDom (d : Nat) (s : State) : State :=
  if s.domMasked d then s
  else
    let x := s.dom d
    let z : FV := .num 0 false
    let emit (s : State) (u : FV) : State := s.updDom d fun x =>
      let v : Int := (x.vsetNext : Int) + x.liftNext
      { x with
        emVref := (match u with | .num q _ => clampI (rne (v + q)) 0 2200 | .inf n => if n then 0 else 2200 | .nan => v).toNat
        emFf := clampI (x.ffbNext + s.term 3 d) (-512) 511 }
    match s.vminOf d with
    | none => s
    | some (vmin, _) =>
      let e := (FV.ofInt x.rPrev).add (FV.ofInt vmin).opp
      match x.loop with
      | .ramp => emit (s.updDom d fun x => { x with safeI := 0, safeE := 0, safeU := 0, uSat := false }) z
      | .tune =>
        let (u, s) := s.relay d e (.of32 x.safeI)
        emit (s.updDom d fun x => { x with safeE := e.bits32, uSat := false }) u
      | .closed | .idle | .ground =>
        let (u, p, sat) := pidStep (.num (1 / 4) false) (.num (1 / 32) false) z (.ofInt 60)
          ⟨.of32 x.safeI, .of32 x.safeE, .of32 (if x.tuneOut then x.safeI else x.safeU)⟩ (.ofInt x.rPrev) (.ofInt vmin)
        emit (s.updDom d fun x => { x with
          safeI := p.i.bits32, safeE := p.e.bits32, safeU := p.u.bits32, uSat := sat, uPos := z.lt u }) u

/-- The integrator of a program's PID-STEP for a domain, held to ±30 mV, or 0 (R165). -/
def State.carriedI (s : State) (p : Prog) (d : Nat) : BitVec 32 :=
  match (List.range p.ndesc).find? fun i => (s.desc p i).op == 7 with
  | none => 0
  | some i =>
    let k := s.desc p i
    match (List.range k.m).find? fun r => k.rowDom p.dlist r == some d with
    | none => 0
    | some r => ((FV.of32 (tget 0 (s.eng.lane p.lane).v (64 * (k.dst + 1) + r))).clamp (.ofInt (-60)) (.ofInt 60)).bits32

/-! ### Fall-backs and bad pages (R165) -/

/-- Whether a program holds an EMIT to a target (R152). -/
def State.emits (s : State) (p : Prog) (sub : Nat) : Bool :=
  (List.range p.ndesc).any fun i => (s.desc p i).op == 10 && (s.desc p i).sub == sub

/-- The fall-back of a program (R165): HOLD keeps the last values, SAFE runs the safe law from the next sample, STOPFF
writes 0 to its FF and fff EMITs and suppresses ballast. -/
def State.fallBack (s : State) (p : Prog) : State :=
  let s := s.updEng fun e => { e with fell := p.idx :: e.fell.filter (· != p.idx) }
  forL (p.dlist.filter (· < 32)) (fun d s => s.updDom d fun x =>
    match p.fallback with
    | 1 => if x.safeLaw then { x with fallback := true }
      else { x with fallback := true, safeLaw := true, safeI := s.carriedI p d, safeE := 0, safeU := 0 }
    | 2 => { x with fallback := true, emFf := if s.emits p 1 then 0 else x.emFf, fffEm := if s.emits p 2 then 0 else x.fffEm, balSup := true }
    | _ => { x with fallback := true }) s

/-- A feeder finds a page failing: it is bad from then on, and ENG_PAGE_CHK names it once per frame (R165). -/
def markBad (a pg : Nat) (s : State) : State :=
  let b := tget none s.eng.bad pg
  let fr := frameOf s.time
  match b with
  | some x =>
    if x.raised = fr then s
    else (s.updEng fun e => { e with bad := tset none e.bad pg (some { x with raised := fr }) }).raise cEngPageChk (mkSrc 7 a) pg
  | none =>
    (s.updEng fun e => { e with bad := tset none e.bad pg (some { array := a, since := fr, raised := fr }) }).raise
      cEngPageChk (mkSrc 7 a) pg

/-- Every table page that a program's descriptors read. -/
def State.progPages (s : State) (p : Prog) : List Nat :=
  (List.range p.ndesc).flatMap fun i => let d := s.desc p i; d.pages (List.range d.m)

/-- A program's fall-back ends at the first sample of the frame after its own pages are good (R70, R165); what a domain shows is that
of the programs whose fall-back stays. -/
def State.restoreLaws (s : State) : State :=
  let stays (p : Nat) : Bool := match s.prog p with
    | some q => (s.progPages q).any fun g => (tget none s.eng.bad g).isSome
    | none => false
  let fell := if s.eng.bad.isEmpty then [] else s.eng.fell.filter stays
  let s := s.updEng fun e => { e with fell := fell }
  let on := fell.filterMap s.prog
  forIdx 32 (fun d s =>
    let mine := on.filter fun q => q.dlist.contains d
    s.updDom d fun x => { x with
      fallback := !mine.isEmpty, safeLaw := mine.any (·.fallback == 1), balSup := mine.any (·.fallback == 2) }) s

/-! ### Page checksums (R164) -/

/-- CRC-32 of R164 over bytes: reflected, initial and final value of ones. -/
def crc32Step (c : Nat) (b : BitVec 8) : Nat :=
  (List.range 8).foldl (fun c _ => if bit c 0 then (c / 2) ^^^ 0xEDB88320 else c / 2) (c ^^^ b.toNat)

/-- CRC-32 of R164. -/
def crc32 (l : List (BitVec 8)) : Nat := (l.foldl crc32Step 0xFFFFFFFF) ^^^ 0xFFFFFFFF

/-- The checksum of a page with given data (R164). -/
def pageCrc (pg : Nat) (data : List (BitVec 8)) : BitVec 32 :=
  BitVec.ofNat 32 (crc32 (BitVec.ofNat 8 (pg % 256) :: BitVec.ofNat 8 (pg / 256) :: data))

/-- The 256 bytes of a page. -/
def State.pageBytes (s : State) (pg : Nat) : List (BitVec 8) := readBytes 0 s.eng.mem (256 * pg) 256

/-! ### Running a window -/

/-- The work left of a lane: program and descriptor. -/
abbrev Work := List (Nat × Nat)

/-- A state and the domains whose VREF EMIT has completed, or need none, in this sample. -/
structure WinSt where
  s : State
  done : List Nat

/-- The first cycle in which the next descriptor of a lane can start (R138, R146): SENSE is valid from cycle 8. -/
def State.workReady (s : State) (c : Nat) : Work → Nat
  | [] => c
  | (p, i) :: _ =>
    match s.prog p with
    | none => c
    | some q =>
      let d := s.desc q i
      if i ≠ safeMark ∧ (d.saSp = 1 ∨ (d.usesB ∧ d.sbSp = 1)) then max c 8 else c

/-- The cycles of a work item that starts at cycle `c`, with the pages streamed in each (R145, R165). -/
def State.workPlan (s : State) (lane c p i : Nat) : List (List Nat) :=
  match s.prog p with
  | none => [[]]
  | some q =>
    if i = safeMark then
      let x := 4 * (cdiv q.dlist.length 16 - 1)
      List.replicate (max (17 + x) (23 + x - c)) []
    else if (s.desc q i).invalid then [[]]
    else s.plan lane (s.desc q i) q.dlist

/-- A program stops with its fall-back: its domains send what their targets hold. -/
def WinSt.stop (w : WinSt) (q : Prog) : WinSt := ⟨w.s.fallBack q, w.done ++ q.dlist⟩

/-- Completes one work item; answers the program's next descriptor, none where it ends (R153, R156, R157, R164, R165). -/
def WinSt.work (w : WinSt) (lane p i : Nat) (fails : List Nat) : WinSt × Work :=
  match w.s.prog p with
  | none => (w, [])
  | some q =>
    if i = safeMark then (⟨forL (q.dlist.filter (· < 32)) safeDom w.s, w.done ++ q.dlist⟩, [])
    else
      let (t, e) := w.s.runDesc lane q i fails
      match e with
      | .ok =>
        let d := t.desc q i
        let dn := if d.op = 10 ∧ d.sub = 0 then (t.liveRows d q.dlist).filterMap (d.rowDom q.dlist) else []
        (⟨t, w.done ++ dn⟩, if d.last ∨ q.ndesc ≤ i + 1 then [] else [(p, i + 1)])
      | .invalid => ((⟨t.raiseInst cEngDesc 0, w.done⟩ : WinSt).stop q, [])
      | .nan => ((⟨t.raiseInst cEngNan 0, w.done⟩ : WinSt).stop q, [])
      | .chk _ => ((⟨t, w.done⟩ : WinSt).stop q, [])

/-- Counts a clock of an array (R340, R341): 0 BUSY, 2 a wait for a source that is not yet valid, 3 a bank conflict. -/
def WinSt.count (w : WinSt) (a k : Nat) : WinSt := ⟨w.s.countEng a k 1, w.done⟩

/-- Whether the stored checksum of a page agrees with its data; a page never written holds the checksum of zeros. -/
def State.chkAgrees (s : State) (pg : Nat) : Bool :=
  match tget none s.eng.chk pg with
  | some c => c == pageCrc pg (s.pageBytes pg)
  | none => (s.pageBytes pg).all (· == 0)

/-- Whether a page fails in the feeder of an array: it is bad, its checksum disagrees, or the feeder's read of it is upset (R164,
R165). -/
def State.pageFails (s : State) (a : Nat) (ups : List (Nat × Nat)) (pg : Nat) : Bool :=
  (tget none s.eng.bad pg).isSome || ups.contains (a, pg) || !s.chkAgrees pg

/-- A descriptor in flight on an array: its lane and place, the cycles left with their pages, and the pages that failed. -/
structure Flight where
  lane : Nat
  p : Nat
  i : Nat
  left : List (List Nat)
  fails : List Nat

/-- An array in a window: its lanes, whose turn it is, what each has left, and the descriptor in flight. -/
structure ArrSt where
  a : Nat
  l0 : Nat
  l1 : Nat
  second : Bool
  q0 : Work
  q1 : Work
  run : Option Flight

/-- Whether an array has nothing left to do. -/
def ArrSt.over (x : ArrSt) : Bool := x.run.isNone && x.q0.isEmpty && x.q1.isEmpty

/-- An idle array starts the descriptor whose turn it is at cycle `c`; a lane that must wait leaves the turn to the other (R169). -/
def ArrSt.start (x : ArrSt) (s : State) (c : Nat) : ArrSt :=
  if x.run.isSome then x
  else
    let ok (q : Work) : Bool := !q.isEmpty && s.workReady c q ≤ c
    let pick (l : Nat) (q : Work) : Option Flight := q.head?.map fun (p, i) => ⟨l, p, i, s.workPlan l c p i, []⟩
    if ok x.q1 && (x.second || !ok x.q0) then { x with run := pick x.l1 x.q1, second := true }
    else if ok x.q0 then { x with run := pick x.l0 x.q0, second := false }
    else x

/-- The descriptor in flight has ended: its lane's work goes on, and the turn passes to the other lane (R169). -/
def ArrSt.next (x : ArrSt) (nx : Work) : ArrSt :=
  if x.second then { x with run := none, second := false, q1 := nx ++ x.q1.tail } else { x with run := none, second := true, q0 := nx ++ x.q0.tail }

/-- One cycle of one array. `taken` are the banks that lower-numbered arrays read in this cycle: a feeder that needs one of them
waits (R137, R146). A page that fails is bad from this cycle on, and the descriptor ends with CHK (R164, R165). -/
def WinSt.cycle (w : WinSt) (ups : List (Nat × Nat)) (c : Nat) (x : ArrSt) (taken : List Nat) : WinSt × ArrSt × List Nat :=
  let x := x.start w.s c
  match x.run with
  | none => (if x.over then w else w.count x.a 2, x, taken)
  | some r =>
    let pgs := r.left.headD []
    if pgs.any fun g => taken.contains (g % 16) then (w.count x.a 3, x, taken)
    else
      let bad := pgs.filter (w.s.pageFails x.a ups)
      let w := w.count x.a 0
      let w : WinSt := ⟨forL bad (markBad x.a) w.s, w.done⟩
      let taken := taken ++ pgs.map (· % 16)
      if r.left.tail.isEmpty then
        let (w, nx) := w.work r.lane r.p r.i (r.fails ++ bad)
        (w, x.next nx, taken)
      else (w, { x with run := some { r with left := r.left.tail, fails := r.fails ++ bad } }, taken)

/-- One cycle of all arrays, in ascending number. -/
def WinSt.allArrays (ups : List (Nat × Nat)) (c : Nat) : List ArrSt → List Nat → WinSt → WinSt × List ArrSt
  | [], _, w => (w, [])
  | x :: l, taken, w =>
    let (w, x, taken) := w.cycle ups c x taken
    let (w, l) := WinSt.allArrays ups c l taken w
    (w, x :: l)

/-- The `n` cycles of a window from cycle `c` on, as far as there is work. -/
def WinSt.cycles (ups : List (Nat × Nat)) : Nat → Nat → List ArrSt → WinSt → WinSt × List ArrSt
  | 0, _, xs, w => (w, xs)
  | n + 1, c, xs, w =>
    if xs.all ArrSt.over then (w, xs)
    else
      let (w, xs) := WinSt.allArrays ups c xs [] w
      WinSt.cycles ups n (c + 1) xs w

/-- The descriptor in flight at the window's end is pre-empted: it writes nothing and sets PRE. With a page that had failed CHK is
set too, and the program's fall-back applies (R156, R163, R171). -/
def WinSt.pre (w : WinSt) (x : ArrSt) : WinSt × ArrSt :=
  match x.run with
  | none => (w, x)
  | some r =>
    match w.s.prog r.p with
    | none => (w, x)
    | some q =>
      if r.i = safeMark then (w, x)
      else
        let d := w.s.desc q r.i
        let chk := !r.fails.isEmpty
        let w : WinSt := ⟨w.s.putStatus r.lane r.p r.i (flagsOf false false false false ((w.s.liveRows d q.dlist).length != d.m) chk true)
          (w.s.groupMask d q.dlist), w.done⟩
        if chk then (w.stop q, x.next []) else (w, x)

/-- The work of a lane before a domain-loop window: every program from its first descriptor, the safe law where its
domains run it (R159, R165). -/
def State.loopWork (s : State) (lane : Nat) : Work :=
  (s.progsOf lane 0).map fun p => (p.idx, if p.dlist.any fun d => (s.dom d).safeLaw then safeMark else 0)

/-- The work left of a lane for an activity. -/
def State.laneWork (s : State) (act lane : Nat) : Work :=
  match act with
  | 0 => s.loopWork lane | 1 => (s.eng.lane lane).leftFc | _ => (s.eng.lane lane).leftAt

/-- Keeps the work a lane has left after a window (R163). -/
def State.keepWork (s : State) (act lane : Nat) (q : Work) : State :=
  s.updEng fun e => e.setLane lane (match act with
    | 0 => { e.lane lane with
        leftDl := q.map (·.1), doneDl := ((s.progsOf lane 0).map (·.idx)).filter fun p => !(q.map (·.1)).contains p }
    | 1 => { e.lane lane with leftFc := q }
    | _ => { e.lane lane with leftAt := q })

/-- The cycle at whose start a freeze stops the arrays, where its tick lies in the sample that starts now (R171, R351). -/
def State.freezeCycle (s : State) : Option Nat :=
  s.obs.tf.bind fun f => if s.time ≤ f ∧ f < s.time + 16 then some (4 * (f - s.time + 1)) else none

/-- An array at the start of a window. -/
def State.arrayIn (s : State) (act : Nat) (x : Nat × List Nat) : ArrSt :=
  let l0 := nth 0 x.2 0
  let l1 := nth l0 x.2 1
  ⟨x.1, l0, l1, false, s.laneWork act l0, if x.2.length = 2 then s.laneWork act l1 else [], none⟩

/-- The programs of the lanes of an array whose retirement is decided have not run: they take their fall-backs (R167). -/
def WinSt.abandon (act : Nat) (w : WinSt) (ls : List Nat) : WinSt :=
  ls.foldl (fun w l => ((w.s.laneWork act l).filterMap fun x => w.s.prog x.1).foldl WinSt.stop ⟨w.s.keepWork act l [], w.done⟩) w

/-- What an array leaves behind: the descriptor in flight is pre-empted, unless a freeze has cut it, and the work left is kept
(R163, R171). -/
def WinSt.leave (act : Nat) (cut : Bool) (w : WinSt) (x : ArrSt) : WinSt :=
  let (w, x) := if cut then (w, x) else w.pre x
  let keep (s : State) (l : Nat) (q : Work) : State := s.keepWork act l (if cut ∧ act = 0 then [] else q)
  let s := keep w.s x.l0 x.q0
  ⟨if x.l1 = x.l0 then s else keep s x.l1 x.q1, w.done⟩

/-- Runs one activity's window of a sample on every array, cycle by cycle (R159, R160). -/
def State.runWindow (s : State) (act : Nat) (ups : List (Nat × Nat)) : WinSt :=
  let (lo, hi) := s.window act
  let stop := min hi (s.freezeCycle.getD hi)
  let (gone, here) := (placement s.eng.retired).partition fun x => bit s.eng.retireNext x.1
  let w := gone.foldl (fun w x => WinSt.abandon act w x.2) ⟨s, []⟩
  let (w, xs) := WinSt.cycles ups (stop - lo) lo (here.map (w.s.arrayIn act)) w
  xs.foldl (WinSt.leave act (decide (stop < hi))) w

/-- The domain-loop window of a sample: the domains whose VREF was not emitted send the previous VREF with FF 0 (R163). -/
def State.runLoops (s : State) (ups : List (Nat × Nat)) : State :=
  let w := s.runWindow 0 ups
  let late := ((List.range 4).flatMap fun l => (w.s.eng.lane l).leftDl).filterMap w.s.prog |>.flatMap (·.dlist)
  forL (late.filter fun d => d < 32 && !w.done.contains d) (fun d s => s.updDom d fun x => { x with emFf := 0 }) w.s

/-! ### Pre-emption, recheck, retirement -/

/-- WINDOW_PREEMPT (R163): what follows for an activity with work left on a lane. -/
def execWindowPreempt (a : Activity) (l : Fin 4) (s : State) : Out :=
  let ln := s.eng.lane l
  match a with
  | .domainLoops =>
    if ln.leftDl.isEmpty then .next s
    else .next ((s.updEng fun e => e.setLane l { ln with leftDl := [] }).raiseInst cEngBudgetDl 0)
  | .forecaster =>
    if ln.leftFc.isEmpty ∨ s.time % (16 * s.eng.fcPer) < 16 * (s.eng.fcPer - 1) then .next s
    else
      let ds := (ln.leftFc.filterMap fun x => s.prog x.1).flatMap (·.dlist)
      let s := forL (ds.filter (· < 32)) (fun d s => s.updDom d fun x => { x with fff := 0, fffEm := 0 }) s
      let s := s.updEng fun e => e.setLane l { ln with leftFc := [] }
      let fr := frameOf s.time
      if s.eng.fcLateFr = some fr then .next s
      else .next ((s.updEng fun e => { e with fcLateFr := some fr }).raiseInst cEngFcstLate 0)
  | .attribution =>
    if ln.leftAt.isEmpty ∨ s.time % 256 < 240 then .next s
    else
      let s := s.updEng fun e => e.setLane l { ln with leftAt := [] }
      let fr := frameOf s.time
      if s.eng.atLateFr = some fr then .next s
      else .next ((s.updEng fun e => { e with atLateFr := some fr }).raiseInst cEngAttrLate 0)
  | .dumpsAndTrace => .next s
  | .supervisorTable => .next s

/-- The supervisor writes a page with its checksum (R164). -/
def State.writePage (s : State) (pg : Nat) (data : List (BitVec 8)) : State :=
  s.updEng fun e => { e with mem := writeBytes 0 e.mem (256 * pg) data, chk := tset none e.chk pg (some (pageCrc pg data)) }

/-- Writes a page as host-modified: the supervisor keeps a copy (R166). -/
def State.writeHostPage (s : State) (pg : Nat) (data : List (BitVec 8)) : State :=
  (s.writePage pg data).updEng fun e => { e with
    hmod := if e.hmod.contains pg then e.hmod else e.hmod ++ [pg], copies := writeBytes 0 e.copies (256 * pg) data }

/-- Changes a bad page's record. -/
def State.updBad (s : State) (pg : Nat) (f : BadPage → BadPage) : State :=
  s.updEng fun e => { e with bad := tset none e.bad pg ((tget none e.bad pg).map f) }

/-- A commit of the table window reaches its page at a window boundary (R171, R422): a bad page becomes good from the next
frame, and its pending reload is cancelled. -/
def State.landCommit (s : State) : State :=
  match s.eng.tblCommit with
  | none => s
  | some (pg, t) =>
    if s.time < t then s
    else
      let s := (s.writeHostPage pg (readBytes 0 s.eng.tblBuf 0 256)).updEng fun e => { e with
        tblCommit := none, loadPage := if e.loadPage = some pg then none else e.loadPage }
      s.updBad pg fun b => { b with goodAt := some (nextFrame s.time), asked := false, failed := false }

/-- Requests a page from the manager (R166, R216): PAGE_REQ carries the page address in [104:92]. While the manager is lost the
request waits (R234). -/
def State.askPage (s : State) (pg : Nat) : State :=
  let s := s.updBad pg fun b => { b with asked := true }
  if s.tth.mgrLost.isSome then s else s.toManager 0x11 1 (pg * 2 ^ 92)

/-- A host-modified page is restored from the supervisor's copy and read back; the cells decide whether it passes (R166). -/
def State.restorePage (s : State) (pg : Nat) : State :=
  let ok := Config.readBack s.fresh
  let s := { s with fresh := s.fresh + 1 }.writePage pg (readBytes 0 s.eng.copies (256 * pg) 256)
  if ok then (s.updBad pg fun b => { b with failed := false, goodAt := some (nextFrame s.time) }).endCause cEngPageReloadFail s.srcInst
  else (s.updBad pg fun b => { b with asked := true, failed := true }).raiseInst cEngPageReloadFail pg

/-- Reloads a page that fails: from the copy, or from the manager (R166). -/
def State.reloadPage (s : State) (pg : Nat) : State := if s.eng.hmod.contains pg then s.restorePage pg else s.askPage pg

/-- PAGE_RECHECK (R166): in the frame after the failure the supervisor reads the page through its own path. A page that
passes charges the array; a failing page is restored from the supervisor's copy or asked of the manager. -/
def execPageRecheck (pg : Fin 8192) (ok : Bool) (s : State) : Out :=
  match tget none s.eng.bad pg.val with
  | none => .next s
  | some b =>
    if frameOf s.time ≤ b.since ∨ b.asked ∨ b.goodAt.isSome ∨ s.grounded && s.inst.lockstep then .next s
    else if ok ∧ s.chkAgrees pg then
      .next ((s.updEng fun e => { e with charges := tset 0 e.charges b.array (tget 0 e.charges b.array + 1) }).updBad pg
        fun b => { b with goodAt := some (nextFrame s.time) })
    else .next (s.reloadPage pg)

/-- The budgets row of the image for a set of retired arrays takes effect, and `ENG_BUD*` show it (R161, R168, R404). The row of
the last array's retirement is unused: the budgets stay. -/
def State.takeBudgets (s : State) : State :=
  if s.eng.retired = 15 then s
  else
  let o := 16 * s.eng.retired
  let r (k : Nat) : Nat := s.cn 12 (o + 2 * k) 2
  s.updEng fun e => { e with
    bDl := r 0, bFc := r 1, bAt := r 2, bDt := r 3, bSv := r 4, need := r 5, fcPer := s.cb 12 (o + 12)
    budW := [r 0, r 1, r 2, r 3, r 4, s.cb 12 (o + 12)], budHost := false, budPend := none }

end Sys2Proof.Machine
end

