-- ==== Sys2Proof/Machine/Ballast.lean ====
section
/-!
DEFINITION. Launch tickets as the ticket unit computes with them (R99 to R127): the two ledgers, the ballast windows, the
lift and pre-bias of a domain, and the mismatch test.
-/

namespace Sys2Proof.Machine

/-! ### Tickets -/

/-- A ticket in a final state (R110). -/
def TkState.final : TkState → Bool
  | .done | .expired | .withdrawn => true
  | .requested | .queued | .granted | .armed | .launched | .running => false

/-- LAUNCHED or RUNNING. -/
def TkState.runs : TkState → Bool
  | .launched | .running => true
  | .requested | .queued | .granted | .armed | .done | .expired | .withdrawn => false

/-- GRANTED, ARMED, LAUNCHED or RUNNING: in the ledgers (R110). -/
def TkState.inLedger : TkState → Bool
  | .granted | .armed | .launched | .running => true
  | .requested | .queued | .done | .expired | .withdrawn => false

/-- The tickets that satisfy a test, in ascending identifier. -/
def State.tks (s : State) (f : Ticket → Bool) : List (Nat × Ticket) := s.tk.tickets.filter fun e => e.2.used && f e.2

/-- The domain of a ticket's cluster (R105). -/
def State.tkDom (s : State) (x : Ticket) : Option Nat := s.clusterDom x.cluster

/-- The tickets of a domain that satisfy a test. -/
def State.domTks (s : State) (d : Nat) (f : Ticket → Bool) : List (Nat × Ticket) :=
  (s.tks f).filter fun e => s.tkDom e.2 == some d

/-- The smallest slot not below a tick (R99). -/
def slotUp (t : Nat) : Nat := 8 * ((t + 7) / 8)

/-! ### Ledgers (R118, R119) -/

/-- The profiled increase in domain current in slot `j` of a run, 10 mA (R114). -/
def State.increase (s : State) (i j : Nat) : Nat := s.pfCurve i j * s.pfIscale i

/-- The rise of a profile in slot `j`, 10 mA; falls are not counted (R118). -/
def State.rise (s : State) (i j : Nat) : Nat :=
  if 64 ≤ j then 0 else s.increase i j - (if j = 0 then 0 else s.increase i (j - 1))

/-- The rise booked for a slot of a domain, 10 mA (R118). -/
def State.didtAt (s : State) (d slot : Nat) : Nat :=
  ((s.domTks d fun x => x.booked.isSome).map fun (_, x) =>
    let b := x.booked.getD 0
    if b ≤ slot then s.rise x.profile ((slot - b) / 8) else 0).sum

/-- The rise budget of a slot, 10 mA: DIDT_MAX × 32 ns, or the continuous ceiling (R115, R118). -/
def State.didtMaxSlot (s : State) (d : Nat) : Nat := if s.didtMax d = 0 then (s.dom d).ceil else 32 * s.didtMax d

/-- Whether a candidate fits the di/dt ledger: in each of the 64 slots, whatever its own rise there (R118). -/
def State.fitsDidt (s : State) (d prof slot : Nat) : Bool :=
  (List.range 64).all fun j => s.didtAt d (slot + 8 * j) + s.rise prof j ≤ s.didtMaxSlot d

/-- k_d: VTGT / VIN_f / 0.90, from a set-point code and mV (R119). Without a measured VIN_f the quotient is open (log
entry 8). -/
def kd (num den : Nat) : Rat := if den = 0 then Config.divByZero num else (5 * num : Rat) / (9 * den)

/-- The input current booked for a slot, 10 mA (R119). -/
def State.iinAt (s : State) (slot : Nat) : Rat :=
  ((s.tks fun x => x.booked.isSome).map fun (_, x) =>
    let b := x.booked.getD 0
    if b ≤ slot then s.increase x.profile ((slot - b) / 8) * kd x.kNum x.kDen else 0).sum

/-- Whether a candidate fits the field's input ledger in the pass at a tick (R119). -/
def State.fitsIin (s : State) (d prof slot t : Nat) : Bool :=
  let k := kd (s.dom d).vtgt s.lim.vinF
  let excess := max 0 ((s.lim.iin : Rat) - s.tk.iinMean)
  (List.range ((t + 4096 - slot + 7) / 8)).all fun j =>
    let own : Rat := s.increase prof j * k
    excess + s.iinAt (slot + 8 * j) + own ≤ s.iinLim

/-! ### Ballast windows (R121) -/

/-- The largest sample boundary not above a tick with the parity of STG. -/
def boundDown (stg t : Nat) : Nat :=
  let b := 16 * (t / 16)
  if stg = 255 ∨ b / 16 % 2 = stg then b else b - 16

/-- The smallest sample boundary not below a tick with the parity of STG. -/
def boundUp (stg t : Nat) : Nat :=
  let b := 16 * ((t + 15) / 16)
  if stg = 255 ∨ b / 16 % 2 = stg then b else b + 16

/-- B_A of a slot for a profile and domain (R121). -/
def State.ballastStart (s : State) (d prof slot : Nat) : Nat := boundDown (s.stg d) (slot - s.pfLead prof)

/-- The lift end of a ticket: E_L, or the boundary after an early end (R121). -/
def State.liftEnd (s : State) (d : Nat) (x : Ticket) : Nat :=
  match x.liftEnd with
  | some e => e
  | none => boundUp (s.stg d) (x.slot + 8 * s.pfLiftSlots x.profile)

/-- Whether a ticket's ballast exists at all: granted with it, and not withdrawn at or before B_A (R121). -/
def Ticket.leans (x : Ticket) : Bool := x.ballast && !(x.state == .withdrawn && x.endTick ≤ x.bA)

/-! ### Lift and pre-bias (R122, R123, R127) -/

/-- The lift of a ticket in the sample that starts at a tick, set-point code (R122, R127). -/
def State.tkLift (s : State) (d t : Nat) (x : Ticket) : Nat :=
  if x.leans ∧ x.bA ≤ t ∧ t < s.liftEnd d x then
    (if x.wd then pgVset ⟨x.wdRamp.pos, x.wdRamp.vel, x.wdRamp.acc⟩ else s.pfLift x.profile)
  else 0

/-- The lift of a domain in the sample that starts at a tick (R122). -/
def State.liftAt (s : State) (d t : Nat) : Nat := ((s.domTks d Ticket.leans).map fun (_, x) => s.tkLift d t x).foldl max 0

/-- Whether the pre-bias of a ticket that has ended has stopped in the sample that starts at a tick (R123). -/
def Ticket.biasOver (x : Ticket) (t : Nat) : Bool := x.state.final && decide (16 * (x.endTick / 16) + 32 ≤ t)

/-- The pre-bias current of a ticket in the sample that starts at a tick, 10 mA (R123). -/
def State.tkBias (s : State) (t : Nat) (x : Ticket) : Nat :=
  let a : Int := (t : Int) - x.slot + s.pfLead x.profile
  if !x.leans || x.biasOver t || a + 16 ≤ 0 then 0
  else
    let lo := a.toNat / 8
    let hi := ((a + 15).toNat) / 8
    ((List.range (hi + 1 - lo)).map fun j => s.increase x.profile (lo + j)).foldl max 0

/-- The pre-bias of a domain, DPWM steps, rounded up on a tie, before its limits (R123, R127). -/
def State.biasAt (s : State) (d t : Nat) : Int :=
  let l := s.domTks d Ticket.leans
  let i := ((l.filter fun e => !e.2.wd).map fun (_, x) => s.tkBias t x).sum
  let w : Rat := ((l.filter fun e => e.2.wd && !e.2.biasOver t).map fun (_, x) => x.wdFfb).sum
  nearestUp ((s.gff d * i : Nat) / 25600 + w)

/-- One sample of the withdrawal ramps of a domain (R127). -/
def wdStep (d : Nat) (s : State) : State :=
  let x := s.dom d
  forL (s.domTks d fun y => y.wd && y.ballast) (fun (i, _) s => s.updTicket i fun y =>
    let (p, _) := pgStep ⟨y.wdRamp.pos, y.wdRamp.vel, y.wdRamp.acc⟩ 0 x.pgVmax x.pgAmax x.pgJmax
    { y with wdRamp := ⟨p.pos, p.vel, p.acc⟩
             wdFfb := if 0 < y.wdFfb then max 0 (y.wdFfb - 4) else min 0 (y.wdFfb + 4) }) s

/-- Withdraws the ballast of a ticket: its lift becomes a ramp from where it stands, its pre-bias is held (R127). -/
def State.withdrawBallast (s : State) (d i : Nat) : State :=
  let t := s.time
  s.updTicket i fun x => if x.wd then x else { x with
    wd := true, wdRamp := ⟨pgTgt (s.tkLift d t x), 0, 0⟩, wdFfb := (s.gff d * s.tkBias t x : Nat) / 25600 }

/-! ### Mismatch (R125, R126) -/

/-- Whether a ticket is LAUNCHED or RUNNING in a slot. -/
def Ticket.runsAt (x : Ticket) (slot : Nat) : Bool :=
  (x.state.runs || (x.state.final && slot < x.endTick && x.slot < x.endTick)) && x.slot ≤ slot && x.slot != 0

/-- Whether a ticket with ballast is in its curve window in a slot (R125, R132). -/
def Ticket.inCurve (x : Ticket) (slot : Nat) : Bool := x.ballast && x.runsAt slot && slot < x.slot + 512

/-- Whether a slot of a domain fails the mismatch test against a measured current; none where it does not run (R125). -/
def State.mismatch (s : State) (d slot meas : Nat) : Option Bool :=
  let l := s.domTks d fun x => x.runsAt slot
  if l.any fun e => e.2.inCurve slot then
    let inc (x : Ticket) : Nat := s.increase x.profile ((slot - x.slot) / 8)
    let want := (s.dom d).baseline + (l.map fun e => inc e.2).sum
    let tol : Rat := (l.map fun e => max ((s.pfTolPct e.2.profile * inc e.2 : Nat) / 100 : Rat) (50 * s.pfTolAbs e.2.profile)).sum
    some (decide (tol < |(meas : Rat) - want|))
  else none

/-- Tests one slot and counts: the fourth consecutive failure withdraws the ballast of the tickets in their curve window
(R126, R133). A slot in which the test does not run ends a run of failures (log entry 72). -/
def testSlot (d slot : Nat) (s : State) : State :=
  match s.mismatch d slot (nth 0 (s.dom d).iHist 0) with
  | none => s.updDom d fun x => { x with mmCnt := 0 }
  | some false => s.updDom d fun x => { x with mmCnt := 0 }
  | some true =>
    let c := (s.dom d).mmCnt + 1
    if c = 4 then
      let l := (s.domTks d fun x => x.inCurve slot && x.state.runs && !x.wd).map (·.1)
      let s := forL l (fun i s => s.withdrawBallast d i) s
      s.updDom d fun x => { x with mmCnt := 4, mmRaise := l.head?.map fun i => (i, l.length) }
    else s.updDom d fun x => { x with mmCnt := min 4 c }

/-- BALLAST_MISMATCH (R126): the withdrawal found in the computation of this sample is raised with its tickets (R424). -/
def execBallastMismatch (d : Fin 32) (s : State) : Out :=
  match (s.dom d).mmRaise with
  | none => .next s
  | some (i, n) =>
    .next ((s.updDom d fun x => { x with mmRaise := none }).raise cBallastMismatch (mkSrc 5 d) (i % 65536 + min 255 n * 65536))

end Sys2Proof.Machine
end

