-- ==== Sys2Proof/Machine/Ticket.lean ====
section
/-!
DEFINITION. The ticket unit (R99 to R117, R120, R124, R343, R344): the messages of the ticket port, the grant pass, the
life of a ticket with its snapshots, and the cluster inputs CL_STRETCH and CL_MARGIN (R189, R370).
-/

namespace Sys2Proof.Machine

/-! ### Messages (R102 to R107) -/

/-- CRC-8 of R102 over the `n` bits of a number. -/
def crc8 (n w : Nat) : Nat := (bitsMsb n w).foldl (crcStep 8 0x07) 0

/-- A response (R104). -/
def rspWord (status ticket time : Nat) : BitVec 64 :=
  let b := status % 16 * 2 ^ 52 + ticket % 65536 * 2 ^ 36 + time % 2 ^ 32 * 16
  BitVec.ofNat 64 (b * 256 + crc8 56 b)

/-- TK_TIME of every cluster of the field (R100, R364). -/
def State.tkTime (s : State) : Word := BitVec.ofNat 32 s.time

/-- Whether a cluster's TK_RSP holds the 32 responses of its depth (R106). -/
def Cluster.full (x : Cluster) : Bool := 32 ≤ x.rsp.length

/-- Whether a response that names a ticket is still to be sent (R104, R111). -/
def Cluster.owes (x : Cluster) (i : Nat) : Bool :=
  (x.rsp ++ x.rspWait).any fun w => bits w.toNat 59 44 == i && bits w.toNat 63 60 < 8

/-- A response enters a cluster's TK_RSP, or waits where the channel is full (R106, R341). -/
def State.respond (s : State) (c status ticket time : Nat) : State :=
  s.updCluster c fun x =>
    let w := rspWord status ticket time
    if x.full || !x.rspWait.isEmpty then { x with rspWait := x.rspWait ++ [w] } else { x with rsp := x.rsp ++ [w] }

/-- A message of the ticket port that arrives while the die is frozen: 16 are captured per channel with their arrival ticks, the
others count as port errors at the thaw (R102, R353). -/
def State.captureReq (s : State) (c : Nat) (i : Instr) (req : Bool) : State :=
  s.updCluster c fun x =>
    if (if req then x.capReq else x.capRpt).length < 16 then
      (if req then { x with capReq := x.capReq ++ [(s.time, i)] } else { x with capRpt := x.capRpt ++ [(s.time, i)] })
    else { x with capOver := x.capOver + 1 }

/-! ### Requests (R105, R111) -/

/-- Whether a ticket is live: until its final state, and until its final response has been sent (R111). -/
def State.live (s : State) (i : Nat) (x : Ticket) : Bool := !x.state.final || (s.cluster x.cluster).owes i

/-- Whether an identifier may be allocated (R111): not live, and not within 1,024 ticks of its final state. -/
def State.idFree (s : State) (i : Nat) : Bool :=
  let x := s.ticket i
  !x.used || (!s.live i x && decide ((x.endTick : Int) + 1024 + x.extra ≤ s.time))

/-- The next identifier in ascending order after the last one (R111). -/
def State.nextId (s : State) : Option Nat :=
  ((List.range 65536).find? fun k => s.idFree ((s.tk.lastId + 1 + k) % 65536)).map fun k => (s.tk.lastId + 1 + k) % 65536

/-- The live tickets of a cluster. -/
def State.liveTks (s : State) (c : Nat) : Nat := ((s.tks fun x => x.cluster == c).filter fun e => s.live e.1 e.2).length

/-- A word of TKT_SG_MASK as the instance sees it (R128, R416): 0 before a commit and on the factory safe table, then what
the image supplied or host software wrote last; a worker sees its copy (log entry 28). -/
def State.sgWord (s : State) (k : Nat) : Nat :=
  match tget none s.mgr.sgMask k with
  | some w => w.toNat
  | none =>
    if ¬ s.inst.committed ∨ s.inst.factory then 0
    else if s.inst.manager then (Config.sgMask k).toNat else (Config.sgMaskCopy k s.time).toNat

/-- Whether a cluster is in a sync group's mask (R128). -/
def State.inMask (s : State) (g die : Nat) : Bool := bit (s.sgWord (8 * g + die / 32)) (die % 32)

/-- Whether a page read through the ticket unit's port fails (R117). -/
def State.profBad (s : State) (i : Nat) : Bool := (tget none s.eng.bad (0x1800 + i / 2)).isSome

/-- The refusal of a request, by the checks of R105 in their order (R242 before the verdict). -/
def State.refusal (s : State) (c n : Nat) (whole : Bool) : Option Nat :=
  if !whole || crc8 88 (n / 256) != n % 256 then some 0x8
  else if bits n 95 88 ≠ s.dieCluster c then some 0x9
  else if !s.inst.committed && !s.inst.factory then some 0xB
  else match s.clusterDom c with
    | none => some 0xA
    | some d =>
      if (s.dom d).loop = .idle ∨ (s.dom d).bring.step.falling then some 0xB
      else if !s.pfValid (bits n 33 22) then some 0xC
      else if bit n 13 && !s.inMask (bits n 87 82) (s.dieCluster c) then some 0xD
      else if 2048 ≤ s.liveTks c ∨ s.nextId.isNone then some 0xE
      else none

/-- A request that arrived at a tick: the first response, with that tick, and a sync request is forwarded to the manager (R102,
R103, R129). -/
def State.takeRequest (s : State) (c n : Nat) (whole : Bool) (at_ : Nat) : State :=
  match s.refusal c n whole with
  | some st => s.respond c st 0 at_
  | none =>
    let i := s.nextId.getD 0
    let e := 8 * (at_ / 8) + 8 * bits n 21 14
    let x : Ticket := { used := true, state := .requested, cluster := c, job := bits n 81 66, layer := bits n 65 50
                        oper := bits n 49 34, profile := bits n 33 22, earliest := e, arrival := at_
                        expiry := at_ + s.tk.qmax, sync := bit n 13, group := bits n 87 82, nobal := bit n 12
                        runMax := s.pfRunMax (bits n 33 22) }
    let s := ((s.setTicket i x).updTk fun t => { t with lastId := i }).respond c 0x0 i at_
    if x.sync then
      s.toManager 0x12 1 (x.group * 2 ^ 99 + x.job * 2 ^ 83 + x.layer * 2 ^ 67 + x.oper * 2 ^ 51 + i * 2 ^ 35 + c * 2 ^ 30 +
        e / 8 % 2 ^ 14 * 2 ^ 16)
    else s

/-- TICKET_REQUEST (R103). One that finds TK_RSP full waits for room (R106, R341; log entry 72). -/
def execTicketRequest (c : Fin 32) (w : BitVec 96) (whole : Bool) (s : State) : Out :=
  let y := s.cluster c
  if y.disabled ∨ s.inst.inReset ∨ ¬ s.inst.fuseDone then .next s
  else if s.obs.frozen then .next (s.captureReq c (.ticketRequest c w whole) true)
  else if y.full ∨ ¬ y.rspWait.isEmpty then
    .next (s.updCluster c fun x => { x with reqWait := x.reqWait ++ [(s.time, .ticketRequest c w whole)] })
  else .next (s.takeRequest c w.toNat whole s.time)

/-- The work that a full TK_RSP held back goes on: a response that waits takes the free place, else a request that waits. -/
def State.portOn (s : State) (c : Nat) : State :=
  let x := s.cluster c
  match x.rspWait, x.reqWait with
  | w :: r, _ => s.updCluster c fun x => { x with rsp := x.rsp ++ [w], rspWait := r }
  | [], (t, .ticketRequest _ w whole) :: r => (s.updCluster c fun x => { x with reqWait := r }).takeRequest c w.toNat whole t
  | [], _ => s

/-- TICKET_RESPONSE (R106): the oldest pending response leaves on TK_RSP. -/
def execTicketResponse (c : Fin 32) (s : State) : Out :=
  if s.obs.frozen then .next s
  else match (s.cluster c).rsp with
    | [] => .next s
    | w :: r => .next ((s.updCluster c fun x => { x with rsp := r, sent := some w }).portOn c)

/-! ### The life of a ticket (R110, R343, R344) -/

/-- The start half of a snapshot record is latched, and the run counters of the cluster reset (R343, R344). -/
def State.snapStart (s : State) (i : Nat) : State :=
  let x := s.ticket i
  let y := match s.tkDom x with | some d => s.dom d | none => {}
  let r : SnapRec := {
    ticket := i, job := x.job, profile := x.profile + b2n x.ballast * 4096, slot := x.slot, vsLift := y.vset + y.lift
    iDom := y.iNow, ffb := y.ffb, clm := (s.cluster x.cluster).margin, mode := modeCode s.modeNow }
  s.updCluster x.cluster fun c => { c with
    snaps := tset {} c.snaps c.snapNext r, snapNext := (c.snapNext + 1) % 4
    runTicket := i, runFrom := some x.slot, runStretch := 0, runCnt := [] }

/-- The end half of a snapshot record is latched (R344). -/
def State.snapEnd (s : State) (i : Nat) : State :=
  let x := s.ticket i
  s.updCluster x.cluster fun c =>
    match (List.range 4).find? fun k => let r := tget {} c.snaps k; r.ticket == i && r.slot == x.slot && r.tEnd == 0 && x.slot != 0 with
    | none => c
    | some k => { c with snaps := tset {} c.snaps k { tget {} c.snaps k with
        tEnd := x.endTick, state := tkCode x.state, flags := b2n x.wd + 2 * b2n x.frzWd
        stretch := min (2 ^ 32 - 1) x.stretch, nrg := x.energy / 1000000
        cnt := x.cnt.map fun (k, v) => (k, min (2 ^ 32 - 1) v) } }

/-- A ticket reaches a final state: it leaves the ledgers, and its lift ends at the boundary of R121. -/
def State.finish (s : State) (i : Nat) (st : TkState) : State :=
  let x := s.ticket i
  let e := match s.tkDom x with
    | some d =>
      let el := s.liftEnd d x
      if s.time < el then boundUp (s.stg d) (16 * (s.time / 16) + 32) else el
    | none => s.time
  (s.updTicket i fun x => { x with
    state := st, endTick := s.time, extra := 0, booked := none, liftEnd := if x.ballast then some e else none }).snapEnd i

/-- A member of a sync set that leaves the queue at its field is dropped at the manager (R129). -/
def State.dropMember (s : State) (i : Nat) : State :=
  let x := s.ticket i
  if x.sync then s.toManager 0x13 1 (x.group * 2 ^ 99 + i * 2 ^ 83) else s

/-- A ticket granted in this tick gets no grant response (R133). -/
def State.unsend (s : State) (i : Nat) : State :=
  let x := s.ticket i
  let grants (w : BitVec 64) : Bool := bits w.toNat 59 44 == i && (bits w.toNat 63 60 == 1 || bits w.toNat 63 60 == 2)
  if x.grantAt = s.time ∧ x.state.inLedger then
    s.updCluster x.cluster fun y => { y with rsp := y.rsp.filter (!grants ·), rspWait := y.rspWait.filter (!grants ·) }
  else s

/-- Withdraws a ticket with its response (R105), in place of a grant of the same tick (R133). A granted member of a committed set
is withdrawn through the manager (R131). -/
def State.withdraw (s : State) (i : Nat) : State :=
  let x := s.ticket i
  let s := s.unsend i
  let s := if x.state = .queued ∨ x.state = .requested then s.dropMember i
    else match x.setId with
      | some k => s.toManager 0x15 1 (x.group * 2 ^ 99 + k * 2 ^ 91)
      | none => s
  (s.finish i .withdrawn).respond x.cluster 0x3 i s.time

/-- A ticket that R113 may still withdraw: QUEUED, or GRANTED or ARMED before its S. -/
def Ticket.early (x : Ticket) (now : Nat) : Bool :=
  match x.state with
  | .requested | .queued => true
  | .granted | .armed => now < x.slot
  | .launched | .running | .done | .expired | .withdrawn => false

/-- Withdraws every ticket that has not launched and meets a test (R113, R274). -/
def State.withdrawAll (s : State) (f : Ticket → Bool) : State :=
  forL ((s.tks fun x => x.early s.time && f x).map (·.1)) (fun i s => s.withdraw i) s

/-- The baseline of a ticket that arms alone: the mean of the four samples before its B_A, rounded to the nearest code with ties up
(R125; log entry 72), taken when it has been measured. -/
def State.latchBase (s : State) (d i : Nat) : State :=
  match (s.ticket i).base with
  | some b => s.updDom d fun y => { y with baseline := b, baseAwait := none, mmCnt := 0 }
  | none => s.updDom d fun y => { y with baseAwait := some i, mmCnt := 0 }

/-- TICKET_ARM (R110, R125): at B_A; the baseline is latched when no other ticket of the domain is ARMED or runs. -/
def execTicketArm (i : Fin 65536) (s : State) : Out :=
  let x := s.ticket i
  if x.used ∧ x.state = .granted ∧ x.ballast ∧ x.bA ≤ s.time ∧ ¬ s.obs.frozen then
    let s' := s.updTicket i fun x => { x with state := .armed }
    match s.tkDom x with
    | none => .next s'
    | some d =>
      if (s.domTks d fun y => y.state == .armed || y.state.runs).isEmpty then .next (s'.latchBase d i) else .next s'
  else .next s

/-- The four samples before the B_A of each ticket that arms at this boundary are measured: the TREPs of two samples before it
end them (R125). -/
def noteBase (d : Nat) (s : State) : State :=
  forL (s.domTks d fun x => x.ballast && x.bA == s.time && !x.state.final) (fun (i, _) s =>
    let b := roundNat (((s.dom d).iHist.take 4).sum) 4
    let s := s.updTicket i fun x => { x with base := some b }
    if (s.dom d).baseAwait = some i then s.updDom d fun y => { y with baseline := b, baseAwait := none } else s) s

/-- TICKET_LAUNCH (R110, R343, R344): at S. -/
def execTicketLaunch (i : Fin 65536) (s : State) : Out :=
  let x := s.ticket i
  if x.used ∧ (x.state = .granted ∨ x.state = .armed) ∧ x.slot ≤ s.time ∧ ¬ s.obs.frozen then
    .next ((s.updTicket i fun x => { x with state := .launched }).snapStart i)
  else .next s

/-- TICKET_RUN (R110): at S + 8. -/
def execTicketRun (i : Fin 65536) (s : State) : Out :=
  let x := s.ticket i
  if x.used ∧ x.state = .launched ∧ x.slot + 8 ≤ s.time ∧ ¬ s.obs.frozen then
    .next (s.updTicket i fun x => { x with state := .running })
  else .next s

/-- The run expiry of a ticket (R112, R355). -/
def Ticket.runEnd (x : Ticket) : Nat := ((x.slot : Int) + 256 * x.runMax + x.extra).toNat

/-- TICKET_EXPIRY (R112). -/
def execTicketExpiry (i : Fin 65536) (s : State) : Out :=
  let x := s.ticket i
  let q := x.state == .queued || x.state == .requested
  if x.used ∧ ¬ s.obs.frozen ∧ ((q ∧ (x.expiry : Int) + x.extra ≤ s.time) ∨ (x.state.runs ∧ x.runEnd ≤ s.time)) then
    let s := (s.respond x.cluster 0x4 i s.time).raise cTktExpired (mkSrc 6 x.cluster) (i + tkCode x.state * 65536)
    .next ((if q then s.dropMember i else s).finish i .expired)
  else .next s

/-! ### Reports (R107, R108) -/

/-- A discarded report counts, and TKT_PORT_ERR is raised once per frame and channel (R108). -/
def State.portErr (s : State) (c n : Nat) : State :=
  let s := s.updCluster c fun x => { x with perr := min 65535 (x.perr + n) }
  if (s.cluster c).perrFrame = some (frameOf s.time) then s
  else (s.updCluster c fun x => { x with perrFrame := some (frameOf s.time) }).raise cTktPortErr (mkSrc 6 c) 0

/-- DONE_REPORT (R108, R133): a done report at the expiry tick comes too late. -/
def execDoneReport (c : Fin 32) (w : Word) (whole : Bool) (s : State) : Out :=
  let n := w.toNat
  let i := bits n 27 12
  let x := s.ticket i
  if (s.cluster c).disabled ∨ s.inst.inReset ∨ ¬ s.inst.fuseDone then .next s
  else if s.obs.frozen then .next (s.captureReq c (.doneReport c w whole) false)
  else if whole ∧ crc8 24 (n / 256) = n % 256 ∧ bits n 31 28 = 1 ∧ x.used ∧ x.cluster = c ∧ x.state.inLedger ∧
      ¬ (x.state.runs ∧ x.runEnd ≤ s.time) then
    .next (s.finish i .done)
  else .next (s.portErr c 1)

/-- The dynamic energy of counts accepted for a ticket is charged to the ticket and its job (R202); not in GROUNDED (R204). -/
def State.chargeDyn (s : State) (i k v : Nat) : State :=
  match s.tkDom (s.ticket i) with
  | none => s
  | some d =>
    if s.grounded ∨ 15 ≤ k then s
    else
      let e := Config.attrAlpha (s.dieDom d) k * v
      let j := (s.ticket i).job
      (s.updTicket i fun x => { x with energy := x.energy + e }).updLim fun l => { l with
        jobs := let a := tget {} l.jobs j; tset {} l.jobs j { a with pj := a.pj + e, charged := true } }

/-- COUNT_REPORT (R108, R138, R343). -/
def execCountReport (c : Fin 32) (w : BitVec 96) (whole : Bool) (s : State) : Out :=
  let n := w.toNat
  let i := bits n 91 76
  let k := bits n 75 72
  let v := bits n 71 8
  let x := s.ticket i
  let sat (a : Nat) : Nat := min (2 ^ 64 - 1) (a + v)
  if (s.cluster c).disabled ∨ s.inst.inReset ∨ ¬ s.inst.fuseDone then .next s
  else if s.obs.frozen then .next (s.captureReq c (.countReport c w whole) false)
  else if whole ∧ crc8 88 (n / 256) = n % 256 ∧ bits n 95 92 = 2 ∧ x.used ∧ x.cluster = c ∧ x.state.runs then
    let s := (s.updTicket i fun x => { x with cnt := tset 0 x.cnt k (sat (tget 0 x.cnt k)) }).chargeDyn i k v
    let s := s.updEng fun e => { e with cntNow := tset 0 e.cntNow (16 * c + k) (min (2 ^ 31 - 1) (tget 0 e.cntNow (16 * c + k) + v)) }
    .next (s.updCluster c fun y =>
      if y.runTicket = i ∧ y.runFrom.isSome then { y with runCnt := tset 0 y.runCnt k (sat (tget 0 y.runCnt k)) } else y)
  else .next (s.portErr c 1)

/-! ### Granting (R116, R117, R120) -/

/-- Whether a grant carries ballast (R117). -/
def State.grantBal (s : State) (d : Nat) (x : Ticket) : Bool :=
  !s.grounded && (s.pfLift x.profile != 0 || (List.range 64).any fun j => s.pfCurve x.profile j != 0) &&
    (!x.nobal || (s.modeNow == .peak && s.pfHeavy x.profile)) && !(s.dom d).balSup && !s.profBad x.profile

/-- TKT_SP of a domain (R116, R179, R196). At a tick's start it is kept with the loop state for the grant pass (`tickDoms`). -/
def State.tktSp (s : State) (d : Nat) : Nat :=
  let x := s.dom d
  if x.loop = .ground ∨ s.grounded then 64 else max x.spLadder (max x.spInst x.spTh)

/-- The loop state and TKT_SP of every domain as the tick starts with them (R133). -/
def State.tickDoms (s : State) : State :=
  forL (s.doms.map (·.1)) (fun d s => s.updDom d fun x => { x with loopTick := x.loop, spTick := s.tktSp d }) s

/-- Items 2 and 3 of R116 at a slot. -/
def State.leadOk (s : State) (d : Nat) (x : Ticket) (slot t : Nat) : Bool :=
  let ba := if s.grantBal d x then s.ballastStart d x.profile slot else slot
  let g := 16 * (t / 16)
  decide (g + 32 ≤ ba) && (!(s.dom d).shedIn t || (decide (t + 40 ≤ slot - s.pfLead x.profile) && decide (g + 48 ≤ ba)))

/-- The smallest slot not below max(E, t + 8) that meets items 2 and 3 (R120). -/
def State.firstSlot (s : State) (d : Nat) (x : Ticket) (t : Nat) : Nat :=
  let lo := slotUp (max x.earliest (t + 8))
  match (List.range 64).find? fun k => s.leadOk d x (lo + 8 * k) t with
  | some k => lo + 8 * k
  | none => lo + 512

/-- Why a ticket cannot be granted at a slot: bit 1 spacing, 2 di/dt ledger, 3 input ledger, 4 the domain's loop, 5 time,
with PEAK's condition under bit 7; 0 where it fits (items 4 to 9 of R116, R261, R358). The loop state and TKT_SP are given. -/
def State.whyNot (s : State) (d : Nat) (x : Ticket) (slot t : Nat) (lp : LoopState) (tktSp : Nat) : Nat :=
  let y := s.dom d
  let sp := (s.cluster x.cluster).sLast.all fun l => l + 8 * tktSp ≤ slot
  let loop := (lp == .closed || lp == .ground) && y.bring.step == .up && !y.bring.keepStatus
  2 * b2n (!sp) + 4 * b2n (!s.fitsDidt d x.profile slot) + 8 * b2n (!s.fitsIin d x.profile slot t) + 16 * b2n (!loop) +
    32 * b2n (!s.tth.timeValid) + 128 * b2n (s.modeNow == .peak && s.pfHeavy x.profile && !s.grantBal d x)

/-- Books a slot for a ticket in both ledgers (R118, R119). -/
def State.book (s : State) (d i slot : Nat) : State :=
  s.updTicket i fun x => { x with booked := some slot, kNum := (s.dom d).vtgt, kDen := s.lim.vinF }

/-- A grant brings a shed domain back: UNSHED to every tile in the sample after the grant, unless words on their way apply no later
(R91). -/
def State.unshedNow (s : State) (d : Nat) : State :=
  let due := 16 * (s.time / 16) + 32
  let x := s.dom d
  if x.shedIn s.time ∧ (x.unshedAt = 0 ∨ due < x.unshedAt) then
    forL (s.dtiles d) (fun t s => (s.updView t fun v => { v with shedSent := 0 }).sendTile t (.unshed 15))
      (s.updDom d fun y => { y with unshedAt := due, dwell := [] })
  else s

/-- Grants a ticket a slot (R91, R105, R116): it is booked and answered, and a shed domain is brought back. -/
def State.grant (s : State) (d i slot : Nat) : State :=
  let x := s.ticket i
  let bal := s.grantBal d x
  let s := (s.book d i slot).updTicket i fun x => { x with
    state := .granted, slot := slot, ballast := bal, bA := if bal then s.ballastStart d x.profile slot else slot
    runMax := s.pfRunMax x.profile, liftEnd := none, grantAt := s.time, extra := 0, base := none }
  ((s.updCluster x.cluster fun c => { c with sLast := some slot }).respond x.cluster (if bal then 1 else 2) i slot).unshedNow d

/-- Tries the slots of the horizon in ascending order (R120), with the loop state and TKT_SP of the start of the tick (R133). -/
def State.trySlots (s : State) (d i t : Nat) : Nat → Nat → State
  | 0, slot => s.updTicket i fun x => { x with lastTry := slot }
  | n + 1, slot =>
    if t + 4096 ≤ slot then s.updTicket i fun x => { x with lastTry := slot - 8 }
    else
      let why := s.whyNot d (s.ticket i) slot t (s.dom d).loopTick (s.dom d).spTick
      if why = 0 then s.grant d i slot
      else (s.updTicket i fun x => { x with whyWait := why % 128 }).trySlots d i t n (slot + 8)

/-- Whether one candidate stands before another: first slot, cluster, arrival, identifier (R120). -/
def candLt (a b : Nat × Nat × Nat × Nat) : Bool :=
  decide (a.1 < b.1) || (a.1 == b.1 && (decide (a.2.1 < b.2.1) || (a.2.1 == b.2.1 &&
    (decide (a.2.2.1 < b.2.2.1) || (a.2.2.1 == b.2.2.1 && decide (a.2.2.2 < b.2.2.2))))))

/-- Inserts a candidate in order. -/
def candInsert (a : Nat × Nat × Nat × Nat) : List (Nat × Nat × Nat × Nat) → List (Nat × Nat × Nat × Nat)
  | [] => [a]
  | b :: l => if candLt a b then a :: b :: l else b :: candInsert a l

/-- The candidates of a pass in the order in which they are tried (R120); a full TK_RSP holds its cluster's tickets back (R106,
R341). -/
def State.cands (s : State) (t : Nat) : List Nat :=
  let l := (s.tks fun x => x.state == .queued && !x.sync && x.arrival < t && !(s.cluster x.cluster).full).filterMap fun (i, x) =>
    (s.tkDom x).map fun d => (s.firstSlot d x t, x.cluster, x.arrival, i)
  ((l.foldr candInsert []).take 64).map (·.2.2.2)

/-- A request of an earlier tick is QUEUED (R110, R133). -/
def State.enqueue (s : State) : State :=
  forL ((s.tks fun x => x.state == .requested && x.arrival < s.time).map (·.1)) (fun i s => s.updTicket i fun x => { x with state := .queued }) s

/-- The input ledger's value is noted at a slot's start (R119). -/
def State.noteSlot (s : State) : State :=
  if s.time % 8 = 0 then s.updTk fun t => { t with slotVals := t.slotVals ++ [s.iinAt s.time] } else s

/-- GRANT_PASS (R120). Nothing is granted while time is not valid (R101) or PWRFAIL_N is asserted (R274). -/
def execGrantPass (s : State) : Out :=
  if s.obs.frozen ∨ s.inst.inReset then .next s
  else
    let s := s.enqueue.noteSlot
    if ¬ s.tth.timeValid ∨ s.lim.pwrFail then
      .next (forL ((s.tks fun x => x.state == .queued).map (·.1)) (fun i s => s.updTicket i fun x => { x with whyWait := 32 }) s)
    else .next (forL (s.cands s.time) (fun i s =>
      match s.tkDom (s.ticket i) with
      | none => s
      | some d => s.trySlots d i s.time 512 (s.firstSlot d (s.ticket i) s.time)) s)

/-! ### Cluster inputs (R124, R189, R370) -/

/-- CL_STRETCH (R124): one tick in which the input is sampled asserted. -/
def execClStretch (c : Fin 32) (s : State) : Out :=
  if s.inst.inReset then .next s
  else
    let s' := s.updCluster c fun x => { x with strRound := min (2 ^ 32 - 1) (x.strRound + 1) }
    if s.obs.frozen then .next s'
    else
      let l := s.tks fun x => x.cluster == c.val && x.state.runs && x.slot ≤ s.time
      let s' := forL (l.map (·.1)) (fun i s => s.updTicket i fun x => { x with stretch := x.stretch + 1 }) s'
      .next (s'.updCluster c fun x =>
        if l.any fun e => e.1 == x.runTicket && x.runFrom == some e.2.slot then { x with runStretch := min (2 ^ 32 - 1) (x.runStretch + 1) } else x)

/-- The number a 4-bit Gray code stands for (R370). -/
def grayNat (g : Nat) : Nat := g ^^^ (g / 2) ^^^ (g / 4) ^^^ (g / 8)

/-- CL_MARGIN (R189, R370): the code enters the minima of the frame and the round. -/
def execClMargin (c : Fin 32) (gray : BitVec 4) (s : State) : Out :=
  let v := grayNat gray.toNat
  .next (s.updCluster c fun x => { x with
    margin := v, frameMin := min x.frameMin v, frameMax := max x.frameMax v, roundMin := min x.roundMin v })

end Sys2Proof.Machine
end

