-- ==== Sys2Proof/Machine/Trace.lean ====
section
/-!
DEFINITION. Trace messages and where they go (R213, R346 to R349): the trace buffer, the wait for a TRACE flit, drops, and
the SYNC and OVF messages that go with the others. BRANCH and EXC messages report the supervisors' own program, which the
spec does not give; none is emitted (log entry 7).
-/

namespace Sys2Proof.Machine

/-- The ring that trace flits take (R213). -/
def State.traceRing (s : State) : Nat := s.ringsFor 3 0 false

/-- Whether a TRACE flit may be inserted: at most one per 544 ticks on a ring (R213), and nothing leaves while the ports are
stopped (R351). -/
def State.traceOk (s : State) : Bool :=
  !s.obs.frozen && (if s.traceRing == 1 then s.tth.lastTrace1 else s.tth.lastTrace2).all fun t => t + 544 ≤ s.time

/-- Sends one trace message to the manager (R216). -/
def State.sendTrace (s : State) (msg : Nat) : State :=
  let one := s.traceRing == 1
  (s.updTth fun t => if one then { t with lastTrace1 := some s.time } else { t with lastTrace2 := some s.time }).toManager 0x1B 3
    (msg % 2 ^ 89 * 2 ^ 16)

/-- Whether a worker can reach the manager with trace and record messages (R220, R232, R234). -/
def State.mayForward (s : State) : Bool :=
  !s.inst.manager && s.inst.pll && s.tth.trained && 2 ≤ s.tth.version && !s.lineMode && s.tth.mgrLost.isNone

/-- Whether a worker has a record it has not sent whole (R328). -/
def State.recordDue (s : State) : Bool := s.mayForward && s.log.buf.any fun r => !r.gone

/-- Sends the oldest waiting trace message where no record message is due (R348). -/
def State.drainTrace (s : State) : State :=
  match s.obs.trcQ with
  | [] => s
  | m :: r => if s.traceOk && !s.recordDue then (s.updObs fun o => { o with trcQ := r }).sendTrace m else s

/-- Puts an entry into the trace buffer of 12,288 entries; where it is full, WRAP overwrites the oldest, and otherwise trace
stops (R348). Answers whether it was stored. -/
def State.storeTrace (s : State) (msg src : Nat) : State × Bool :=
  let e : TraceEnt := { msg := msg % 2 ^ 89, src := src, arr := s.time % 2 ^ 32 }
  if s.obs.trc.length < 12288 then (s.updObs fun o => { o with trc := o.trc ++ [e] }, true)
  else if s.obs.trcWrap then (s.updObs fun o => { o with trc := o.trc.tail ++ [e] }, true)
  else (s.updObs fun o => { o with trcFull := true }, false)

/-- Stores or queues one message; answers whether it was kept. -/
def State.placeTrace (s : State) (msg : Nat) : State × Bool :=
  if s.obs.trcDest && !s.inst.manager then
    if s.mayForward && s.obs.trcQ.length < Config.traceDepth 0 then
      ((s.updObs fun o => { o with trcQ := o.trcQ ++ [msg] }).drainTrace, true)
    else (s, false)
  else s.storeTrace msg s.inst.fieldId

/-- A message that cannot be stored or sent is counted for the next OVF, and TRACE_DROP is raised at most once per frame
(R348). -/
def State.dropTrace (s : State) : State :=
  let s := s.updObs fun o => { o with trcLost := min 65535 (o.trcLost + 1) }
  if s.obs.dropFrame = some (frameOf s.time) then s
  else (s.updObs fun o => { o with dropFrame := some (frameOf s.time) }).raiseInst cTraceDrop 0

/-- A SYNC message; the supervisors' PC is open (R346; log entry 7). -/
def State.syncMsg (s : State) : Nat :=
  2 ^ 85 + Config.supervisorState s.fresh % 2 ^ 32 * 2 ^ 53 + s.time % 2 ^ 32 * 2 ^ 21 + s.time / 2 ^ 32 % 2 ^ 21

/-- Emits SYNC. -/
def State.traceSync (s : State) : State :=
  let (s, ok) := s.placeTrace s.syncMsg
  let s := { s with fresh := s.fresh + 1 }
  if ok then s.updObs fun o => { o with trcCnt := 0, trcSync := s.time } else s.dropTrace

/-- Emits OVF and its SYNC where messages have been lost and there is room again (R346). -/
def State.traceOvf (s : State) : State :=
  if s.obs.trcLost = 0 then s
  else
    let (s, ok) := s.placeTrace (4 * 2 ^ 85 + s.obs.trcLost * 2 ^ 69 + s.time % 2 ^ 32 * 2 ^ 37)
    if ok then (s.updObs fun o => { o with trcLost := 0 }).traceSync else s

/-- Whether trace runs: enabled, not after a lockstep mismatch, not stopped by a freeze (R348, R351, R363). -/
def State.traceRuns (s : State) : Bool := s.obs.trcEn && !s.inst.lockstep && !s.obs.frozen

/-- Emits a trace message; every 4,096 messages a SYNC follows (R346). -/
def State.traceMsg (s : State) (msg : Nat) : State :=
  if !s.traceRuns then s
  else
    let (s, ok) := s.traceOvf.placeTrace msg
    if !ok then s.dropTrace
    else
      let s := s.updObs fun o => { o with trcCnt := o.trcCnt + 1 }
      if 4096 ≤ s.obs.trcCnt then s.traceSync else s

/-- The SYNC due 2^30 ticks after the last one (R346). -/
def State.traceTick (s : State) : State :=
  let s := s.drainTrace
  if s.traceRuns && s.obs.trcSync + 2 ^ 30 ≤ s.time then s.traceSync else s

/-- The ENGSTAT messages of a sample: one for each lane whose status has SAT, NAN, EMPTY, TREPFB, CHK or PRE set (R346). -/
def State.traceEng (s : State) : State :=
  if !(s.obs.trcEng && s.traceRuns) then s
  else forIdx 4 (fun l s =>
    let x := s.eng.lane l
    if x.status % 128 &&& 0x6F = 0 then s
    else s.traceMsg (6 * 2 ^ 85 + l * 2 ^ 83 + x.status % 2 ^ 40 * 2 ^ 43 + x.desc % 256 * 2 ^ 35 + s.time % 2 ^ 32 * 8)) s

/-- The message of part `p` of a record (R347): parts 0 to 4 carry bytes 0x00 to 0x27, part 5 their CRC-32. -/
def recMsg (rseq p data : Nat) : Nat := 8 * 2 ^ 85 + p * 2 ^ 82 + rseq % 65536 * 2 ^ 66 + data % 2 ^ 64 * 4

end Sys2Proof.Machine
end

