-- ==== Sys2Proof/Machine/Domain.lean ====
section
/-!
DEFINITION. The domain sample (R67 to R87, R96, R97, R138, R139, R159, R177, R383, R384): sense points and their trust, what
the TREPs say, the profile generator with the ballast terms, Skelrak's windows, the references that leave on the spine,
saturation, auto-tune and the share checks.
-/

namespace Sys2Proof.Machine

/-! ### Sense points (R75 to R80, R383, R384) -/

/-- vloc of a mitten in 1/60 set-point code: the mean of the VSNS of its working tiles that are not frozen on VSNS open
(R75). -/
def State.vloc60 (s : State) (m : Nat) : Option Nat :=
  let l := (s.mworking m).filter fun t => !(s.view t).vsnsOpen
  if l.isEmpty then none else some (60 * (l.map fun t => (s.view t).vsns).sum / l.length)

/-- The spread of the values of vloc over a window of samples, 1/60 set-point code (R76). -/
def spread (l : List (Option Nat)) : Nat :=
  let v := l.filterMap id
  v.foldl max 0 - v.foldl min (v.foldl max 0)

/-- The stuck and disagreement tests of one point over the sample that the TREPs cover (R76); answers the test that fails. `dis`
says whether the disagreement test runs, `v` is vloc. The stuck test looks at the last STUCK_N samples. -/
def Point.lateTests (p : Point) (stuckN : Nat) (dis : Bool) (v : Option Nat) : Point × Option Nat :=
  if !p.valid then (p, none)
  else
    let p := { p with same := if p.flat && p.prevFlat && p.mean == p.prevMean then (v :: p.same).take stuckN else [] }
    let p := if dis then (match v with
        | some x => { p with disCnt := if 9600 < ((120 * p.mean : Int) - x).natAbs then min 4 (p.disCnt + 1) else 0 }
        | none => p)
      else { p with disCnt := 0 }
    (p, if stuckN ≤ p.same.length ∧ 480 ≤ spread p.same then some 1 else if 4 ≤ p.disCnt then some 2 else none)

/-- A trusted point loses its trust; the third loss within one numbered round locks it (R77, R78). -/
def Point.lose (p : Point) (test round : Nat) : Point :=
  let n := if p.lossRound = round ∧ p.lossCnt ≠ 0 then min 3 (p.lossCnt + 1) else 1
  { p with trusted := false, why := some test, whyMean := p.mean, lossRound := round, lossCnt := n, locked := 3 ≤ n, passCnt := 0 }

/-- The outcome of a test: a trusted point that fails loses trust, an untrusted one counts the samples it passes (R78). -/
def Point.judge (p : Point) (fail : Option Nat) (round : Nat) : Point :=
  match fail with
  | some t => if p.trusted then p.lose t round else { p with passCnt := 0 }
  | none => if p.trusted || !p.valid then p else { p with passCnt := min 65535 (p.passCnt + 1) }

/-- Whether trust tests run in a loop state (R68). -/
def LoopState.tested : LoopState → Bool
  | .ramp | .closed | .tune => true
  | .idle | .ground => false

/-- Whether every trust test runs in a loop state (R68, R76). -/
def LoopState.full : LoopState → Bool
  | .closed | .tune => true
  | .idle | .ramp | .ground => false

/-- The tests over the sample that the TREPs cover, for every point of a domain (R76). -/
def lateTests (d : Nat) (s : State) : State :=
  let x := s.dom d
  if x.loop.tested then
    let n := s.stuckN
    forL (s.domPoints d) (fun i s => s.updPoint i fun p =>
      let (p, f) := p.lateTests n x.loop.full (s.vloc60 (i / 16))
      p.judge f (roundOf s.time)) s
  else s

/-- Whether a mean or RAIL fails plausibility (R76). -/
def implausible (full rail : Bool) (mean : Nat) : Bool := rail || (full && (mean < 300 || 1200 < mean))

/-- One sense word enters its point, with the plausibility test of that sample (R76, R77, R383). -/
def senseWord (w : SenseWord) (s : State) : State :=
  let i := w.point.val
  let fails := match s.mittenDom (i / 16) with
    | some d => (s.dom d).loop.tested && (s.domPoints d).contains i && implausible (s.dom d).loop.full w.rail w.mean
    | none => false
  s.updPoint i fun p =>
    let p := { p with prevMean := p.mean, prevFlat := p.flat, mean := w.mean, minv := w.min, flat := w.flat, valid := true }
    if fails then p.judge (some 0) (roundOf s.time) else p

/-- A mitten whose sense link failed in 16 consecutive samples: every one of its points fails plausibility (R384). -/
def senseLink (x : SampleIn) (d m : Nat) (s : State) : State :=
  let n := if (x.sense.filter fun w => w.point.val / 16 == m).length < 16 then min 16 ((s.mitten m).linkBad + 1) else 0
  let s := s.updMitten m fun y => { y with linkBad := n }
  if n = 16 ∧ (s.dom d).loop.tested then
    forIdx 16 (fun k s => if (s.domPoints d).contains (16 * m + k) then
      s.updPoint (16 * m + k) fun p => p.judge (some 0) (roundOf s.time) else s) s
  else s

/-- The enabled domains. -/
def State.doms_ (s : State) : List Nat := domIdx.filter s.enabled

/-- The sense data of a sample: a point without a word is voided (R384). -/
def State.senseIn (s : State) (x : SampleIn) : State :=
  let s := forL s.doms_ lateTests s
  let s := forL (s.points.map (·.1)) (fun i s => s.updPoint i fun p => { p with valid := false }) s
  let s := forL x.sense senseWord s
  forL s.doms_ (fun d s => forL (s.dmittens d) (senseLink x d) s) s

/-- The DATA of SENSE_TRUST (R424). -/
def Point.trustData (p : Point) : Nat := p.why.getD 0 + 4 * b2n (p.lossCnt == 3) + p.whyMean % 2048 * 65536

/-- SENSE_TRUST (R77, R79, R80): the loss found in the computation of this sample is raised; with the last trusted point of a
mitten or domain gone, so are SENSE_MITTEN_LOST and SENSE_DOMAIN_LOST. -/
def execSenseTrust (p : Fin 512) (s : State) : Out :=
  match (s.point p).why with
  | none => .next s
  | some _ =>
    let s := (s.updPoint p fun x => { x with why := none }).raise cSenseTrust (mkSrc 3 p) (s.point p).trustData
    let m := p.val / 16
    match s.mittenDom m with
    | none => .next s
    | some d =>
      let pts := s.domPoints d
      let mine := pts.filter (· / 16 == m)
      let gone (l : List Nat) : Bool := l.all fun i => !(s.point i).trusted && (s.point i).why.isNone
      if gone pts then .next (s.raise cSenseDomainLost (mkSrc 5 d) 0)
      else if gone mine ∧ (pts.any fun i => (s.point i).trusted) then .next (s.raise cSenseMittenLost (mkSrc 2 m) 0)
      else .next s

/-- TRUST_REGAIN (R78). -/
def execTrustRegain (p : Fin 512) (s : State) : Out :=
  let x := s.point p
  match s.mittenDom (p.val / 16) with
  | none => .next s
  | some d =>
    if !x.trusted ∧ !x.locked ∧ s.trustRegain ≤ x.passCnt ∧ (s.domPoints d).contains p.val then
      let s := s.updPoint p fun x => { x with trusted := true, passCnt := 0, why := none }
      .next ((s.endCause cSenseMittenLost (mkSrc 2 (p.val / 16))).endCause cSenseDomainLost (mkSrc 5 d))
    else .next s

/-! ### What the TREPs say (R58, R65, R95, R97, R177) -/

/-- A missed TREP is counted; a valid one clears the count (R65). -/
def missTrep (t : Nat) (s : State) : State :=
  let v := s.view t
  if v.present then s.updView t fun v => { v with missed := if v.got then 0 else min 16 (v.missed + 1), got := false } else s

/-- A current in mA as a domain-current code (R5). -/
def curCode (i : Int) : Nat := (clampI (openRound ((i : Rat) / 10)) 0 65535).toNat

/-- The current of a mitten, with that of a lost tile until the weights that follow its loss apply (R58, R95). -/
def mittenCur (m : Nat) (s : State) : State :=
  let l := ((List.range 6).map (6 * m + ·)).filter fun t => s.working t || s.time < (s.view t).imitTo
  s.updMitten m fun x => { x with imit := curCode (l.map fun t => (s.view t).itile).sum }

/-- ITILE − ishare of a tile under given weights, 1/128 mA (R37, R97). -/
def State.shareErr (s : State) (w : List Nat) (t : Nat) : Int :=
  128 * (s.view t).itile - 5 * (nth 0 w (t % 6) : Int) * (s.mitten (t / 6)).imit

/-- The share error of a working tile enters its history of 32 samples, with the weights in force in the sample that the TREPs
cover (R97). -/
def noteShare (t : Nat) (s : State) : State :=
  let w := (s.mitten (t / 6)).weightsAt (s.time - 32)
  if s.working t ∧ w ≠ [] then s.updView t fun v => { v with oscSigns := (s.shareErr w t :: v.oscSigns).take 32 }
  else s.updView t fun v => { v with oscSigns := [] }

/-- Adds a sample's power to the energy account of its class (R177, R185, R202). -/
def Limits.addClass (l : Limits) (k p : Nat) : Limits :=
  let up (a : Ladder) : Ladder := { a with nrg := a.nrg + p, roundE := a.roundE + p }
  match k with
  | 0 => { l with ladC := { l.ladC with roundE := l.ladC.roundE + p } }
  | 1 => { l with ladM := up l.ladM }
  | 2 => { l with ladL := up l.ladL }
  | _ => { l with nrgA := l.nrgA + p, roundA := l.roundA + p }

/-- The measured current and power of a domain in a sample, with what accumulates them (R177, R312). -/
def measureDom (d : Nat) (s : State) : State :=
  let ts := s.dworking d
  let i : Int := (ts.map fun t => (s.view t).itile).sum
  let v : Nat := (ts.map fun t => (s.view t).vsns).sum
  let c := curCode i
  let p := (max 0 (openRound ((i * v : Rat) / (2000 * max 1 ts.length)))).toNat
  let s := s.updDom d fun x => { x with
    iNow := c, pNow := p, accI := x.accI + c, accP := x.accP + p, nAcc := x.nAcc + 1, roundE := x.roundE + p
    iHist := (c :: x.iHist).take 16
    tlm := { x.tlm with accI := x.tlm.accI + c, nI := x.tlm.nI + 1, pPk := max x.tlm.pPk p, iPk := max x.tlm.iPk c } }
  s.updLim fun l => { (l.addClass (s.dclass d) p) with meas := l.meas + p }

/-- Every measurement of a sample. -/
def State.measure (s : State) : State :=
  let s := forIdx 192 missTrep s
  let ms := s.doms_.flatMap s.dmittens
  let s := forL ms mittenCur s
  let s := forL (ms.flatMap fun m => (List.range 6).map fun p => 6 * m + p) noteShare s
  let ts := (s.doms_.flatMap s.dworking)
  let s := s.updLim fun l => { l with vinAcc := l.vinAcc + (ts.map fun t => (s.tile t).vin).sum, vinN := l.vinN + ts.length }
  forL s.doms_ (fun d s => noteBase d (measureDom d s)) s

/-- The minimum of a domain and its source (R77, R80), with what the tune and telemetry keep of it. -/
def senseMin (d : Nat) (s : State) : State :=
  let x := s.dom d
  if x.loop.tested then
    let s := s.updDom d fun x => { x with tileLocal := !(s.domPoints d).any fun i => (s.point i).trusted }
    match s.vminOf d with
    | none => s
    | some (v, src) =>
      let s := s.updDom d fun x => { x with
        vmin := v, vminSrc := src.getD 4095
        tlm := if x.loop = .closed then { x.tlm with accV := x.tlm.accV + v, nV := x.tlm.nV + 1, vLo := min x.tlm.vLo v } else x.tlm }
      match s.inst.tuneRun with
      | some t => if t.dom = d ∧ t.active then s.updInst fun n => { n with tuneRun := some { t with lo := min t.lo v, hiV := max t.hiV v } } else s
      | none => s
  else s

/-! ### Set-point motion and ballast (R81 to R83) -/

/-- The values due for the next sample come into force (R69). -/
def shiftDom (d : Nat) (s : State) : State :=
  s.updDom d fun x => { x with rPrev := x.vset + x.lift, vset := x.vsetNext, lift := x.liftNext, ffb := x.ffbNext, fff := x.fffEm }

/-- Lift and pre-bias under the limits of R83, and the first limit that applied: the lift in force, VSET, the forecaster term
and the shapes' values are given. -/
def clampBallast (prev vset lift : Nat) (ffb fff : Int) : Nat × Int × Option Nat :=
  let a := min 80 lift
  let b := min (prev + 64) (max (prev - 64) a)
  let c := min b (2100 - vset)
  let f := clampI ffb (-128) 255
  (c, f, if a ≠ lift then some 0 else if b ≠ a then some 1 else if c ≠ b then some 2 else if f ≠ ffb then some 3
    else if clampI fff (-128) 127 ≠ fff then some 4 else none)

/-- Lift and pre-bias of a domain in CLOSED for the next sample; BALLAST_CLAMP once per run (R83, R122, R123). -/
def ballastNext (d : Nat) (s : State) : State :=
  let x := s.dom d
  if x.loop = .closed ∧ ¬ x.balSup then
    let t := s.time + 16
    let (l, f, c) := clampBallast x.lift x.vsetNext (s.liftAt d t) (s.biasAt d t) x.fff
    let s := s.updDom d fun x => { x with liftNext := l, ffbNext := f, balRun := c.isSome }
    match c with
    | some k => if x.balRun then s else s.raise cBallastClamp (mkSrc 5 d) k
    | none => s
  else s.updDom d fun x => { x with liftNext := 0, ffbNext := 0, balRun := false }

/-- The fixed VSET of a domain in GROUND (R68, R74). -/
def State.groundVset (s : State) (d : Nat) : Nat := min (s.vsafe d + 180) 2100

/-- One sample of the profile generator towards the target, or towards 0 mV in an off sequence (R81, R82, R272). -/
def stepVset (d : Nat) (s : State) : State :=
  let x := s.dom d
  let (v, a, j) := s.pgLimits d
  let (p, _) := pgStep ⟨x.pos, x.vel, x.acc⟩ (if x.bring.step.falling then 0 else pgTgt x.vtgt) v a j
  s.updDom d fun x => { x with pos := p.pos, vel := p.vel, acc := p.acc, vsetNext := pgVset p }

/-- Set-point motion of a domain: in GROUND VSET is fixed but for a domain that moves to its retention voltage (R74, R198,
R295), in TUNE it holds, and a motion that ends a tune starts at the sample after it (R98). -/
def moveVset (d : Nat) (s : State) : State :=
  let x := s.dom d
  if x.tuneOut then s
  else match x.loop with
  | .idle => s
  | .tune => s
  | .ground =>
    if x.retain then stepVset d s
    else s.updDom d fun x => { x with vsetNext := s.groundVset d, pos := pgTgt (s.groundVset d), vel := 0, acc := 0 }
  | .ramp | .closed => stepVset d s

/-- The mismatch test over the two slots of the sample that the TREPs cover, ahead of the terms for the next sample, which a
withdrawal takes in (R125, R126). -/
def testSample (d : Nat) (s : State) : State := testSlot d (s.time - 24) (testSlot d (s.time - 32) s)

/-- Set-point motion of a domain in a sample. -/
def motion (d : Nat) (s : State) : State := ballastNext d (moveVset d (wdStep d (shiftDom d s)))

/-! ### References (R57, R68, R69, R74, R352) -/

/-- The VREF and FF that a domain's mittens get in this sample. -/
def State.refOf (s : State) (d : Nat) : Option (Nat × Int) :=
  let x := s.dom d
  if x.loop = .idle then none
  else if s.obs.frozen then some (x.vref, 0)
  else match x.loop with
    | .ground => some (if x.retain then x.vsetNext else s.groundVset d, 0)
    | .closed => some (x.emVref, x.emFf)
    | .tune => some (x.emVref, 0)
    | .ramp | .idle => some (x.vsetNext, 0)

/-- Drives the spine with the references of the sample, and keeps what each domain was sent. -/
def State.sendRefs (s : State) : State :=
  let s := s.driveSpine fun m => match s.mittenDom m with | some d => s.refOf d | none => none
  forL s.doms_ (fun d t => match s.refOf d with
    | some (v, f) => t.updDom d fun x => { x with vref := v, ff := f }
    | none => t) s

/-! ### Saturation (R84, R98) -/

/-- Counts a saturated sample: u at its limit or VREF held at 1100 mV, in a domain that was in CLOSED before the sample and
is in it now. `was` is the loop state before. -/
def countSat (was : LoopState) (d : Nat) (s : State) : State :=
  s.updDom d fun x =>
    if x.loop = .closed ∧ was = .closed ∧ (x.uSat ∨ x.emVref = 2200) then { x with satCnt := min 65535 (x.satCnt + 1) }
    else { x with satCnt := 0, satEp := 0 }

/-- DOM_SAT (R84). -/
def execDomSat (d : Fin 32) (s : State) : Out :=
  let x := s.dom d
  if s.satTime ≤ x.satCnt ∧ ¬ bit x.satEp 0 then
    .next ((s.updDom d fun x => { x with satEp := x.satEp + 1 }).raise cDomSat (mkSrc 5 d) 0)
  else .next s

/-- DOM_SAT_PERSIST (R84): DATA holds the count and the sign of u. -/
def execDomSatPersist (d : Fin 32) (s : State) : Out :=
  let x := s.dom d
  if max s.satErr s.satTime ≤ x.satCnt ∧ ¬ bit x.satEp 1 then
    .next ((s.updDom d fun x => { x with satEp := x.satEp + 2 }).raise cDomSatPersist (mkSrc 5 d) (x.satCnt + 65536 * b2n x.uPos))
  else .next s

/-! ### Auto-tune (R85 to R87) -/

/-- An accepted auto-tune enters TUNE at a sample boundary, with the relay high (R85). -/
def State.tuneEnter (s : State) : State :=
  match s.inst.tuneRun with
  | some t =>
    if t.active ∨ (s.dom t.dom).loop ≠ .closed then s
    else (s.updInst fun n => { n with tuneRun := some { t with
        active := true, start := s.time, lastSwitch := s.time, vtgt := (s.dom t.dom).vtgt } }).updDom t.dom
      fun x => { x with loop := .tune }
  | none => s

/-- The cycles a tune has measured: the first two are discarded (R85). -/
def Tune.cycles (t : Tune) : Nat := t.swings.length - 2

/-- The mean of half the swings of the measured cycles, mV. -/
def Tune.amp (t : Tune) : Rat := let n := min t.n t.cycles; if n = 0 then 0 else ((t.swings.take n).sum : Rat) / (4 * n)

/-- The mean number of ticks between rising switches over the measured cycles. -/
def Tune.period (t : Tune) : Rat :=
  let n := min t.n t.cycles
  if n = 0 then 0 else ((nth 0 t.rises 0 : Rat) - nth 0 t.rises n) / n

/-- A quotient in FP32; by zero it is infinite. -/
def FV.quot : FV → FV → FV
  | .num a s, .num b t => if b = 0 then (if a = 0 then .nan else .inf (s != t)) else fp32 (a / b) (s != t)
  | .num _ s, .inf t => .num 0 (s != t)
  | .inf s, .num _ t => .inf (s != t)
  | .nan, _ => .nan
  | _, .nan => .nan
  | .inf _, .inf _ => .nan

/-- An FP32 result as an unsigned 16-bit code of `k` per unit, to nearest with ties to even (R86); one beyond the code, or infinite,
saturates, as R142 converts a float to an integer code (log entry 71). -/
def FV.code16 (k : Nat) : FV → Nat
  | .num q _ => (clampI (rne (q * k)) 0 65535).toNat
  | .inf _ => 65535
  | .nan => 0

/-- π in FP32. -/
def piF : FV := .num (13176795 / 4194304) false

/-- The five results in FP32 (R86): Ku, Tu, kp, ki, kd. -/
def Tune.results (t : Tune) : Nat × Nat × Nat × Nat × Nat :=
  let a := fp32 t.amp false
  let tu := fp32 t.period false
  let ku := FV.quot (.ofInt 20) (piF.mul a)
  let kp := (fp32 (35 / 100) false).mul ku
  let ki := FV.quot ((FV.ofInt 32).mul kp) tu
  let kd := FV.quot (kp.mul tu) (.ofInt 128)
  (ku.code16 256, tu.code16 16, kp.code16 256, ki.code16 256, kd.code16 256)

/-- The five result registers of a tune. -/
def Dom.tuneRegs (x : Dom) : List Nat := [x.tuneKu, x.tuneTu, x.tuneKp, x.tuneKi, x.tuneKd]

/-- Writes the five result registers of a tune. -/
def Dom.putTune (x : Dom) (l : List Nat) : Dom :=
  { x with tuneKu := nth 0 l 0, tuneTu := nth 0 l 1, tuneKp := nth 0 l 2, tuneKi := nth 0 l 3, tuneKd := nth 0 l 4 }

/-- Leaves TUNE with a result, ABORTED where an ABORT names the tune whatever else ends it; the law resumes from u0 with its
integrator as held (R87, R98). -/
def State.tuneFinish (s : State) (res : Nat) : State :=
  match s.inst.tuneRun with
  | none => s
  | some t =>
    let res := if t.aborted then 1 else res
    let (ku, tu, kp, ki, kd) := t.results
    let old := (s.dom t.dom).tuneRegs
    let s := s.updDom t.dom fun x =>
      let x := { x with tuneRes := res, tuneCyc := min 255 t.cycles, tuneOut := x.loop == .tune, loop := if x.loop = .tune then .closed else x.loop }
      if res = 0 then x.putTune [ku, tu, kp, ki, kd] else x
    (s.updInst fun n => { n with tuneRun := none, tuneLast := some { dom := t.dom, tick := s.time, regs := old } }).cmdDone 0x05 1

/-- An ABORT names the auto-tune of a domain: it ends at the next sample boundary. One that another condition has ended in this
frame becomes ABORTED, and the result registers keep their previous values (R87, R98). Answers whether there was one. -/
def State.tuneAbort (s : State) (d : Nat) : State × Bool :=
  if s.inst.tuneRun.any (·.dom == d) then
    (s.updInst fun n => { n with tuneRun := n.tuneRun.map fun t => { t with aborted := true } }, true)
  else match s.inst.tuneLast with
    | some e =>
      if e.dom = d ∧ frameOf e.tick = frameOf s.time ∧ (s.dom d).tuneRes ≠ 1 then
        (s.updDom d fun x => { x.putTune e.regs with tuneRes := 1 }, true)
      else (s, false)
    | none => (s, false)

/-- The condition that ends the running tune, if one applies, in the order of R87. -/
def State.tuneCond (s : State) (t : Tune) : Option Nat :=
  let x := s.dom t.dom
  if t.aborted then some 1
  else if (x.loop = .tune ∨ ¬ t.active) ∧ x.tileLocal then some 2
  else if t.active ∧ (x.loop ≠ .tune ∨ x.vtgt ≠ t.vtgt) ∨ s.grounded then some 3
  else if t.active ∧ (x.vmin + 50 < x.vset ∨ x.vset + 50 < x.vmin ∨ 20 < t.amp) then some 4
  else if t.active ∧ t.lastSwitch + 256 * 16 ≤ s.time then some 5
  else if t.active ∧ t.start + 4096 * 16 ≤ s.time ∧ t.cycles < t.n then some 6
  else if t.n ≤ t.cycles then some 0 else none

/-- TUNE_END (R87). -/
def execTuneEnd (s : State) : Out :=
  if s.time % 16 ≠ 0 ∨ s.obs.frozen then .next s
  else match s.inst.tuneRun with
    | none => .next s
    | some t => match s.tuneCond t with
      | some r => .next (s.tuneFinish r)
      | none => .next s

/-! ### Forecaster (R139, R159) -/

/-- The booked profiled increase of a domain's tickets in a slot, domain-current code (R139). -/
def State.bookedAt (s : State) (d slot : Nat) : Nat :=
  ((s.domTks d fun x => x.booked.isSome).map fun (_, x) =>
    let b := x.booked.getD 0
    if b ≤ slot then s.increase x.profile ((slot - b) / 8) else 0).sum

/-- Element `j` of the forecaster inputs of a domain as they stand now (R139). -/
def State.finNow (s : State) (d j : Nat) : Int :=
  let x := s.dom d
  if j < 16 then nth 0 x.iHist j
  else if j < 48 then s.bookedAt d (slotUp s.time + 8 * (j - 16))
  else if j < 56 then ((s.dclusters d).map fun c => tget 0 s.eng.cntPrev (16 * c + (j - 48))).sum
  else match j with
    | 56 => x.vset | 57 => x.lift | 58 => s.lim.vinF | 59 => s.domTemp d | _ => 0

/-- Latches the forecaster inputs of every enabled domain. -/
def State.latchFin (s : State) : State :=
  forL s.doms_ (fun d t => forIdx 64 (fun j t => t.updEng fun e => { e with fin := tset 0 e.fin (64 * d + j) (s.finNow d j) }) t) s

/-- Whether Skelrak runs its programs (R170, R292, R351). -/
def State.engineRuns (s : State) : Bool := !s.grounded && !s.obs.frozen && !s.inst.lockstep

/-- With three arrays retired no forecaster runs on lanes 2 and 3, whose domains have fff 0 (R168). -/
def State.fcLanes (s : State) : List Nat := (placement s.eng.retired).flatMap (·.2)

/-- FORECASTER_PERIOD (R159): the inputs are latched and every lane starts its forecaster programs, which run in the windows of the
period's samples, the first in the sample that starts at this tick (R160; log entry 1). -/
def execForecasterPeriod (s : State) : Out :=
  if s.time % (16 * s.eng.fcPer) ≠ 0 ∨ s.inst.inReset ∨ ¬ s.engineRuns then .next s
  else
    let s := s.latchFin
    let s := forIdx 4 (fun l s =>
      let ps := s.progsOf l 1
      if s.fcLanes.contains l then
        s.updEng fun e => e.setLane l { e.lane l with leftFc := ps.map fun p => (p.idx, 0) }
      else forL (ps.flatMap (·.dlist) |>.filter (· < 32)) (fun d s => s.updDom d fun x => { x with fff := 0, fffEm := 0 }) s) s
    .next s

/-! ### The sample -/

/-- Skelrak's part of a sample, in the order of R160: the domain loops, the forecaster and the attribution windows. -/
def State.engineSample (s : State) (ups : List (Nat × Nat)) : State :=
  let s := forL s.doms_ (fun d s => s.updDom d fun x => { x with uSat := false }) s
  let s := s.runLoops ups
  ((s.runWindow 1 ups).s.runWindow 2 ups).s.traceEng

/-- The losses by command: recorded in the frame in which RETIRE_TILE or RETIRE_PHASE is queued for a `TILE_CTL` write
(R95, R413). -/
def State.recordRetired (s : State) : State :=
  if s.time % 256 ≠ 0 then s
  else forL s.spine.nextQ (fun w s =>
    let t := 24 * w.chain + w.pos
    match w.word with
    | .retireTile => s.recordLoss t true
    | .retirePhase m => forL (maskList 4 m) (fun k s => s.recordPhase t k) s
    | .nop | .start | .ssTarget _ | .ssGo _ | .stop | .shed _ | .unshed _ | .crowbar | .clear | .setOfs _ | .setShare _
    | .capTest _ | .cfg _ _ => s) s

/-- Everything a domain sample brings at its boundary. -/
def State.sample (s : State) (x : SampleIn) : State :=
  let was := fun d => (s.dom d).loop
  let s := (forL s.doms_ shedOver s).recordRetired.releaseWords.measure
  if s.obs.frozen then s.sendRefs
  else
    let s := forL s.doms_ bringSample s.tuneEnter.landCommit
    let s := forL s.doms_ senseMin (s.senseIn x)
    let s := if s.engineRuns then forL s.doms_ testSample s else s
    let s := forL s.doms_ motion s
    let s := if s.engineRuns then s.engineSample (x.upsets.map fun (a, g) => (a.val, g.val)) else s
    let s := forL s.doms_ (fun d s => (countSat (was d) d s).updDom d fun y => { y with tuneOut := false }) s
    let s := match s.inst.tuneRun with
      | some t => if t.active then s.updDom t.dom fun y => { y with tuneCyc := min 255 t.cycles } else s
      | none => s
    s.sendRefs

/-- DOMAIN_SAMPLE (R67). -/
def execDomainSample (x : SampleIn) (s : State) : Out :=
  if s.time % 16 ≠ 0 ∨ s.inst.inReset ∨ ¬ s.inst.enumDone then .next s else .next (s.sample x)

/-! ### Shares after a loss (R96, R97) -/

/-- Whether a working tile lies outside its share band (R96). -/
def State.offShare (s : State) (t : Nat) : Bool :=
  let m := s.mitten (t / 6)
  let share := 5 * nth 0 m.weights (t % 6) * m.imit
  max share (10 * 500 * 128) < 10 * (s.shareErr m.weights t).natAbs

/-- REDIST_SLOW (R96): 500 ticks after each loss that is recorded. -/
def execRedistSlow (m : Fin 32) (s : State) : Out :=
  if (s.mitten m).lossTicks.any fun t => t + 500 ≤ s.time then
    let s := s.updMitten m fun x => { x with lossTicks := x.lossTicks.filter fun t => s.time < t + 500 }
    if (s.mworking m).any s.offShare then .next (s.raise cRedistSlow (mkSrc 2 m) 0) else .next s
  else .next s

/-- Sign changes along a list of differences; zeros have no sign. -/
def signChanges : List Int → Nat
  | a :: b :: l => (if a * b < 0 then 1 else 0) + signChanges (b :: l)
  | _ => 0

/-- Whether the share of a tile oscillates (R97). -/
def TView.shareOsc (v : TView) : Bool :=
  8 ≤ signChanges (v.oscSigns.filter (· ≠ 0)) && v.oscSigns.any fun e => 128000 < e.natAbs

/-- SHARE_OSC (R97): ks of the mitten is halved from the next frame, an odd code rounding down (log entry 71), and the third
failure is an ERROR. -/
def execShareOsc (t : Fin 192) (s : State) : Out :=
  if s.working t ∧ (s.view t).shareOsc then
    let m := t.val / 6
    let n := (s.mitten m).oscFails + 1
    let ks := max 1 ((if (s.mitten m).ksNow = 0 then s.tilePar.ks else (s.mitten m).ksNow) / 2)
    let s := s.updMitten m fun x => { x with oscFails := min 255 n, ksHalved := min 16 (x.ksHalved + 1), ksNow := ks }
    let s := forIdx 6 (fun p s => (s.updView (6 * m + p) fun v => { v with oscSigns := [] }).decideTile (6 * m + p) (.cfg 7 ks)) s
    .next (s.raiseSev cShareOsc (if 3 ≤ n then 2 else 1) (mkSrc 2 m) 0)
  else .next s

end Sys2Proof.Machine
end

