-- ==== Sys2Proof/Machine/Ground.lean ====
section
/-!
DEFINITION. GROUNDED (R74, R88, R94, R294 to R296): the decision for a cause, the entry at the frame that follows, and the
way out; with the retirement of arrays, whose last one leads there (R167).
-/

namespace Sys2Proof.Machine

/-- A decision to enter GROUNDED for a cause of R294, 0 for SET_MODE. The entry takes effect at the next frame; the shed
phases return there (R88). -/
def State.groundBy (s : State) (k : Nat) : State :=
  if bit s.inst.gndMask k ∨ bit s.inst.gndNext k then s
  else
    let s := if s.grounded ∨ s.inst.gndNext ≠ 0 then s else forL s.doms_ (fun d s => s.unshedDom d) s
    let s := s.updInst fun n => { n with gndNext := n.gndNext + 2 ^ k }
    if k = 0 then s else s.raiseInst cGroundedEntry k

/-- The loop of a domain in GROUNDED (R68, R295): CLOSED and TUNE become GROUND with no lift, pre-bias or forecast. -/
def groundDom (d : Nat) (s : State) : State :=
  s.updDom d fun x => match x.loop with
    | .closed | .tune => { x with
        loop := .ground, lift := 0, liftNext := 0, ffb := 0, ffbNext := 0, fff := 0, fffEm := 0, satCnt := 0, satEp := 0
        dwell := [] }
    | .idle | .ramp | .ground => { x with fff := 0, fffEm := 0 }

/-- Takes causes of GROUNDED into force at once: a running tune ends with TARGET_MOVED, loops change, weights become equal, and
phases still shed return (R87, R88, R94, R295). -/
def State.enterGround (s : State) (mask : Nat) : State :=
  let first := !s.grounded
  let s := s.updInst fun n => { n with gndMask := n.gndMask ||| mask, gndNext := 0 }
  if first ∧ s.grounded then
    let s := forL s.doms_ (fun d s => groundDom d (s.unshedDom d)) (if s.inst.tuneRun.isSome then s.tuneFinish 3 else s)
    forL (s.doms_.flatMap s.dmittens) (fun m s => s.reshare m false) s
  else s

/-- The integrator of a domain's law is set to 0 in every program that runs it (R149, R296). -/
def zeroLaw (d : Nat) (s : State) : State :=
  let s := s.updDom d fun x => { x with safeI := 0, safeE := 0, safeU := 0 }
  forL (((List.range 64).filterMap s.prog).filter fun p => p.act == 0 && p.dlist.contains d) (fun p s =>
    forL ((List.range p.ndesc).filter fun i => (s.desc p i).op == 7) (fun i s =>
      let k := s.desc p i
      forL ((List.range k.m).filter fun r => k.rowDom p.dlist r == some d) (fun r s => s.putV p.lane (64 * (k.dst + 1) + r) 0) s) s) s

/-- A regulating domain leaves GROUND: CLOSED with its integrator at 0, its generator at rest at the VSET in force (R296). -/
def ungroundDom (d : Nat) (s : State) : State :=
  if (s.dom d).loop = .ground then
    zeroLaw d (s.updDom d fun x => { x with
      loop := .closed, pos := pgTgt x.vset, vel := 0, acc := 0, vsetNext := x.vset, backoff := 0, dwell := [] })
  else s

/-- Causes of GROUNDED end; with the last one the instance leaves it and its weights return to the matrix (R294, R296). -/
def State.leaveGround (s : State) (mask : Nat) : State :=
  let was := s.grounded
  let s := s.updInst fun n => { n with gndMask := n.gndMask - (n.gndMask &&& mask) }
  if was ∧ ¬ s.grounded then
    forL (s.doms_.flatMap s.dmittens) (fun m s => s.reshare m false) (forL s.doms_ ungroundDom s)
  else s

/-- ENG_ARRAY_RETIRED (R167): the third failure charged within a round retires the array from the next frame; with no array
left the instance enters GROUNDED. -/
def execEngArrayRetired (a : Fin 4) (s : State) : Out :=
  if 3 ≤ tget 0 s.eng.charges a.val ∧ ¬ bit s.eng.retired a ∧ ¬ bit s.eng.retireNext a then
    let s := (s.updEng fun e => { e with retireNext := e.retireNext + 2 ^ a.val }).raise cEngArrayRetired (mkSrc 7 a) 0
    let s := s.endCause cEngArrayRetired (mkSrc 7 a)
    .next (if s.eng.retired + s.eng.retireNext = 15 then s.groundBy 3 else s)
  else .next s

/-- A retirement decided in the last frame takes effect: the budgets row of the new set applies (R161, R167, R168). -/
def State.retireArrays (s : State) : State :=
  if s.eng.retireNext = 0 then s
  else (s.updEng fun e => { e with retired := e.retired ||| e.retireNext, retireNext := 0 }).takeBudgets

end Sys2Proof.Machine
end

