-- ==== Sys2Proof/Machine/Limits.lean ====
section
/-!
DEFINITION. Power limits and energy (R172 to R193, R200 to R206): what a frame's measurements say, the instantaneous limits,
the class ladders, a field's round report, and the manager's allowance, its sharing, the disputes and the job table; with
the die decisions that carry modes and allocations (R15, R173, R186, R224).
-/

namespace Sys2Proof.Machine

/-! ### What a frame measured (R177, R178, R189, R202, R204, R313) -/

/-- The mean of a sum over its terms; none are open (log entry 8). -/
def meanOf (sum : Int) (n : Nat) : Int := if n = 0 then Config.divByZero sum else openRound ((sum : Rat) / n)

/-- The ticks of the frame that ends now which a ticket spent in LAUNCHED or RUNNING (R202). -/
def Ticket.runIn (x : Ticket) (now : Nat) : Nat :=
  if x.slot = 0 then 0
  else if x.state.runs then min now (max now x.slot) - max x.slot (now - 256)
  else if x.state.final then min now x.endTick - max x.slot (now - 256) else 0

/-- The run ticks of a job on a cluster in the frame that ends now, at most 256 (R202). -/
def State.jobRun (s : State) (c job : Nat) : Nat :=
  min 256 ((s.tks fun x => x.cluster == c && x.job == job).map fun e => e.2.runIn s.time).sum

/-- Charges a job with an energy in pJ (R202, R203). -/
def Limits.charge (l : Limits) (job pj : Nat) : Limits :=
  let a := tget {} l.jobs job
  { l with jobs := tset {} l.jobs job { a with pj := a.pj + pj, charged := true } }

/-- The static energy of a C domain over the frame that ends now: σ × 1.024 µs, shared by run ticks, the rest idle
(R202). -/
def chargeStatic (d : Nat) (s : State) : State :=
  if s.dclass d ≠ 0 ∨ s.grounded then s
  else
    let sigma := Config.attrSigma (s.dieDom d) (s.dom d).vset (s.domTemp d)
    let cs := s.dclusters d
    let js := ((s.tks fun x => cs.contains x.cluster && x.runIn s.time != 0).map fun e => e.2.job).dedup
    let part (j : Nat) : Nat := (openRound ((4 * sigma * (cs.map fun c => s.jobRun c j).sum : Nat) / (max 1 cs.length : Nat) : Rat)).toNat
    let s' := forL js (fun j s => s.updLim fun l => l.charge j (part j)) s
    s'.updLim fun l => { l with idle := l.idle + (1024 * sigma - (js.map part).sum) }

/-- Closes the frame of a domain: frame power and current, telemetry and the residual (R177, R179, R204, R312). -/
def closeDom (d : Nat) (s : State) : State :=
  chargeStatic d (s.updDom d fun x => { x with
    pFrame := if x.nAcc = 0 then 0 else (openRound ((x.accP : Rat) / x.nAcc)).toNat
    iFrame := if x.nAcc = 0 then 0 else (openRound ((x.accI : Rat) / x.nAcc)).toNat
    attrE := if s.grounded then x.attrE else x.attrE + ((x.accP : Int) - 16 * x.attrMw)
    tlm := { x.tlm with accP := x.tlm.accP + (if x.nAcc = 0 then 0 else (openRound ((x.accP : Rat) / x.nAcc)).toNat), nP := x.tlm.nP + 1 }
    accP := 0, accI := 0, nAcc := 0 })

/-- The field's frame power. -/
def State.framePower (s : State) : Nat := (s.doms_.map fun d => (s.dom d).pFrame).sum

/-- The frame power of a ladder class. -/
def State.classPower (s : State) (k : Nat) : Nat := ((s.doms_.filter fun d => s.dclass d == k).map fun d => (s.dom d).pFrame).sum

/-- The field's input over the frame that ends now (R178, R313). -/
def State.closeField (s : State) : State :=
  let p := s.framePower
  let v := (meanOf s.lim.vinAcc s.lim.vinN).toNat
  let i := (if v = 0 then Config.divByZero p else openRound ((1000 * p : Rat) / (9 * v))).toNat
  let s := s.updLim fun l => { l with
    vinF := v, iin := i, vinAcc := 0, vinN := 0
    vinOut := if v < 1550 ∨ 2050 < v then min 16 (l.vinOut + 1) else 0
    vinIn := if v < 1550 ∨ 2050 < v then 0 else min 16 (l.vinIn + 1) }
  s.updHk fun h => { h with
    accVin := h.accVin + v, accIin := h.accIin + i, accP := h.accP + p, nW := h.nW + 1
    vinLo := min h.vinLo (min 65535 v), iinPk := max h.iinPk i, pPk := max h.pPk p }

/-- The smallest CL_MARGIN codes of the frame that ends now (R189, R312). -/
def closeMargin (d : Nat) (s : State) : State :=
  let cs := (s.dclusters d).map s.cluster
  let m := (cs.map (·.frameMin)).foldl min 15
  let z := !cs.isEmpty && cs.all fun c => c.frameMax == 0
  let s := s.updDom d fun x => { x with clMinPrev := m, clZero := z, tlm := { x.tlm with winClm := min x.tlm.winClm m } }
  let s := forL (s.dclusters d) (fun c s => s.updCluster c fun y => { y with frameMin := y.margin, frameMax := y.margin }) s
  if z ∧ (s.dom d).clLowRound ≠ some (roundOf s.time) then
    (s.updDom d fun x => { x with clLowRound := some (roundOf s.time) }).raise cClMarginLow (mkSrc 5 d) 0
  else s

/-! ### Ladders (R187 to R189) -/

/-- The ladder of a class. -/
def Limits.ladder (l : Limits) : Nat → Ladder
  | 0 => l.ladC | 1 => l.ladM | _ => l.ladL

/-- Changes the ladder of a class. -/
def Limits.updLadder (l : Limits) (k : Nat) (f : Ladder → Ladder) : Limits :=
  match k with | 0 => { l with ladC := f l.ladC } | 1 => { l with ladM := f l.ladM } | _ => { l with ladL := f l.ladL }

/-- Changes the ladder of a class. -/
def State.updLadder (s : State) (k : Nat) (f : Ladder → Ladder) : State := s.updLim fun l => l.updLadder k f

/-- The sum of the last 16 frame powers of a class: 16 times P16 (R188). -/
def Ladder.sum16 (l : Ladder) : Nat := l.p16.sum

/-- A frame's class power enters the ladder, with the count of frames below the hysteresis mark (R188). -/
def closeLadder (k : Nat) (s : State) : State :=
  let p := s.classPower k
  s.updLadder k fun l =>
    let l := { l with p16 := (p :: l.p16).take 16 }
    { l with upCnt := match l.alloc with
      | some a => if 100 * l.sum16 < 16 * a * (100 - s.capHyst) then min 255 (l.upCnt + 1) else 0
      | none => 0 }

/-- Closes the measurements of a frame. -/
def State.closeFrame (s : State) : State :=
  let s := forL s.doms_ closeDom s
  let s := forL s.doms_ closeMargin s.closeField
  forIdx 3 closeLadder s

/-- The floor of a domain's voltage rung (R187). -/
def State.rungFloor (s : State) (d : Nat) : Nat := if s.dclass d = 0 then 0 else s.pFloor d

/-- Whether a domain can take a voltage notch: not one that follows its own request, nor one that a T_CRIT action holds
(R176, R187, R206). -/
def State.canVolt (s : State) (d : Nat) : Bool := !(s.dom d).vreqEn && !(s.dom d).thHold && s.rungFloor d < (s.dom d).pCap

/-- Whether a C domain can take a grant-rate notch (R187, R206). -/
def State.canRate (s : State) (d : Nat) : Bool := !(s.dom d).thHold && (s.dom d).spLadNext < 64

/-- The domains of a list that have the highest CAP_RANK (R26, R187). -/
def State.topGroup (s : State) (l : List Nat) : List Nat :=
  let r := (l.map s.capRank).foldl max 0
  l.filter fun d => s.capRank d == r

/-- The members of the notch on the voltage rung: the group with the highest CAP_RANK, without the domains whose CL_MARGIN
forbids it; a group that fails altogether moves on the grant-rate rung, and one that cannot leaves the notch to the next
group (R189). -/
def State.voltNotch (s : State) (k : Nat) : Nat → List Nat → List (Nat × Bool)
  | 0, _ => []
  | n + 1, l =>
    let g := s.topGroup l
    let pass := if k = 0 then g.filter fun d => s.marginStep ≤ (s.dom d).clMinPrev else g
    if g.isEmpty then []
    else if !pass.isEmpty then pass.map fun d => (d, false)
    else
      let r := g.filter s.canRate
      if r.isEmpty then s.voltNotch k n (l.filter fun d => !g.contains d) else r.map fun d => (d, true)

/-- The domains that a down notch moves, and whether on the grant-rate rung (R187, R189). -/
def State.downNotch (s : State) (k : Nat) : List (Nat × Bool) :=
  let ds := s.doms_.filter fun d => s.dclass d == k
  let v := ds.filter s.canVolt
  if !v.isEmpty then s.voltNotch k 32 v
  else if k = 0 then (s.topGroup (ds.filter s.canRate)).map fun d => (d, true) else []

/-- Moves a domain one notch down or up. -/
def notchDom (down bySp : Bool) (d : Nat) (s : State) : State :=
  s.updDom d fun x => match down, bySp with
    | true, true => { x with spLadNext := min 64 (2 * x.spLadNext), notches := x.notches + 1 }
    | true, false => { x with pCap := x.pCap - 1, notches := x.notches + 1 }
    | false, true => { x with spLadNext := max 1 (x.spLadNext / 2), notches := x.notches - 1 }
    | false, false => { x with pCap := x.pCap + 1, notches := x.notches - 1 }

/-- Whether the ladders run now: at a frame start, after the frame's own happening, outside GROUNDED and a freeze (R172,
R188, R351). -/
def State.ladderTime (s : State) : Bool :=
  s.time % 256 == 0 && s.inst.unitAt == s.time && s.inst.ready && !s.grounded && !s.obs.frozen && !s.inst.lockstep

/-- LADDER_NOTCH_DOWN (R187 to R189): it applies at the next frame. -/
def execLadderNotchDown (k : LadCls) (s : State) : Out :=
  let i := ladIdx k
  let l := s.lim.ladder i
  let due := l.lastStep.all fun f => f + s.stepDn ≤ frameOf s.time
  match l.alloc with
  | none => .next s
  | some a =>
    if s.ladderTime ∧ 16 * a < l.sum16 ∧ due then
      let m := s.downNotch i
      if m.isEmpty then .next s
      else .next ((forL m (fun (d, sp) s => notchDom true sp d s) s).updLadder i fun l => { l with
        stack := m :: l.stack, lastStep := some (frameOf s.time), upCnt := 0, moved := m, movedDown := true })
    else .next s

/-- Takes the most recent down notch that has a domain not held by a T_CRIT action: what it reverses and what stays
(R187, R206). -/
def popNotch (held : Nat → Bool) : List (List (Nat × Bool)) → List (Nat × Bool) × List (List (Nat × Bool))
  | [] => ([], [])
  | m :: r =>
    let free := m.filter fun e => !held e.1
    let kept := m.filter fun e => held e.1
    if free.isEmpty then let (a, b) := popNotch held r; (a, m :: b)
    else (free, if kept.isEmpty then r else kept :: r)

/-- LADDER_NOTCH_UP (R187, R188). -/
def execLadderNotchUp (k : LadCls) (s : State) : Out :=
  let i := ladIdx k
  let l := s.lim.ladder i
  if s.ladderTime ∧ l.alloc.isSome ∧ s.stepUp ≤ l.upCnt then
    let (m, r) := popNotch (fun d => (s.dom d).thHold) l.stack
    .next ((forL m (fun (d, sp) s => notchDom false sp d s) s).updLadder i fun l => { l with
      stack := r, upCnt := 0, lastStep := if m.isEmpty then l.lastStep else some (frameOf s.time)
      moved := if m.isEmpty then l.moved else m, movedDown := m.isEmpty && l.movedDown })
  else .next s

/-! ### Instantaneous limits (R179) -/

/-- Doubles SP_inst of a domain, up to 64. -/
def Dom.doubleSp (x : Dom) : Dom := { x with spInst := min 64 (2 * x.spInst), spLow := 0 }

/-- The domain-current limit of a domain over the last frame, with its episode (R179). -/
def limitDom (d : Nat) (s : State) : State :=
  let x := s.dom d
  if x.icap < x.iFrame then
    let s := s.updDom d fun x => let y := { x with icapEp := true, icapLow := 0 }; if s.dclass d = 0 then y.doubleSp else y
    if x.icapEp then s else s.raise cDomIcap (mkSrc 5 d) 0
  else if x.icapEp then
    let n := if x.iFrame < x.icap then x.icapLow + 1 else 0
    if 16 ≤ n then (s.updDom d fun x => { x with icapEp := false, icapLow := 0 }).endCause cDomIcap (mkSrc 5 d)
    else s.updDom d fun x => { x with icapLow := n }
  else s

/-- The field's input limit over the last frame (R179). -/
def State.limitField (s : State) : State :=
  let l := s.lim
  if s.iinLim < l.iin then
    let s := forL (s.doms_.filter fun d => s.dclass d == 0) (fun d s => s.updDom d Dom.doubleSp) s
    let s := s.updLim fun l => { l with iinEp := true, iinLow := 0 }
    if l.iinEp then s else s.raiseInst cIinOver 0
  else if l.iinEp then
    let n := if l.iin < s.iinLim then l.iinLow + 1 else 0
    if 16 ≤ n then (s.updLim fun l => { l with iinEp := false, iinLow := 0 }).endCause cIinOver s.srcInst
    else s.updLim fun l => { l with iinLow := n }
  else s

/-- SP_inst of a C domain halves once per CAP_STEP_UP frames in which both limited quantities stay below 90% of their limits
(R179). -/
def relaxSp (d : Nat) (s : State) : State :=
  let x := s.dom d
  if s.dclass d = 0 ∧ 1 < x.spInst ∧ 10 * x.iFrame < 9 * x.icap ∧ 10 * s.lim.iin < 9 * s.iinLim then
    let n := x.spLow + 1
    s.updDom d fun x => if s.stepUp ≤ n then { x with spInst := max 1 (x.spInst / 2), spLow := 0 } else { x with spLow := n }
  else s.updDom d fun x => { x with spLow := 0 }

/-- The instantaneous limits at a frame start; they do not run in GROUNDED (R172, R179). -/
def State.limitFrame (s : State) : State :=
  if s.grounded ∨ (¬ s.inst.committed ∧ ¬ s.inst.factory) then s
  else forL s.doms_ relaxSp (forL s.doms_ limitDom s).limitField

/-! ### Die decisions (R15, R173, R186, R224) -/

/-- The 32 low bits of an effective tick, extended to the tick nearest to now: a decision may arrive late (R15, R216). -/
def extendNear (g w : Nat) : Nat := let x := extend32 g w; if x - g < 2 ^ 31 then x else x - 2 ^ 32

/-- A mode that sheds no phases (R88). -/
def DecKind.shedless : DecKind → Bool
  | .mode .peak | .mode .grounded => true
  | .mode .balanced | .mode .efficient | .alloc _ _ | .ringUp _ | .offAll | .run _ _ => false

/-- A die decision waits for its effective tick. One for PEAK or GROUNDED that takes effect at the next frame returns the shed
phases there: it may arrive behind that frame's start (R15, R88). -/
def State.addDec (s : State) (eff : Nat) (k : DecKind) : State :=
  let s := if k.shedless ∧ eff ≤ nextFrame s.time then forL s.doms_ (fun d s => s.unshedDom d) s else s
  { s with decs := s.decs ++ [{ eff := eff, what := k }] }

/-- Decisions that meet a test are no longer awaited. -/
def State.dropDecs (s : State) (f : DecKind → Bool) : State := { s with decs := s.decs.filter fun x => !f x.what }

/-- A decision received after its effective tick applies at the next frame start and is counted (R15). -/
def State.takeDec (s : State) (eff : Nat) (k : DecKind) : State :=
  if s.time < eff then s.addDec eff k
  else (s.updTth fun t => { t with late := min 65535 (t.late + 1) }).addDec (nextFrame s.time) k

/-- The manager sends a mode decision and records it (R15, R173, R224). -/
def State.sendMode (s : State) (eff : Nat) (m : Mode) : State :=
  ((s.updMgr fun n => { n with modeRec := m }).broadcast 0x03 0 (t32 eff 73 + modeCode m * 2 ^ 71)).addDec eff (.mode m)

/-- The manager sends a class allocation to a field and records it (R186). -/
def State.sendAlloc (s : State) (eff fld k mw : Nat) : State :=
  let s := s.updMgr fun n => { n with allocRec := tset 0 n.allocRec (3 * fld + k) mw }
  if fld = s.inst.fieldId then s.addDec eff (.alloc k mw)
  else s.unicast 0x04 0 fld (t32 eff 73 + k * 2 ^ 71 + mw % 2 ^ 32 * 2 ^ 39 + roundOf s.time % 65536 * 2 ^ 23)

/-- DD_MODE (R173, R216). -/
def execDdMode (f : RxFlit) (s : State) : Out :=
  s.recv 0x03 f.ring f.flit (.ddMode f) fun s => s.takeDec (extendNear s.time (fbits f.flit 104 73)) (.mode (modeOf (fbits f.flit 72 71)))

/-- DD_ALLOC (R186, R216): class code 3 names no class. -/
def execDdAlloc (f : RxFlit) (s : State) : Out :=
  s.recv 0x04 f.ring f.flit (.ddAlloc f) fun s =>
    if fbits f.flit 72 71 = 3 then s
    else s.takeDec (extendNear s.time (fbits f.flit 104 73)) (.alloc (fbits f.flit 72 71) (fbits f.flit 70 39))

/-- A mode decision takes effect: code 0x3 is a cause of GROUNDED; another code ends that cause, and the mode is taken
(R173, R294, R300). A change of the mode ends a running auto-tune (R87). -/
def State.takeMode (s : State) (m : Mode) : State :=
  if m = .grounded then (s.enterGround 1).cmdDone 0x04 1
  else
    let s := if s.inst.tuneRun.isSome ∧ (s.inst.mode ≠ m ∨ s.grounded) then s.tuneFinish 3 else s
    let s := s.updInst fun n => { n with mode := m, modePrev := if n.modeSince = s.time then n.modePrev else n.mode, modeSince := s.time }
    (s.leaveGround 1).cmdDone 0x04 1

/-- What RUN brings to a field (R259, R262): every domain with START_ON waits for its window; a held worker starts on the
factory safe table at T_on. -/
def State.takeRun (s : State) (tOn tReady : Nat) : State :=
  let s := s.updInst fun n => { n with tOn := some tOn }
  if s.inst.factory ∨ tget 0 s.mgr.held s.inst.fieldId ≠ 0 ∨ ¬ s.inst.committed then s
  else
    let s := s.updInst fun n => { n with tReady := some tReady }
    if s.inst.fuseBad then s
    else forL (s.doms_.filter s.startOn) (fun d s => s.updBring d fun b => { b with
      status := .waiting, step := .waiting
      startAt := some (tOn + s.onOrder d * s.onWin + 256 * s.seqEntry d 0 + 16 * s.dieDom d)
      winEnd := some (tOn + (s.onOrder d + 1) * s.onWin) }) s

/-- A decision takes effect (R15). -/
def State.applyDec (s : State) (k : DecKind) : State :=
  match k with
  | .mode m => s.takeMode m
  | .alloc c mw => s.updLadder c fun l => { l with alloc := some mw }
  | .ringUp r =>
    let s := s.updTth fun t => if r = 1 then { t with ring1Down := false, linkA := false, ldLeft1 := 0, intact1 := 0 }
      else { t with ring2Down := false, linkB := false, ldLeft2 := 0, intact2 := 0 }
    s.endCause cTthLinkDown (mkSrc 8 (r - 1))
  | .offAll => forL s.doms_ (fun d s => s.updBring d fun b => { b with
      offAllAt := some (s.time + s.offOrder d * s.offWin + 256 * s.seqEntry d 2 + 16 * s.dieDom d) }) s
  | .run on rdy => if s.inst.tOn.isSome then s else s.takeRun on rdy

/-- DIE_DECISION_APPLY (R15): every decision whose effective tick has come, in order of arrival. While frozen nothing is
applied (R351), and at a frame start the step of R229 comes first and applies what falls due (R239). -/
def execDieDecisionApply (s : State) : Out :=
  if s.obs.frozen ∨ s.inst.inReset ∨ (s.tth.stepPend ∧ s.time % 256 = 0) then .next s
  else
    let due := s.decs.filter fun x => x.eff ≤ s.time
    .next (forL due (fun x s => s.applyDec x.what) { s with decs := s.decs.filter fun x => s.time < x.eff })

/-! ### A field's round report (R185, R203, R216) -/

/-- Whether a domain is on. -/
def State.domOn (s : State) (d : Nat) : Bool := (s.dom d).loop != .idle

/-- AT_FLOOR of a class (R185). -/
def State.classFloor (s : State) (k : Nat) : Bool :=
  (s.doms_.filter fun d => s.dclass d == k && s.domOn d).all fun d =>
    ((s.dom d).vreqEn || (s.dom d).pCap ≤ s.rungFloor d) && (k != 0 || (s.dom d).spLadNext == 64)

/-- The class energy of the running round, mW-samples. -/
def Limits.roundOfClass (l : Limits) (k : Nat) : Nat := if k = 3 then l.roundA else (l.ladder k).roundE

/-- The round mean of a class power, mW (R185). -/
def State.roundPower (s : State) (k : Nat) : Nat := (openRound ((s.lim.roundOfClass k : Rat) / 16384)).toNat

/-- The sum of a policy estimate over the domains of a class that are on. -/
def State.sumOn (s : State) (k : Nat) (f : Nat → Nat) : Nat :=
  ((s.doms_.filter fun d => s.dclass d == k && s.domOn d).map f).sum

/-- F_k (R185). -/
def State.floorOf (s : State) (k : Nat) : Nat := if s.classFloor k then s.roundPower k else s.sumOn k s.pFlr

/-- D_k (R185). -/
def State.demandOf (s : State) (k : Nat) : Nat :=
  if (s.doms_.filter fun d => s.dclass d == k).all fun d => (s.dom d).notches == 0 then s.roundPower k
  else max (s.roundPower k) (s.sumOn k s.pNom)

/-- The round's domain energy in whole µJ, the remainder carried (R177). -/
def Limits.roundUj (l : Limits) : Nat := l.meas / 15625 - l.measRep / 15625

/-! ### The manager receives reports (R185, R203, R216, R224) -/

/-- The report of a field that is being received stands behind the complete ones. -/
def partKey (fld : Nat) : Nat := 8 + fld

/-- One part of a field's report enters; the seventh completes it (R185). -/
def State.reportPart (s : State) (fld rnd : Nat) (f : Report → Report) : State :=
  s.updMgr fun m =>
    let r := tget {} m.reports (partKey fld)
    let r : Report := if r.round = rnd then r else { r with round := rnd, fresh := 0 }
    let r : Report := { f r with fresh := r.fresh + 1 }
    if r.fresh = 7 then
      let old := tget {} m.reports fld
      { m with reports := tset {} (tset {} m.reports fld { r with missed := old.missed }) (partKey fld) { r with fresh := 8 } }
    else { m with reports := tset {} m.reports (partKey fld) { r with fresh := min 15 r.fresh } }

/-- What RPT_CLASS carries (R216). -/
def Report.takeClass (r : Report) (k : Nat) (fl : Bool) (p f : Nat) : Report :=
  { r with p := setNth r.p k p, f := setNth r.f k f, fl := setNth r.fl k fl }
/-- What RPT_DEMAND carries (R216). -/
def Report.takeDemand (r : Report) (k d inf : Nat) : Report := { r with d := setNth r.d k d, inForce := setNth r.inForce k inf }
/-- What RPT_FIELD carries (R216). -/
def Report.takeField (r : Report) (a uj : Nat) (g : Bool) (mode : Nat) : Report :=
  { r with aPow := a, energy := uj, grounded := g, mode := mode }

/-- RPT_CLASS (R185, R216). -/
def execRptClass (f : RxFlit) (s : State) : Out :=
  s.recv 0x0D f.ring f.flit (.rptClass f) fun s =>
    if s.inst.manager ∧ fbits f.flit 104 103 ≠ 3 then
      s.reportPart (fSrc f.flit) (fbits f.flit 37 22) fun r => r.takeClass (fbits f.flit 104 103) (bit f.flit.toNat 102) (fbits f.flit 101 70) (fbits f.flit 69 38)
    else s

/-- RPT_DEMAND (R185, R216). -/
def execRptDemand (f : RxFlit) (s : State) : Out :=
  s.recv 0x0E f.ring f.flit (.rptDemand f) fun s =>
    if s.inst.manager ∧ fbits f.flit 104 103 ≠ 3 then
      s.reportPart (fSrc f.flit) (fbits f.flit 38 23) fun r => r.takeDemand (fbits f.flit 104 103) (fbits f.flit 102 71) (fbits f.flit 70 39)
    else s

/-- RPT_FIELD (R185, R216). -/
def execRptField (f : RxFlit) (s : State) : Out :=
  s.recv 0x0F f.ring f.flit (.rptField f) fun s =>
    if s.inst.manager then
      s.reportPart (fSrc f.flit) (fbits f.flit 37 22) fun r => r.takeField (fbits f.flit 104 73) (fbits f.flit 72 41) (bit f.flit.toNat 40) (fbits f.flit 39 38)
    else s

/-- Adds a job record to the job table, or to the overflow counter of a full table (R203). -/
def State.addJob (s : State) (job uj : Nat) : State :=
  let m := s.mgr
  match m.jobs.find? fun e => e.2.valid && e.2.job == job with
  | some (i, e) => s.updMgr fun m => { m with jobs := tset {} m.jobs i { e with uj := (e.uj + uj) % 2 ^ 64 } }
  | none =>
    let e : JobEnt := { job := job, valid := true, uj := uj % 2 ^ 64 }
    match m.jobFree with
    | i :: r => s.updMgr fun m => { m with jobs := tset {} m.jobs i e, jobFree := r }
    | [] =>
      if m.jobs.length < 4096 then s.updMgr fun m => { m with jobs := tset {} m.jobs m.jobs.length e }
      else
        let s := s.updMgr fun m => { m with jobOvf := (m.jobOvf + uj) % 2 ^ 64 }
        if m.jobFullRd = some (roundOf s.time) then s
        else (s.updMgr fun m => { m with jobFullRd := some (roundOf s.time) }).raiseInst cNrgJobFull 0

/-- JOB_NRG (R203, R216). -/
def execJobNrg (f : RxFlit) (s : State) : Out :=
  s.recv 0x10 f.ring f.flit (.jobNrg f) fun s => if s.inst.manager then s.addJob (fbits f.flit 104 89) (fbits f.flit 88 33) else s

/-- A job record leaves for the manager, or waits while the manager is lost: 256 jobs, the others count as lost (R208,
R234). -/
def State.sendJob (s : State) (rnd job uj : Nat) : State :=
  if s.inst.manager then s.addJob job uj
  else if s.tth.mgrLost.isSome then
    s.updLim fun l =>
      if (l.jobHeld.any fun e => e.1 == job) ∨ l.jobHeld.length < 256 then
        { l with jobHeld := tset 0 l.jobHeld job (tget 0 l.jobHeld job + uj) }
      else { l with jobLost := min (2 ^ 32 - 1) (l.jobLost + 1) }
  else s.toManager 0x10 1 (job * 2 ^ 89 + uj % 2 ^ 56 * 2 ^ 33 + rnd % 65536 * 2 ^ 17)

/-- One record per job charged in the round, in whole µJ; the remainder stays (R203). -/
def State.sendJobs (s : State) (rnd : Nat) : State :=
  forL (s.lim.jobs.filter fun e => e.2.charged) (fun (j, a) s =>
    (s.updLim fun l => { l with jobs := tset {} l.jobs j { a with pj := a.pj % 1000000, charged := false } }).sendJob rnd j
      (a.pj / 1000000)) s

/-- The field report of the round just completed (R185); the manager's own goes straight into its table (R208). After a
lockstep mismatch the sequencer sends RPT_FIELD alone (R293). -/
def State.sendReport (s : State) (rnd : Nat) : State :=
  let r := rnd % 65536
  let rf (s : State) : State :=
    let (a, e, g, m) := (s.roundPower 3, s.lim.roundUj, s.grounded, modeCode s.modeNow)
    if s.inst.manager then s.reportPart s.inst.fieldId r fun x => x.takeField a e g m
    else s.toManager 0x0F 1 (a % 2 ^ 32 * 2 ^ 73 + e % 2 ^ 32 * 2 ^ 41 + b2n g * 2 ^ 40 + m * 2 ^ 38 + r * 2 ^ 22)
  if s.inst.lockstep then rf s
  else
    let cls (k : Nat) (s : State) : State :=
      let (fl, p, f, d) := (s.classFloor k, s.roundPower k, s.floorOf k, s.demandOf k)
      let inf := (s.lim.ladder k).alloc.getD 0
      let s := s.updLadder k fun l => { l with atFloor := fl }
      if s.inst.manager then
        (s.reportPart s.inst.fieldId r fun x => x.takeClass k fl p f).reportPart s.inst.fieldId r fun x => x.takeDemand k d inf
      else
        (s.toManager 0x0D 1 (k * 2 ^ 103 + b2n fl * 2 ^ 102 + p % 2 ^ 32 * 2 ^ 70 + f % 2 ^ 32 * 2 ^ 38 + r * 2 ^ 22)).toManager 0x0E 1
          (k * 2 ^ 103 + d % 2 ^ 32 * 2 ^ 71 + inf % 2 ^ 32 * 2 ^ 39 + r * 2 ^ 23)
    rf (forIdx 3 cls s)

/-- The sums of a round report start again (R185). -/
def State.newSums (s : State) : State :=
  s.updLim fun l => { l with
    measRep := l.meas, roundA := 0, ladC := { l.ladC with roundE := 0 }, ladM := { l.ladM with roundE := 0 }
    ladL := { l.ladL with roundE := 0 } }

/-- A round's sums start again. -/
def State.newRound (s : State) : State :=
  forL s.doms_ (fun d s => s.updDom d fun x => { x with roundE := 0, attrE := 0 }) s.newSums

/-! ### The manager's allowance (R180 to R182, R192, R193) -/

/-- "None" as a cap (R180). -/
def capNone : Nat := 0xFFFFFFFF

/-- S_w of a window of `n` rounds; rounds before READY count as `fill` (R181). -/
def winSum (powers : List Nat) (n fill : Nat) : Nat := (powers.take n).sum + (n - powers.length) * fill

/-- The allowance of one window (R182). -/
def winAllow (cap n sum plim : Nat) : Nat :=
  if cap = capNone then plim else (clampI ((cap : Int) + ((n * cap : Int) - sum) / 64) 0 plim).toNat

/-- S_w1. -/
def State.sum1 (s : State) : Nat := winSum s.mgr.powers s.nW1 s.mgr.fill1
/-- S_w2. -/
def State.sum2 (s : State) : Nat := winSum s.mgr.powers s.nW2 s.mgr.fill2

/-- The die allowance of the round (R182). -/
def State.allowance (s : State) : Nat :=
  min (winAllow s.mgr.capW1 s.nW1 s.sum1 s.mgr.diePlim) (min (winAllow s.mgr.capW2 s.nW2 s.sum2 s.mgr.diePlim) s.mgr.diePlim)

/-- The last report of a field. -/
def State.report (s : State) (fld : Nat) : Report := tget {} s.mgr.reports fld

/-- Whether a field's power is reserved before anything is shared: it reports GROUNDED, is held, or is lost (R186, R221,
R235). -/
def State.fldGrounded (s : State) (fld : Nat) : Bool :=
  (s.report fld).grounded || tget 0 s.mgr.held fld != 0 || tget false s.mgr.lostF fld || decide (4 ≤ (s.report fld).missed)

/-- The die's energy of the completed round enters the windows (R181). -/
def State.roundPowers (s : State) : State :=
  let e := (s.mgr.roster.map fun f => (s.report f).energy).sum
  let p := roundNat (15625 * e) 16384
  s.updMgr fun m => { m with dieMj := e, diePwr := p, powers := (p :: m.powers).take (max s.nW1 s.nW2) }

/-- Over its cap: the average of a window (R192, R409). -/
def winOver (cap n sum : Nat) : Bool := cap != capNone && n * cap < sum

/-- Every field that is not in GROUNDED has reported AT_FLOOR for every class in this round (R192, R206). -/
def State.allFloor (s : State) (rnd : Nat) : Bool :=
  (s.mgr.roster.filter fun f => !s.fldGrounded f).all fun f =>
    (s.report f).round == rnd % 65536 && (s.report f).fl.all id

/-- The data of CAP_FLOOR (R424). -/
def capFloorData (pwr w : Nat) : Nat := min (2 ^ 24 - 1) pwr + w * 2 ^ 24

/-- CAP_FLOOR and what counts towards its end (R192). -/
def State.judgeFloor (s : State) (rnd : Nat) : State :=
  let m := s.mgr
  let over1 := winOver m.capW1 s.nW1 s.sum1
  let over2 := winOver m.capW2 s.nW2 s.sum2
  let hit1 := over1 && m.capW1 < m.diePwr
  let hit2 := over2 && m.capW2 < m.diePwr
  let fl := s.allFloor rnd
  let s := s.updMgr fun m => { m with over1 := over1, over2 := over2 }
  if m.capFloor then
    s.updMgr fun m => { m with capFloorN := if fl && (hit1 || hit2) then 0 else min 16 (m.capFloorN + 1) }
  else if fl && (hit1 || hit2) then
    let w := if hit1 then 0 else 1
    (s.updMgr fun m => { m with capFloor := true, capFloorW := w, capFloorN := 0 }).raiseInst cCapFloor (capFloorData m.diePwr w)
  else s

/-- Fields in ascending FIELD_ID that take part in the sharing. -/
def State.sharers (s : State) : List Nat := (List.range 8).filter fun f => s.mgr.roster.contains f && !s.fldGrounded f

/-- What a field asks for beyond its floor (R186). -/
def State.want (s : State) (k f : Nat) : Nat := nth 0 (s.report f).d k - nth 0 (s.report f).f k

/-- The allocations of one class beyond the floors: `give` is shared by what the fields ask for, and the mW left over go one
each to the first that ask (R186). -/
def State.shareClass (s : State) (k give : Nat) : List (Nat × Nat) :=
  let fs := s.sharers
  let want := (fs.map (s.want k)).sum
  let base := fs.map fun f => (f, if want = 0 then 0 else give * s.want k f / want)
  let extra := give - (base.map (·.2)).sum
  let takers := ((fs.filter fun f => s.want k f != 0).take extra)
  base.map fun (f, x) => (f, x + (if want ≠ 0 ∧ takers.contains f then 1 else 0))

/-- What is left of the allowance after the A power, the GROUNDED fields and the floors (R186). -/
def State.leftover (s : State) (a : Nat) : Int :=
  let g := s.mgr.roster.filter s.fldGrounded
  (a : Int) - ((s.mgr.roster.map fun f => (s.report f).aPow).sum : Nat) - ((g.map fun f => (s.report f).p.sum).sum : Nat) -
    ((s.sharers.map fun f => (s.report f).f.sum).sum : Nat)

/-- The allocations (R186): field, class, mW. Classes are filled in keep order, the reverse of CUT_ORDER. -/
def State.allocations (s : State) (a : Nat) : List (Nat × Nat × Nat) :=
  (s.cutOrder.reverse.foldl (fun (left, out) k =>
    let want : Nat := (s.sharers.map (s.want k)).sum
    let give := (clampI left 0 want).toNat
    (left - give, out ++ (s.shareClass k give).map fun (f, x) => (f, k, nth 0 (s.report f).f k + x)))
    (s.leftover a, ([] : List (Nat × Nat × Nat)))).2

/-! ### Missing reports and disputes (R185, R224, R235) -/

/-- Counts the rounds in which a field's report is missing (R235). A lost field whose report arrives again is a worker once
more from the following round. -/
def countMissed (rnd f : Nat) (s : State) : State :=
  let r := s.report f
  let got := r.round == rnd % 65536
  s.updMgr fun m => { m with reports := tset {} m.reports f { r with missed := if got then 0 else min 7 (r.missed + 1) } }

/-- Adds a class's round difference, in mW-samples, to its residual in whole µJ with the remainder carried (R177, R204). -/
def addResid (k : Nat) (x : Int) (s : State) : State :=
  s.updMgr fun m =>
    let t := tget 0 m.residRem k + x
    { m with resid := tset 0 m.resid k (tget 0 m.resid k + t / 15625), residRem := tset 0 m.residRem k (t % 15625) }

/-- The residual of the round over every domain of the die (R204): the manager's own field, and each worker outside GROUNDED by its
report; a worker's modelled energy reaches the manager by no flit, so its difference is open (log entry 74). -/
def State.judgeResid (rnd : Nat) (s : State) : State :=
  let ws := (s.mgr.roster.filter fun f => f != s.inst.fieldId && !(s.report f).grounded)
  let s := forL ws (fun f s => forIdx 4 (fun k s => addResid k (Config.fieldResid rnd f k) s) s) s
  let diff := s.mgr.residDiff + (ws.map fun f => ((List.range 4).map (Config.fieldResid rnd f)).sum).sum
  let e := s.mgr.residMeas + (ws.map fun f => 15625 * (s.report f).energy).sum
  let high := e != 0 && s.attrTol * e < 100 * diff.natAbs
  s.updMgr fun m => { m with
    residPct := if e = 0 then m.residPct else (min 65535 (openRound ((10000 * diff.natAbs : Nat) / (e : Rat)))).toNat
    residCnt := if high then min 16 (m.residCnt + 1) else 0, residEp := m.residEp && high }

/-- Whether no mode decision has come between the fields' reports and now. -/
def State.modeSettled (s : State) : Bool :=
  s.inst.modeSince < 262144 * roundOf s.time && s.decs.all fun x => match x.what with
    | .mode _ => false
    | .alloc _ _ | .ringUp _ | .offAll | .run _ _ => true

/-- The dispute check of one field against the manager's record, before this round's allocations (R224, R235): the decision
is sent again and TTH_DISPUTE raised. The record of a worker that the manager holds is GROUNDED (R221); a field that is back
gets the current decisions. -/
def disputeFld (eff rnd f : Nat) (s : State) : State :=
  let r := s.report f
  if r.round ≠ rnd % 65536 then s
  else
    let back := tget false s.mgr.lostF f
    let held := tget 0 s.mgr.held f != 0
    let want : Mode := if held then .grounded else s.mgr.modeRec
    let mBad := s.modeSettled && (r.mode != modeCode want || r.grounded != (want == .grounded))
    let aBad := (List.range 3).any fun k => nth 0 r.inForce k != tget 0 s.mgr.allocRec (3 * f + k)
    let s := (s.updMgr fun m => { m with lostF := tset false m.lostF f false }).endCause cTthWorkerLost (mkSrc 0xC f)
    let s := if (mBad || back) && s.modeSettled then s.sendMode eff s.mgr.modeRec else s
    let s := if back || (aBad && s.fldGrounded f) then
        forIdx 3 (fun k s => s.sendAlloc eff f k (tget 0 s.mgr.allocRec (3 * f + k))) s else s
    if mBad || aBad then s.raise cTthDispute (mkSrc 0xC f) 0 else s

/-- The manager's work in frame 4 of a round (R181, R182, R185, R186, R192, R206, R224). -/
def State.allocate (s : State) : State :=
  let rnd := roundOf s.time - 1
  let eff := decisionTick s.time
  let s := forL s.mgr.roster (countMissed rnd) s
  let s := (s.roundPowers.judgeFloor rnd).judgeResid rnd
  let a := s.allowance
  let al := s.allocations a
  let s := forL s.mgr.roster (disputeFld eff rnd) (s.updMgr fun m => { m with allow := a, dispLast := some (roundOf s.time) })
  let s := forL al (fun (f, k, mw) s => s.sendAlloc eff f k mw) s
  let s := match s.mgr.modeHold with
    | some m => s.sendMode eff m
    | none => s
  s.updMgr fun m => { m with capPend := none, modeHold := none }

/-- MANAGER_ALLOCATION (R186). -/
def execManagerAllocation (s : State) : Out :=
  if s.inst.manager ∧ s.inst.ready ∧ s.time % 262144 / 256 = 4 ∧ s.mgr.dispLast ≠ some (roundOf s.time) ∧ ¬ s.obs.frozen ∧
      ¬ s.inst.lockstep ∧ ¬ s.inst.factory then
    .next s.allocate
  else .next s

/-- CAP_FLOOR_END (R192, R424). -/
def execCapFloorEnd (s : State) : Out :=
  let m := s.mgr
  if s.inst.manager ∧ m.capFloor ∧ 16 ≤ m.capFloorN then
    let s := (s.updMgr fun m => { m with capFloor := false, capFloorN := 0 }).raiseInst cCapFloorEnd (capFloorData m.diePwr m.capFloorW)
    .next (s.endCause cCapFloor s.srcInst)
  else .next s

/-! ### The residual (R204) -/

/-- The residual of the manager's own field in the round just completed; the relative residual of the die waits for the reports
(R204). -/
def State.ownResid (s : State) : State :=
  if ¬ s.inst.manager then s
  else if s.grounded then s.updMgr fun m => { m with residDiff := 0, residMeas := 0 }
  else
    let s := forL s.doms_ (fun d s => addResid (s.dclass d) (s.dom d).attrE s) s
    s.updMgr fun m => { m with
      residDiff := (s.doms_.map fun d => (s.dom d).attrE).sum, residMeas := (s.doms_.map fun d => (s.dom d).roundE).sum }

/-- ATTR_RESIDUAL (R204). -/
def execAttrResidual (s : State) : Out :=
  if s.inst.manager ∧ 16 ≤ s.mgr.residCnt ∧ ¬ s.mgr.residEp then
    .next ((s.updMgr fun m => { m with residEp := true }).raiseInst cAttrResidual 0)
  else .next s

end Sys2Proof.Machine
end

