-- ==== Sys2Proof/Machine/Thermal.lean ====
section
/-!
DEFINITION. Temperatures (R28, R194 to R197, R301, R302) and what a domain does on coolant loss (R198): sensor validity,
mitten temperatures, the thermal rows of a round, and the coolant action that R196, R198, R274 and R288 share.
-/

namespace Sys2Proof.Machine

/-! ### The ADC sequence of the field (R306, R307) -/

/-- A number of the field's ADC block; on the factory safe table there is none. -/
def State.adcN (s : State) (off n : Nat) : Nat := if s.inst.factory then 0 else s.cn 10 off n
/-- N_ENT. -/
def State.adcEnts (s : State) : Nat := min 16 (s.adcN 0 1)
/-- KIND of an entry: 0 RAW, 1 VOLT, 2 CURR, 3 THERM. -/
def State.adcKind (s : State) (i : Nat) : Nat := s.adcN (0x44 + 12 * i) 1 % 4
/-- The thermal group of a THERM entry. -/
def State.adcGroup (s : State) (i : Nat) : Nat := s.adcN (0x44 + 12 * i) 1 / 16
/-- The domain a THERM entry acts on; none with DOM_NONE. -/
def State.adcDom (s : State) (i : Nat) : Option Nat :=
  if bit (s.adcN (0x40 + 12 * i) 1) 5 then none else some (s.adcN (0x45 + 12 * i) 1 % 32)
/-- Entry `i` of the ADC sequence. -/
def State.adc (s : State) (i : Nat) : AdcEnt := tget {} s.hk.ents i
/-- Changes entry `i` of the ADC sequence. -/
def State.updAdc (s : State) (i : Nat) (f : AdcEnt → AdcEnt) : State :=
  s.updHk fun h => { h with ents := tset {} h.ents i (f (tget {} h.ents i)) }

/-! ### The coolant action of a domain (R196, R198, R274, R288) -/

/-- The coolant off ramp: the domain ramps to 0 mV under the coolant limits; its tickets are withdrawn at the next frame, as
R113 has it (R198). -/
def State.coolOff (s : State) (d : Nat) : State := s.startOff d true

/-- A domain acts as on coolant loss: A stays; a bring-up of another class ends ABORTED and takes the coolant off ramp, as
does a C domain that is on; an M or L domain moves to its retention voltage (R198). -/
def coolDomain (d : Nat) (s : State) : State :=
  let x := s.dom d
  if s.dclass d = 3 then s
  else if x.bring.step.rising ∧ ¬ x.bring.keepStatus then (s.abortBring d).coolOff d
  else if x.loop = .idle then s
  else if s.dclass d = 0 ∨ x.bring.step.falling then s.coolOff d
  else s.updDom d fun x => { x with retain := true, bring := { x.bring with resume := false } }

/-- A notch of this frame that moved a domain is taken back for it; its notch count is what it was (R206). -/
def State.dropNotch (s : State) (d : Nat) : State :=
  let k := s.dclass d
  let l := s.lim.ladder k
  match l.moved.find? fun e => e.1 == d with
  | some (_, sp) =>
    if k = 3 ∨ l.lastStep ≠ some (frameOf s.time) then s
    else (notchDom (!l.movedDown) sp d s).updLadder k fun l => { l with
      moved := l.moved.filter fun e => e.1 != d
      stack := if l.movedDown then (l.stack.headD []).filter (fun e => e.1 != d) :: l.stack.tail else [(d, sp)] :: l.stack }
  | none => s

/-- The T_CRIT action of a domain, which holds it until a DOMAIN_ON is accepted (R196); a notch decided in the same frame is
discarded (R206). -/
def State.critDomain (s : State) (d : Nat) : State := coolDomain d ((s.dropNotch d).updDom d fun x => { x with thHold := true })

/-! ### Sensors (R194, R302) -/

/-- The mitten of a sensor. -/
def sensorMitten (i : Nat) : Nat := i / 4

/-- TEMP_CONVERSION (R302): in the sensor's frame of the round. -/
def execTempConversion (i : Fin 128) (code : Int) (s : State) : Out :=
  if frameOf s.time % 64 = i.val % 64 ∧ ¬ s.inst.inReset then
    .next { s with sensors := tset {} s.sensors i.val { s.sensor i with conv := clampI code (-32768) 32767, has := true } }
  else .next s

/-- THERM_CRIT (R196): the comparator of a valid sensor reaches T_CRIT of its group. -/
def execThermCrit (i : Fin 128) (code : Int) (s : State) : Out :=
  let m := sensorMitten i
  if (s.sensor i).valid ∧ ¬ (s.sensor i).hot ∧ s.tCrit (s.thermGroup m) ≤ code ∧ ¬ s.inst.inReset then
    let s := { s with sensors := tset {} s.sensors i.val { s.sensor i with hot := true } }
    match s.mittenDom m with
    | none => .next s
    | some d => .next ((s.raise cThermCrit (mkSrc 5 d) (uext 16 code + i.val * 65536)).critDomain d)
  else .next s

/-- Twice the median of readings, by sorting. -/
def median2 (l : List Int) : Int :=
  let a := l.insertionSort (· ≤ ·)
  let n := a.length
  if n = 0 then 0 else nth 0 a ((n - 1) / 2) + nth 0 a (n / 2)

/-- The other valid sensors of a sensor's mitten, by their new readings. -/
def State.otherTemps (s : State) (i : Nat) : List Int :=
  ((List.range 4).map (4 * sensorMitten i + ·)).filterMap fun j =>
    let y := s.sensor j
    if j ≠ i ∧ y.has ∧ y.valid then some y.conv else none

/-- The span of readings. -/
def spanOf (l : List Int) : Int := l.foldl max (l.headD 0) - l.foldl min (l.headD 0)

/-- The round reading of a sensor with the tests of R194; `oth` are the readings of the other valid sensors. Answers whether
it lost its validity. -/
def Sensor.round (x : Sensor) (oth : List Int) : Sensor × Bool :=
  if !x.has then (x, false)
  else
    let same := x.reading == x.conv && x.has
    let x := { x with reading := x.conv, others := if same then (oth :: x.others).take 64 else [] }
    let fails := decide (x.reading < -2560) || decide (9600 < x.reading) ||
      (decide (2 ≤ oth.length) && decide (1920 < (2 * x.reading - median2 oth).natAbs)) || (decide (64 ≤ x.others.length) && decide (128 ≤ spanOf x.others.flatten))
    if fails then ({ x with valid := false, okRounds := 0 }, x.valid)
    else if x.valid then (x, false)
    else if 16 ≤ x.okRounds + 1 then ({ x with valid := true, okRounds := 0 }, false)
    else ({ x with okRounds := x.okRounds + 1 }, false)

/-- The round readings of every sensor; each loss of validity raises THERM_SENSOR (R194). -/
def State.roundSensors (s : State) : State :=
  let n := (List.range 128).map fun i => (i, (s.sensor i).round (s.otherTemps i))
  forL n (fun (i, x, lost) t =>
    let x := { x with hot := x.hot && decide (s.tCrit (s.thermGroup (sensorMitten i)) ≤ x.reading) }
    let t := { t with sensors := tset {} t.sensors i x }
    if lost then t.raise cThermSensor (mkSrc 4 i) 0 else t) s

/-! ### Mitten temperatures (R28) -/

/-- The highest valid reading of a mitten. -/
def State.mittenMax (s : State) (m : Nat) : Option Int :=
  (((List.range 4).map fun k => s.sensor (4 * m + k)).filter fun x => x.has && x.valid).foldl
    (fun a x => match a with | none => some x.reading | some y => some (max y x.reading)) none

/-- The larger of two temperatures that may be absent. -/
def maxOpt : Option Int → Option Int → Option Int
  | some a, some b => some (max a b)
  | none, b => b
  | a, none => a

/-- The temperature of a mitten that no enabled domain holds, after a round (R196): its thermal group counts it too. -/
def tempSpare (m : Nat) (s : State) : State :=
  if (s.mittenDom m).isSome then s
  else s.updMitten m fun y => { y with tempPrev := y.tempNow, tempNow := s.mittenMax m }

/-- The temperatures of a domain's mittens after a round; with no valid sensor the domain is derated (R28). -/
def tempDom (d : Nat) (s : State) : State :=
  let ms := s.dmittens d
  let best := ms.foldl (fun a m => maxOpt a (s.mittenMax m)) none
  let seen := ms.any fun m => (List.range 4).any fun k => (s.sensor (4 * m + k)).has
  let t := forL ms (fun m t => t.updMitten m fun y => { y with
    tempPrev := y.tempNow, tempNow := match s.mittenMax m with | some v => some v | none => best.map (· + 640) }) s
  let t := t.updDom d fun x => match best with
    | some _ =>
      let hot := (ms.filterMap fun m => (t.mitten m).tempNow).foldl max (-32768)
      { x with tlm := { x.tlm with tPk := max x.tlm.tPk hot, winT := maxOpt x.tlm.winT (some hot) } }
    | none => x
  if best.isNone ∧ seen then
    if (t.dom d).tempLost then t
    else (refreshCeil d (t.updDom d fun x => { x with tempLost := true })).raise cDomTempLost (mkSrc 5 d) 0
  else if (t.dom d).tempLost then
    (refreshCeil d (t.updDom d fun x => { x with tempLost := false })).endCause cDomTempLost (mkSrc 5 d)
  else t

/-! ### The thermal rows of a round (R196, R197, R310) -/

/-- The temperatures that act on a domain: now, in the round before, and the thermal group, for its mittens and the valid
external thermistors that name it (R196, R310). -/
def State.domTemps (s : State) (d : Nat) : List (Int × Option Int × Nat) :=
  ((s.dmittens d).filterMap fun m => (s.mitten m).tempNow.map fun t => (t, (s.mitten m).tempPrev, s.thermGroup m)) ++
  (((List.range s.adcEnts).filter fun i => s.adcKind i == 3 && s.adcDom i == some d && (s.adc i).valid).filterMap fun i =>
    (s.adc i).roundVal.map fun t => (t, (s.adc i).prevVal, s.adcGroup i))

/-- One thermal step down: P_th, or SP_th of a C domain already at point 0 (R196). -/
def Dom.stepTh (x : Dom) (cls : Nat) : Dom :=
  if 0 < x.pTh then { x with pTh := x.pTh - 1 } else if cls = 0 then { x with spThNext := min 64 (2 * x.spThNext) } else x

/-- One thermal step back (R196). -/
def Dom.unstepTh (x : Dom) (top : Nat) : Dom :=
  if 1 < x.spThNext then { x with spThNext := max 1 (x.spThNext / 2) } else if x.pTh < top then { x with pTh := x.pTh + 1 } else x

/-- The T_HIGH and T_RISE rows of a domain; without effect in GROUNDED (R196, R197). -/
def thermRows (d : Nat) (s : State) : State :=
  let l := s.domTemps d
  let cls := s.dclass d
  if s.grounded ∨ l.isEmpty then s
  else
    let high := l.any fun e => s.tHigh e.2.2 ≤ e.1
    let rise := l.any fun e => 2 ≤ s.tChk e.2.2 && e.2.1.any fun p => s.tRise e.2.2 < e.1 - p
    let cool := l.all fun e => decide (e.1 < s.tHigh e.2.2 - s.tHyst e.2.2)
    let s := if rise then s.raise cThermRise (mkSrc 5 d) 0 else s
    let ep := (s.dom d).thHigh
    let s := if high ∧ !ep then (s.updDom d fun x => { x with thHigh := true }).raise cThermHigh (mkSrc 5 d) 0
      else if cool ∧ ep then (s.updDom d fun x => { x with thHigh := false }).endCause cThermHigh (mkSrc 5 d) else s
    if cls = 3 then s
    else if high ∨ rise then s.updDom d fun x => x.stepTh cls
    else if cool then s.updDom d fun x => x.unstepTh (s.pTop d)
    else s

/-- Whether a mitten of the field, of whatever domain, or an external thermistor of a thermal group reads below T_LOW in a group
that checks it (R196, R310). -/
def State.groupLow (s : State) (g : Nat) : Bool :=
  s.tChk g % 2 == 1 &&
    ((List.range 32).any (fun m => s.thermGroup m == g && (s.mitten m).tempNow.any fun t => decide (t < s.tLow g)) ||
     s.doms_.any fun d => (s.domTemps d).any fun e => e.2.2 == g && decide (e.1 < s.tLow g))

/-- The T_LOW row: bring-up is refused for every domain with a mitten in the group (R196). -/
def thermLow (d : Nat) (s : State) : State :=
  let low := ((s.dmittens d).map s.thermGroup ++ (s.domTemps d).map fun e => e.2.2).any s.groupLow
  let was := (s.dom d).thLow
  let s := s.updDom d fun x => { x with thLow := low }
  if low && !was then s.raise cThermLow (mkSrc 5 d) 0
  else if was && !low then s.endCause cThermLow (mkSrc 5 d) else s

/-- An external thermistor at or above T_CRIT acts from the next frame (R310). -/
def thermExt (i : Nat) (s : State) : State :=
  match s.adcDom i, (s.adc i).roundVal with
  | some d, some t =>
    if s.adcKind i = 3 ∧ (s.adc i).valid ∧ s.tCrit (s.adcGroup i) ≤ t ∧ ¬ (s.dom d).critNext ∧ ¬ (s.dom d).thHold then
      (s.updDom d fun x => { x with critNext := true }).raise cThermCrit (mkSrc 5 d) (uext 16 t + i * 65536 + 2 ^ 26)
    else s
  | _, _ => s

/-- The temperatures of the round just completed (R194 to R196, R301). -/
def State.thermRound (s : State) : State :=
  let s := forL s.doms_ tempDom (forIdx 32 tempSpare s.roundSensors)
  let s := forL s.doms_ thermLow (forL s.doms_ thermRows s)
  forIdx s.adcEnts thermExt s

end Sys2Proof.Machine
end

