-- ==== Sys2Proof/Machine/Image.lean ====
section
/-!
DEFINITION. The Fitefin image in the manager's SPI NOR device (R248 to R255): its header, directory and sections, a field's
share of them (R251, R256), and the manager's checks in the order of R254 with the content rules of each section.
-/

namespace Sys2Proof.Machine

/-! ### Reading the image (R249 to R251) -/

/-- Little-endian number of the image. -/
def State.nn (s : State) (a n : Nat) : Nat := readLE 255 s.log.nvm a n
/-- Bytes of the image. -/
def State.nbytes (s : State) (a n : Nat) : List (BitVec 8) := readBytes 255 s.log.nvm a n
/-- Whether bytes are all zero. -/
def allZero (l : List (BitVec 8)) : Bool := l.all (· == 0)

/-- A directory entry (R250). -/
structure Sect where
  code : Nat
  flags : Nat
  ver : Nat
  off : Nat
  len : Nat
  shared : Nat
  block : Nat
  crc : Nat
  rsv : Nat
  deriving DecidableEq, Repr

/-- Entry `i` of the directory. -/
def State.dirEntry (s : State) (i : Nat) : Sect :=
  let a := 0x100 + 32 * i
  { code := s.nn a 1, flags := s.nn (a + 1) 1, ver := s.nn (a + 2) 2, off := s.nn (a + 4) 4, len := s.nn (a + 8) 4
    shared := s.nn (a + 12) 4, block := s.nn (a + 16) 4, crc := s.nn (a + 20) 4, rsv := s.nn (a + 24) 8 }

/-- The directory, in order. -/
def State.dir (s : State) : List Sect := (List.range 13).map s.dirEntry

/-- IMG_LEN. -/
def State.imgLen (s : State) : Nat := s.nn 0x08 4
/-- TETHER_MIN. -/
def State.tetherMin (s : State) : Nat := s.nn 0x11 1
/-- SIGNED. -/
def State.imgSigned (s : State) : Bool := bit (s.nn 0x12 1) 0
/-- LOG_BASE. -/
def State.logBase (s : State) : Nat := s.nn 0x14 4

/-- Where field `f`'s part of an INDEXED section stands in the image, and its length (R251). -/
def State.partOf (s : State) (e : Sect) (f : Nat) : Nat × Nat := (e.off + s.nn (e.off + 8 * f) 4, s.nn (e.off + 8 * f + 4) 4)

/-- INDEXED and MGR_ONLY of an entry. -/
def Sect.indexed (e : Sect) : Bool := bit e.flags 1
/-- See `Sect.indexed`. -/
def Sect.mgrOnly (e : Sect) : Bool := bit e.flags 0

/-- A field's own part of a section: its block, or its page set (R251). -/
def State.ownPart (s : State) (f : Nat) (e : Sect) : List (BitVec 8) :=
  if e.indexed then (let (a, n) := s.partOf e f; s.nbytes a n)
  else if e.mgrOnly then [] else s.nbytes (e.off + e.shared + f * e.block) e.block

/-- The shared part of a section. -/
def State.sharedPart (s : State) (e : Sect) : List (BitVec 8) := if e.indexed then [] else s.nbytes e.off e.shared

/-- A field's stored copy of a section: the shared part and then its own part (R256). -/
def State.stored (s : State) (f : Nat) (e : Sect) : List (BitVec 8) := s.sharedPart e ++ s.ownPart f e

/-- A field's share of the image as section bytes; `mgr` keeps the MGR_ONLY section too (R251). -/
def State.shareOf (s : State) (f : Nat) (mgr : Bool) : List Host.Cell :=
  (s.dir.filter fun e => mgr || !e.mgrOnly).foldl (fun m e => writeBytes 0 m (secKey e.code 0) (s.stored f e)) []

/-! ### Page sets (R251, R256) -/

/-- The pages of a field's stored page set of `n` bytes in section `sec`: page address and the 256 bytes. -/
def pagesIn (cfg : List Host.Cell) (sec n : Nat) : List (Nat × List (BitVec 8)) :=
  (List.range (n / 264)).map fun i => (readLE 0 cfg (secKey sec (264 * i)) 2, readBytes 0 cfg (secKey sec (264 * i + 8)) 256)

/-- The table SRAM that a share gives: the pages of both page sets, and the profile region (R137, R251). -/
def tableOf (cfg : List Host.Cell) (n3 n4 : Nat) : List (Nat × List (BitVec 8)) :=
  pagesIn cfg 3 n3 ++ pagesIn cfg 4 n4 ++ (List.range 2048).map fun i => (0x1800 + i, readBytes 0 cfg (secKey 5 (256 * i)) 256)

/-- A state that holds a field's share as if committed there, with every domain closed, for the checks of that share. -/
def State.fieldView (s : State) (f : Nat) : State :=
  let cfg := s.shareOf f false
  let len (c : Nat) : Nat := match s.dir.find? fun e => e.code == c with | some e => (s.partOf e f).2 | none => 0
  let mem := (tableOf cfg (len 3) (len 4)).foldl (fun m p => writeBytes 0 m (256 * p.1) p.2) []
  let v := { s with
    cfg := cfg, inst := { s.inst with committed := true, factory := false, fieldId := f, gndMask := 0, gndNext := 0 }
    eng := { s.eng with mem := mem, lane0 := {}, lane1 := {}, lane2 := {}, lane3 := {} }
    doms := [], tk := { s.tk with tickets := [] } }
  forL domIdx (fun d v => v.setDom d { loop := .closed }) v

/-! ### Content rules, over the view `v` of a field -/

/-- Whether bytes `lo` to `hi − 1` of a section are all zero (R253). -/
def State.zeros (v : State) (sec lo hi : Nat) : Bool := (List.range (hi - lo)).all fun i => v.cb sec (lo + i) == 0

/-- Whether a number of a section lies in a range. -/
def State.inR (v : State) (sec off n lo hi : Nat) : Bool := let x := v.cn sec off n; lo ≤ x && x ≤ hi

/-- Whether a field has an enabled domain. -/
def State.usedField (v : State) : Bool := domIdx.any v.enabled

/-- How many bits of a mask are set. -/
def popc (n mask : Nat) : Nat := (maskList n mask).length

/-- R27, but for the neighbour relation, for one domain. -/
def State.mapOk (v : State) (d : Nat) : Bool :=
  let o := 64 * d
  let ms := v.dmittens d
  let ex (k : Nat) : Nat := v.cn 1 (o + 16 + 2 * k) 2
  v.cb 1 o == d && v.cb 1 (o + 2) < 8 && v.cn 1 (o + 24) 2 < 4096 && v.zeros 1 (o + 26) (o + 32) && v.zeros 1 (o + 40) (o + 64) &&
  (!v.enabled d ||
    (v.cb 1 (o + 1) ≤ 3 && 1 ≤ ms.length && ms.length ≤ 4 &&
      (List.range 4).all (fun k => if k < ms.length then 4 ≤ 16 - popc 16 (ex k) else ex k == 0) &&
      (domIdx.all fun e => e == d || !v.enabled e || ms.all fun m => !bit (v.mittenMask e) m) &&
      (match v.dclass d with
        | 0 => v.clusterMask d != 0 && v.cb 1 (o + 5) != 255 && v.cb 1 (o + 6) ≤ 31 && v.cn 1 (o + 24) 2 == 0
        | 3 => v.clusterMask d == 0 && v.cb 1 (o + 5) == 255 && v.cb 1 (o + 6) == 255 && v.cn 1 (o + 24) 2 == 0
        | _ => v.clusterMask d == 0 && v.cb 1 (o + 5) == 255 && v.cb 1 (o + 6) == 255 && v.inR 1 (o + 24) 2 900 2100) &&
      domIdx.all fun e => e == d || !v.enabled e ||
        ((v.dclusters d).all (fun c => !bit (v.clusterMask e) c) &&
          (v.dclass d != 0 || v.dclass e != 0 || v.cb 1 (o + 6) != v.cb 1 (64 * e + 6)))))

/-- R93, for one mitten. -/
def State.matrixOk (v : State) (m : Nat) : Bool :=
  let o := 48 * m
  let w (r p : Nat) : Nat := v.cb 6 (o + 6 * r + p)
  if (v.mittenDom m).isNone then v.zeros 6 o (o + 48)
  else v.zeros 6 (o + 42) (o + 48) && (List.range 7).all fun r =>
    ((List.range 6).map (w r)).sum == 256 && (List.range 6).all fun p => if r = p + 1 then w r p == 0 else 16 ≤ w r p

/-- R114, for one profile record of a share. -/
def State.profileOk (v : State) (i : Nat) : Bool :=
  let o := 128 * i
  !bit (v.cb 5 (o + 7)) 0 ||
    (v.cn 5 o 2 == i && v.inR 5 (o + 2) 1 4 64 && v.cb 5 (o + 2) % 4 == 0 && v.cb 5 (o + 3) ≤ 64 && v.inR 5 (o + 4) 1 1 64 &&
      v.inR 5 (o + 5) 1 1 100 && 1 ≤ v.cb 5 (o + 6) && v.cb 5 (o + 7) < 4 && v.inR 5 (o + 8) 2 1 1000 && 1 ≤ v.cn 5 (o + 10) 2 &&
      v.zeros 5 (o + 12) (o + 64))

/-- R115, for one domain of a field in use. -/
def State.launchOk (v : State) (d : Nat) : Bool :=
  let o := 524288 + 8 * d
  let g := v.cb 5 o
  v.cb 5 (o + 1) == 0 && v.cn 5 (o + 6) 2 == 0 &&
    (!v.enabled d || ((g == 0 || g == 1 || g == 255) &&
      (v.dclass d == 0 || (g == 255 && v.cn 5 (o + 2) 2 == 0 && v.cn 5 (o + 4) 2 == 0))))

/-- R184, for one domain. -/
def State.policyOk (v : State) (d : Nat) : Bool :=
  let o := 64 + 16 * d
  if ¬ v.enabled d then v.zeros 8 o (o + 16)
  else
    v.pTop d ≤ 15 && v.pFloor d ≤ v.pTop d && v.zeros 8 (o + 2) (o + 4) && v.zeros 8 (o + 14) (o + 16) && v.pFlr d ≤ v.pNom d &&
      (v.dclass d != 0 || v.pFloor d == 0) && (v.dclass d != 3 || v.pFloor d == v.pTop d)

/-- A cap of R180. -/
def capRange (x : Nat) : Bool := x == 0xFFFFFFFF || (500000 ≤ x && x ≤ 12000000)

/-- The cap-policy header (R178 to R180, R183, R184). -/
def State.policyHdr (v : State) (used : Nat → Bool) : Bool :=
  let c := v.cb 8 14
  capRange (v.cn 8 0 4) && capRange (v.cn 8 4 4) && v.inR 8 8 4 1000000 12000000 && v.inR 8 12 2 954 9537 && v.inR 8 16 4 9537 572205 &&
    c < 64 && (List.range 3).all (fun k => v.cutOrder.contains k) && v.cb 8 15 ≤ 2 && v.inR 8 20 1 1 64 && 1 ≤ v.cb 8 21 &&
    v.inR 8 22 1 1 25 && v.cb 8 23 ≤ 15 && v.inR 8 56 1 1 100 && v.zeros 8 57 64 &&
    (List.range 8).all fun f => v.inR 8 (24 + 4 * f) 4 1000 200000 || (!used f && v.cn 8 (24 + 4 * f) 4 == 0)

/-- Whether a code of the thresholds section lies in the range of its tile parameter (R39, R46, R47, R252). -/
def State.parOk (v : State) (k : Nat) : Bool :=
  let x := parValue k (v.cn 9 (if k < 14 then 2 * k else 0x20 + 2 * (k - 16)) 2)
  (parRange k).1 ≤ x && x ≤ (parRange k).2

/-- One thermal group (R195). -/
def State.groupOk (v : State) (g : Nat) : Bool :=
  let o := 0x200 + 16 * g
  let h := sext 16 (v.cn 9 o 2)
  let c := sext 16 (v.cn 9 (o + 2) 2)
  let l := sext 16 (v.cn 9 (o + 4) 2)
  2560 ≤ h && h ≤ 7360 && h + 320 ≤ c && c ≤ 7680 && -2560 ≤ l && l ≤ 2560 && v.inR 9 (o + 6) 2 16 1280 && v.inR 9 (o + 8) 2 64 1280 &&
    v.cb 9 (o + 10) ≤ 3 && v.zeros 9 (o + 11) (o + 16)

/-- A window length (R252). -/
def State.winOk (v : State) (off : Nat) : Bool := v.inR 9 off 4 4096 4194304 && v.cn 9 off 4 % 256 == 0

/-- The thresholds section (R252, R253, R195). -/
def State.thresholdsOk (v : State) : Bool :=
  parIndexes.all v.parOk && v.zeros 9 0x1C 0x20 && v.zeros 9 0x30 0x40 && v.inR 9 0x40 2 16 1024 && v.inR 9 0x42 2 64 65535 &&
    v.inR 9 0x44 2 4 1024 && v.inR 9 0x46 2 8 65535 && v.cn 9 0x44 2 ≤ v.cn 9 0x46 2 && v.inR 9 0x48 2 1 100 && v.inR 9 0x4A 2 2 1000 &&
    v.inR 9 0x4C 2 10 10000 && v.inR 9 0x4E 1 1 64 && v.cb 9 0x4F == 0 && v.inR 9 0x52 2 8 256 &&
    ([0x54, 0x58].all fun o => v.inR 9 o 2 50 200 && v.inR 9 (o + 2) 2 50 200 && v.cn 9 o 2 + 10 ≤ v.cn 9 (o + 2) 2) &&
    v.inR 9 0x5C 2 192 4096 && v.zeros 9 0x5E 0x60 && v.inR 9 0x60 4 1024 16777215 && v.zeros 9 0x64 0x200 &&
    (List.range 16).all v.groupOk && (List.range 256).all (fun i => v.cb 9 (0x300 + i) ≤ 15) && v.cb 9 0x400 ≤ 2 &&
    v.zeros 9 0x401 0x404 && v.winOk 0x404 && v.winOk 0x408 && v.zeros 9 0x410 0x800

/-- R264, for one bridle record; its reserved bytes and bits hold 0 whether it is VALID or not (R253). -/
def State.bridleOk (v : State) (i : Nat) : Bool :=
  let o := 32 * i
  let n := v.cb 7 (o + 1)
  v.cb 7 o < 2 && v.zeros 7 (o + 6) (o + 8) && v.zeros 7 (o + 24) (o + 32) &&
    (v.cb 7 o == 0 ||
      (1 ≤ n && n ≤ 8 && v.cb 7 (o + 2) ≤ 7 && 1 ≤ v.cb 7 (o + 3) && v.inR 7 (o + 4) 2 16 65535 && (List.range 8).all fun k =>
        if k < n then 1 ≤ v.cb 7 (o + 8 + k) && v.inR 7 (o + 16 + k) 1 1 20 else v.cb 7 (o + 8 + k) == 0 && v.cb 7 (o + 16 + k) == 0))

/-- R264 and R265, for one domain: a C domain's BRIDLE names a valid record. -/
def State.seqOk (v : State) (d : Nat) : Bool :=
  let o := 8160 + 16 * d
  v.cb 7 (o + 1) ≤ 100 && v.cb 7 (o + 3) ≤ 100 && v.zeros 7 (o + 4) (o + 16) &&
    (!v.enabled d || v.dclass d != 0 || bit (v.cb 7 (32 * v.cb 1 (64 * d + 5))) 0)

/-- The window rule of R262 for one domain: the travel is taken to 1050 mV. -/
def State.windowOk (v : State) (d : Nat) : Bool :=
  !v.enabled d ||
    (let rate := if v.seqEntry d 1 = 0 then v.cn 9 0x48 2 else v.seqEntry d 1
     let bridle := if v.dclass d = 0 then ((List.range (v.bStages d)).map (v.bInterval d)).sum else 0
     256 * v.seqEntry d 0 + 16 * v.dieDom d + 2048 + pgTravel 2100 rate (v.cn 9 0x4A 2) (v.cn 9 0x4C 2) + bridle ≤ v.onWin)

/-- The slot grid of the ADC in a mode, ticks (R304). -/
def adcGrid (lp : Bool) : Nat := if lp then 250 else 25
/-- The slots of an ADC entry with a sample-time code (R304). -/
def adcSlots (lp : Bool) (st : Nat) : Nat := cdiv (2 * (4 * (st + 1) + (if lp then 64 else 8))) (adcGrid lp)
/-- The ticks of an ADC sequence in a mode (R305). -/
def State.adcTime (v : State) (lp : Bool) : Nat :=
  adcGrid lp * ((List.range v.adcEnts).map fun i => adcSlots lp (v.adcN (0x43 + 12 * i) 1 % 64)).sum
/-- Whether the sequence fits in a mode (R305). -/
def State.adcFits (v : State) (lp : Bool) : Bool := v.adcTime lp ≤ 256 * 2 ^ v.adcN 2 1

/-- R308, for one ADC entry. -/
def State.adcEntOk (v : State) (i : Nat) : Bool :=
  let o := 0x40 + 12 * i
  let c := v.cb 10 o
  let k := v.cb 10 (o + 4) % 4
  let lo := sext 16 (v.cn 10 (o + 10) 2)
  let hi := sext 16 (v.cn 10 (4 + 2 * i) 2)
  if v.adcEnts ≤ i then v.zeros 10 o (o + 12) && hi == 0
  else
    bit c 0 && c < 64 && v.cb 10 (o + 1) < 32 && v.cb 10 (o + 2) < 32 && v.cb 10 (o + 3) < 64 && v.cb 10 (o + 4) / 4 % 4 == 0 &&
      v.cb 10 (o + 5) < 32 && (if bit c 1 then v.cb 10 (o + 2) != v.cb 10 (o + 1) else v.cb 10 (o + 2) == 0) &&
      (k == 3 || v.cb 10 (o + 4) / 16 == 0) &&
      (if k = 0 then v.cn 10 (o + 6) 2 == 0 && v.cn 10 (o + 8) 2 == 0 else v.cn 10 (o + 6) 2 != 0) &&
      (if k = 3 then bit c 1 && lo == 0 && hi == 0 && (bit c 5 || v.enabled (v.cb 10 (o + 5))) else lo ≤ hi && bit c 5)

/-- The ADC block (R306, R308). -/
def State.adcOk (v : State) : Bool :=
  v.cb 10 0 ≤ 16 && v.cb 10 1 ≤ 1 && v.inR 10 2 1 1 10 && v.cb 10 3 == 0 && v.zeros 10 0x24 0x40 &&
    (List.range 16).all v.adcEntOk && v.adcFits (v.cb 10 1 == 1)

/-! ### Programs (R153, R157, R158, R161) -/

/-- A lane with what it has loaded. -/
def State.withLoad (v : State) (lane : Nat) (pl : Option (Nat × Nat × Nat × Nat)) : State :=
  v.updEng fun e => e.setLane lane { e.lane lane with prevLoad := pl }

/-- The cost of one run of a program on an independent array (R145, R158): its first MATVEC loads its bank. -/
def State.progCost (v : State) (p : Prog) : Nat :=
  ((List.range p.ndesc).foldl (fun (n, pl) i =>
    let d := v.desc p i
    (n + (v.withLoad p.lane pl).descCost p.lane d p.dlist, d.nextLoad (List.range d.m) pl)) (0, none)).1

/-- Whether a program and its descriptors are well formed (R153, R157). -/
def State.progOk (v : State) (p : Prog) : Bool :=
  p.lane ≤ 3 && p.act ≤ 2 && p.fallback ≤ 2 && v.page p.hp 3 1 ≤ 32 && 1 ≤ p.ndesc && p.ndesc ≤ 256 && v.page p.hp 9 7 == 0 &&
    (List.range 80).all (fun i => v.page p.hp (0xB0 + i) 1 == 0) && (p.act == 1 || p.lane ≤ 1) && (p.fallback != 1 || p.act == 0) &&
    v.page p.hp 6 2 == v.progCost p &&
    (List.range p.ndesc).all fun i => let d := v.desc p i; !d.invalid && d.last == (i + 1 == p.ndesc)

/-- R158 for a field. -/
def State.programsOk (v : State) : Bool :=
  let ps := (List.range 64).filterMap v.prog
  let uses (act d : Nat) : Nat := ((ps.filter fun p => p.act == act).map fun p => p.dlist.count d).sum
  (List.range 64).all (fun p => v.page 0 (4 * p) 4 < 2 ^ 14) && ps.all v.progOk &&
    (domIdx.filter v.enabled).all (fun d => uses 0 d == 1 && uses 2 d == 1 && (v.dclass d != 0 || uses 1 d ≤ 1)) &&
    ps.all fun p => (ps.filter fun q => q.lane == p.lane && q.act == p.act && q.order == p.order).length == 1

/-- The cycle in which a lane's next domain-loop descriptor can start (R138, R146). -/
def needReady (c : Nat) : List (Desc × List Nat) → Nat
  | [] => c
  | (d, _) :: _ => if d.saSp = 1 ∨ (d.usesB ∧ d.sbSp = 1) then max c 8 else c

/-- The schedule of an array's two lanes without a window's end (R159, R169): the cycle at which the last EMIT completes. -/
def needArray (v : State) (l0 l1 : Nat) : Nat → Nat → Bool → List (Desc × List Nat) → List (Desc × List Nat) →
    Option (Nat × Nat × Nat × Nat) → Option (Nat × Nat × Nat × Nat) → Nat → Nat
  | 0, _, _, _, _, _, _, last => last
  | n + 1, c, second, q0, q1, pl0, pl1, last =>
    let r0 := needReady c q0
    let r1 := needReady c q1
    let ok0 := !q0.isEmpty && r0 ≤ c
    let ok1 := !q1.isEmpty && r1 ≤ c
    if ok1 && (second || !ok0) then
      match q1 with
      | [] => last
      | (d, dl) :: r =>
        let e := c + (v.withLoad l1 pl1).descCost l1 d dl
        needArray v l0 l1 n e false q0 r pl0 (d.nextLoad (List.range d.m) pl1) (if d.op = 10 then e else last)
    else if ok0 then
      match q0 with
      | [] => last
      | (d, dl) :: r =>
        let e := c + (v.withLoad l0 pl0).descCost l0 d dl
        needArray v l0 l1 n e true r q1 (d.nextLoad (List.range d.m) pl0) pl1 (if d.op = 10 then e else last)
    else if q0.isEmpty ∧ q1.isEmpty then last
    else needArray v l0 l1 n (if q0.isEmpty then r1 else if q1.isEmpty then r0 else min r0 r1) second q0 q1 pl0 pl1 last

/-- The domain-loop descriptors of a lane in the order they run. -/
def State.loopDescs (v : State) (lane : Nat) : List (Desc × List Nat) :=
  (v.progsOf lane 0).flatMap fun p => (List.range p.ndesc).map fun i => (v.desc p i, p.dlist)

/-- NEED_DL for a set of retired arrays (R161). -/
def State.needDl (v : State) (ret : Nat) : Nat :=
  16 * ((placement ret).map fun (_, ls) =>
    let l0 := nth 0 ls 0
    let l1 := nth l0 ls 1
    needArray v l0 l1 32768 0 false (v.loopDescs l0) (if ls.length = 2 then v.loopDescs l1 else []) none none 0).foldl max 0

/-- The five budgets and FC_PERIOD against R161; `need` is the NEED_DL they must hold. -/
def budgetsOk (need dl fc att dt sv per : Nat) : Bool :=
  [dl, fc, att, dt, sv].all (· % 16 == 0) && dl + fc + att + dt + sv == 1024 && need ≤ dl && dl ≤ 640 && 16 ≤ sv &&
    (per == 4 || per == 8 || per == 16)

/-- One row of the budgets block (R161), but for NEED_DL itself. -/
def State.budRowOk (v : State) (m : Nat) : Bool :=
  let o := 16 * m
  if m = 15 then v.zeros 12 o (o + 16)
  else budgetsOk (v.cn 12 (o + 10) 2) (v.cn 12 o 2) (v.cn 12 (o + 2) 2) (v.cn 12 (o + 4) 2) (v.cn 12 (o + 6) 2) (v.cn 12 (o + 8) 2)
    (v.cb 12 (o + 12)) && v.zeros 12 (o + 13) (o + 16)

/-! ### The PMBus device list (R316, R317), read from the image -/

/-- R317 over the section at an image address. -/
def State.pmbOk (s : State) (e : Sect) : Bool :=
  let a := e.off
  let n := s.nn a 1
  let ent (i : Nat) : Nat := a + 8 + 16 * i
  let adr (i : Nat) : Nat := s.nn (ent i) 1
  let pg (i : Nat) : Nat := s.nn (ent i + 2) 1
  n ≤ 16 && e.shared == 8 + 16 * n && s.nn (a + 1) 1 ≤ 1 && 1 ≤ s.nn (a + 2) 1 && allZero (s.nbytes (a + 3) 5) &&
    (List.range n).all fun i =>
      8 ≤ adr i && adr i ≤ 0x77 && !([0x0C, 0x28, 0x37, 0x61].contains (adr i)) && bit (s.nn (ent i + 1) 1) 0 && s.nn (ent i + 1) 1 < 4 &&
        (pg i ≤ 31 || pg i == 255) && s.nn (ent i + 4) 2 ≤ s.nn (ent i + 6) 2 && allZero (s.nbytes (ent i + 12) 4) &&
        (List.range n).all fun j => i == j || adr i != adr j || (pg i != pg j && pg i != 255)

/-! ### Directory checks (R250, R251, R254 code 0x0B) -/

/-- The SFLAGS, SHARED and BLOCK that R251 gives a section. -/
def sectShape (e : Sect) : Bool :=
  match e.code with
  | 0 => e.flags == 0 && 8 ≤ e.shared && e.shared ≤ 229376 && e.block == 0
  | 1 => e.flags == 0 && e.shared == 0 && e.block == 2048
  | 2 => e.flags == 0 && e.shared == 0 && e.block == 2048
  | 3 => e.flags == 2 && e.shared == 0 && e.block == 0
  | 4 => e.flags == 2 && e.shared == 0 && e.block == 0
  | 5 => e.flags == 0 && e.shared == 524288 && e.block == 256
  | 6 => e.flags == 0 && e.shared == 0 && e.block == 1536
  | 7 => e.flags == 0 && e.shared == 8160 && e.block == 512
  | 8 => e.flags == 0 && e.shared == 64 && e.block == 512
  | 9 => e.flags == 0 && e.shared == 2048 && e.block == 0
  | 10 => e.flags == 0 && e.shared == 0 && e.block == 256
  | 11 => e.flags == 1 && 8 ≤ e.shared && e.shared ≤ 264 && e.block == 0
  | 12 => e.flags == 0 && e.shared == 0 && e.block == 256
  | _ => false

/-- The page addresses of a field's page set. -/
def State.pageAddrs (s : State) (e : Sect) (f : Nat) : List Nat :=
  let (a, n) := s.partOf e f
  (List.range (n / 264)).map fun i => s.nn (a + 264 * i) 2

/-- Whether numbers rise strictly. -/
def rising : List Nat → Bool
  | [] => true
  | [_] => true
  | a :: b :: r => a < b && rising (b :: r)

/-- The index and page sets of an INDEXED section (R251). -/
def State.indexOk (s : State) (e : Sect) : Bool :=
  64 ≤ e.len && (List.range 8).all fun f =>
    let (a, n) := s.partOf e f
    n == 0 || (64 ≤ a - e.off && a + n ≤ e.off + e.len && n % 264 == 0 && rising (s.pageAddrs e f) &&
      (s.pageAddrs e f).all (· < 0x1800) && (List.range (n / 264)).all fun i => allZero (s.nbytes (a + 264 * i + 2) 6))

/-- One directory entry (R250, R251, R253). -/
def State.entryOk (s : State) (e : Sect) : Bool :=
  e.ver == 1 && e.rsv == 0 && e.off % 256 == 0 && 0x300 ≤ e.off && e.off + e.len ≤ s.imgLen && e.len % 8 == 0 && sectShape e &&
    (e.indexed || e.len == e.shared + (if e.mgrOnly then 0 else 8 * e.block))

/-- The whole directory: every code once, ascending and disjoint. -/
def State.dirOk (s : State) : Bool :=
  let es := s.dir
  es.all s.entryOk && (List.range 13).all (fun c => (es.filter fun e => e.code == c).length == 1) &&
    (List.range 12).all (fun i => (s.dirEntry i).off + (s.dirEntry i).len ≤ (s.dirEntry (i + 1)).off && (s.dirEntry i).off < (s.dirEntry (i + 1)).off)

/-- No page twice in one field's page sets, as far as the sections up to `e` tell (R251). -/
def State.pagesOnce (s : State) (e : Sect) : Bool :=
  (List.range 8).all fun f => ((s.dir.filter fun x => x.indexed && x.off ≤ e.off).flatMap fun x => s.pageAddrs x f).Nodup

/-! ### The checks in order (R254) -/

/-- The content of one section as it passes, with the views of the eight fields and whether each is in use: of the first part that
fails, the rule and how many parts passed before it, the shared part and then the blocks of the fields in order. -/
def State.sectionBad (s : State) (vs : List State) (used : Nat → Bool) (e : Sect) : Option (Nat × Nat) :=
  let blocks (rule : Nat) (f : State → Bool) : Option (Nat × Nat) := (vs.findIdx? fun v => !f v).map fun i => (rule, 1 + i)
  let each (rule : Nat) (f : State → Bool) : Option (Nat × Nat) :=
    blocks rule fun v => if v.usedField then f v else allZero (s.ownPart v.inst.fieldId e)
  let shared (rule : Nat) (ok : Bool) (next : Option (Nat × Nat)) : Option (Nat × Nat) := if ok then next else some (rule, 0)
  let v0 := vs.headD s
  match e.code with
  | 1 => each 27 fun v => domIdx.all v.mapOk
  | 2 => each 260 fun v => domIdx.all fun d => v.cb 2 (64 * d + 32) < 2 && v.cb 2 (64 * d + 33) == 0 && v.zeros 2 (64 * d + 42) (64 * d + 64)
  | 3 => each 251 fun _ => true
  | 4 => each 251 fun _ => true
  | 5 => shared 114 ((List.range 4096).all v0.profileOk) (each 115 fun v => domIdx.all v.launchOk)
  | 6 => each 93 fun v => (List.range 32).all v.matrixOk
  | 7 => shared 264 ((List.range 255).all v0.bridleOk) (each 265 fun v => domIdx.all v.seqOk)
  | 8 => shared 184 (v0.policyHdr used) (blocks 184 fun v => domIdx.all v.policyOk)
  | 9 => shared 252 v0.thresholdsOk none
  | 10 => each 307 State.adcOk
  | 11 => shared 317 (s.pmbOk e) none
  | 12 => each 161 fun v => (List.range 16).all v.budRowOk
  | _ => none

/-- The neighbours of every domain on the die: enabled, mutual, with different ON_ORDER and OFF_ORDER (R27, R262). -/
def nbrsOk (vs : List State) : Bool :=
  let fv (n : Nat) : Option State := vs.find? fun v => v.inst.fieldId == n / 32
  vs.all fun v => (domIdx.filter v.enabled).all fun d => (v.nbrs d).all fun n =>
    n != v.dieDom d && (fv n).any fun w => w.enabled (n % 32) && (w.nbrs (n % 32)).contains (v.dieDom d) &&
      v.onOrder d != w.onOrder (n % 32) && v.offOrder d != w.offOrder (n % 32)

/-- The staggers of neighbouring C domains (R115). -/
def staggersOk (vs : List State) : Bool :=
  vs.all fun v => (domIdx.filter fun d => v.enabled d && v.dclass d == 0).all fun d => (v.nbrs d).all fun n =>
    (vs.find? fun w => w.inst.fieldId == n / 32).all fun w =>
      w.dclass (n % 32) != 0 || (v.stg d != w.stg (n % 32) && v.stg d != 255 && w.stg (n % 32) != 255)

/-- The checks that span blocks or fields (R254, step 7): the section of the first that fails, and its rule. -/
def summaryBad (vs : List State) : Option (Nat × Nat) :=
  let us := vs.filter State.usedField
  if ¬ nbrsOk us then some (1, 27)
  else if ¬ us.all State.programsOk then some (3, 158)
  else if ¬ staggersOk us then some (5, 115)
  else if ¬ us.all (fun v => domIdx.all v.windowOk) then some (7, 262)
  else if ¬ us.all (fun v => (List.range 15).all fun m => v.needDl m == v.cn 12 (16 * m + 10) 2) then some (12, 161)
  else none

/-- CRC-32 over image bytes (R249). -/
def State.imgCrc (s : State) (a n : Nat) : Nat := crc32 (s.nbytes a n)

/-- DIGEST as the manager computes it (R255). -/
def State.imgDigest (s : State) : Nat :=
  sha256 (s.nbytes 0 0x20 ++ List.replicate 0x80 0 ++ s.nbytes 0xA0 (s.imgLen - 0xA0))

/-- Whether two address ranges are disjoint. -/
def apart (a n b m : Nat) : Bool := a + n ≤ b || b + m ≤ a

/-- What the manager can use of the device (R247). -/
def State.nvmSize (s : State) : Nat := min s.log.info.size 0x4000000

/-- LAYOUT of R254; the log region is 4 MiB at a multiple of 4 MiB (R249). -/
def State.layoutOk (s : State) : Bool :=
  0x300 ≤ s.imgLen && s.imgLen ≤ 0x2000000 && s.imgLen ≤ s.nvmSize && s.logBase % 0x400000 == 0 && s.logBase + 0x400000 ≤ s.nvmSize &&
    apart 0 s.imgLen s.logBase 0x400000

/-- The rule that a header or directory check carries out, by the reason code (R245 to R255). -/
def reasonRule (rc : Nat) : Nat :=
  match rc with
  | 1 => 245 | 2 => 247 | 3 => 249 | 4 => 249 | 5 => 249 | 6 => 249 | 7 => 254 | 8 => 254 | 9 => 254 | 10 => 249 | 11 => 250 | 12 => 250
  | _ => 255

/-- The header checks up to and including LAYOUT: the reason of the first that fails, 0 where none does (R254). -/
def State.headerRc (s : State) : Nat :=
  let dmin := s.nn 0x0C 2
  let dmax := s.nn 0x0E 2
  if s.inst.fuseBad then 1
  else if ¬ s.inst.nvmEn ∨ ¬ s.log.info.found then 2
  else if s.nbytes 0 4 ≠ [0x46, 0x54, 0x46, 0x4E] then 3
  else if s.nn 0x1C 4 ≠ s.imgCrc 0 0x1C then 4
  else if ¬ (s.nn 4 2 = 1 ∧ s.nn 6 2 = 256 ∧ s.nn 0x10 1 = 13 ∧ (s.tetherMin = 1 ∨ s.tetherMin = 2) ∧ s.nn 0x12 1 < 2 ∧ s.nn 0x13 1 = 0) then 5
  else if ¬ (dmin ≤ 0x0821 ∧ 0x0821 ≤ dmax ∧ dmin / 256 = 8 ∧ dmax / 256 = 8) then 6
  else if ¬ s.layoutOk then 7 else 0

/-- Whether the key check passes (R254 code 0x09). -/
def State.keyOk (s : State) : Bool :=
  !s.imgSigned || (s.fuses.keyHash != 0 && s.fuses.keyHash.toNat == sha256 (s.nbytes 0xA0 96))

/-- Whether the signature check passes (R255). -/
def State.sigOk (s : State) (digest : Nat) : Bool :=
  if s.imgSigned then ecdsaOk (natBE (s.nbytes 0xA0 48)) (natBE (s.nbytes 0xD0 48)) (natBE (s.nbytes 0x40 48)) (natBE (s.nbytes 0x70 48)) digest
  else allZero (s.nbytes 0x40 192)

/-- A failed image check (R254): reason, section, rule, the image address at which the read stopped, and what had been sent by
then: sections, each with how many of its parts. -/
structure ImgFail where
  rc : Nat
  sec : Nat := 0
  rule : Nat
  readTo : Nat
  sent : List (Sect × Nat) := []
  deriving DecidableEq, Repr

/-- All parts of a section: the shared part and eight blocks or page sets. -/
def allParts : Nat := 9

/-- The image address behind the first `k` parts of a section. -/
def State.partEnd (s : State) (e : Sect) (k : Nat) : Nat :=
  if k = 0 then e.off + e.shared
  else if e.indexed then (let (a, n) := s.partOf e (k - 1); a + n)
  else e.off + e.shared + k * e.block

/-- The checks in stream over the sections in the order of the read, up to the first that fails: the index of page sets, each part
as it passes, and the CRC with the last byte (R251, R254; log entry 47). -/
def State.streamBad (s : State) (vs : List State) (used : Nat → Bool) : List Sect → Option ImgFail
  | [] => none
  | e :: r =>
    if e.indexed && !(s.indexOk e && s.pagesOnce e) then
      some { rc := 11, sec := e.code, rule := 251, readTo := e.off + 64, sent := [(e, 0)] }
    else match s.sectionBad vs used e with
      | some (rule, k) => some { rc := 13, sec := e.code, rule := rule, readTo := s.partEnd e k, sent := [(e, k)] }
      | none =>
        if e.crc ≠ s.imgCrc e.off e.len then
          some { rc := 12, sec := e.code, rule := 250, readTo := e.off + e.len, sent := [(e, allParts)] }
        else (s.streamBad vs used r).map fun x => { x with sent := (e, allParts) :: x.sent }

/-- A check on the header, the directory or the whole image fails. -/
def failAt (rc readTo : Nat) (sent : List (Sect × Nat)) : Option ImgFail :=
  some { rc := rc, rule := reasonRule rc, readTo := readTo, sent := sent }

/-- The first image check that fails, in the order in which the image passes (R248, R254). -/
def State.imageFail (s : State) : Option ImgFail :=
  let h := s.headerRc
  let all := s.dir.map fun e => (e, allParts)
  if h ≠ 0 then (if h = 2 ∧ ¬ s.inst.nvmEn then some { rc := 2, rule := 246, readTo := 0 } else failAt h (if h ≤ 2 then 0 else 256) [])
  else if s.fuses.sigReq ∧ ¬ s.imgSigned then failAt 8 256 []
  else if ¬ s.keyOk then failAt 9 256 []
  else if s.nn 0x18 4 ≠ s.imgCrc 0x100 416 then failAt 10 672 []
  else if ¬ s.dirOk then failAt 11 672 []
  else
    let vs := (List.range 8).map s.fieldView
    let used (f : Nat) : Bool := vs.any fun v => v.inst.fieldId == f && v.usedField
    match s.streamBad vs used s.dir with
    | some x => some x
    | none => match summaryBad vs with
      | some (c, rule) => some { rc := 13, sec := c, rule := rule, readTo := s.imgLen, sent := all }
      | none =>
        let dg := s.imgDigest
        if dg ≠ natBE (s.nbytes 0x20 32) then failAt 14 s.imgLen all
        else if ¬ s.sigOk dg then failAt 15 s.imgLen all else none

/-- The verdict on the image: the reason code of R254 and the section it names; reason 0 is GOOD. -/
def State.imageRc (s : State) : Nat × Nat :=
  match s.imageFail with
  | some x => (x.rc, x.sec)
  | none => (0, 0)

end Sys2Proof.Machine
end

