-- ==== Sys2Proof/Machine/Sync.lean ====
section
/-!
DEFINITION. Sync groups (R128 to R131): launch sets and voting on the manager, binding, booking and granting in a field.
-/

namespace Sys2Proof.Machine

/-! ### The manager's sets -/

/-- The slot that E[16:3] of SG_FWD names around the tick of receipt (R216). -/
def slotNear (g e : Nat) : Nat :=
  let base : Int := (g : Int) - 65536
  (base + ((e * 8 : Int) - base) % 131072).toNat

/-- Whether a set holds a request for every cluster of its group's mask (R128). -/
def State.setWhole (s : State) (x : SgSetRec) : Bool :=
  (List.range 256).all fun c => !s.inMask x.group c || x.mems.any fun m => m.cluster == c

/-- The fields with members of a set. -/
def SgSetRec.fields (x : SgSetRec) : List Nat := (List.range 8).filter fun f => x.mems.any fun m => m.field == f

/-- The payload fields that name a set (R216). -/
def SgSetRec.head (x : SgSetRec) : Nat := x.group * 2 ^ 99 + x.setId.getD 0 * 2 ^ 91

/-- Changes the sets that satisfy a test. -/
def State.updSets (s : State) (f : SgSetRec → Bool) (g : SgSetRec → SgSetRec) : State :=
  s.updMgr fun m => { m with sgSets := m.sgSets.map fun x => if f x then g x else x }

/-- Whether a record is the set with an identifier that is not committed yet. -/
def SgSetRec.isSet (x : SgSetRec) (g k : Nat) : Bool := x.group == g && x.setId == some k

/-- The next set of a group to vote on: the complete one that completed first, while no set of the group is under vote
(R128). -/
def State.nextVote (s : State) (g : Nat) : Option SgSetRec :=
  let l := s.mgr.sgSets.filter fun x => x.group == g && !x.committed
  if l.any (·.voting) then none
  else (l.filter fun x => x.order.isSome && x.fails < 16).foldl (fun a x => match a with
    | none => some x
    | some y => if x.order.getD 0 < y.order.getD 0 then some x else some y) none

/-- Starts a round of voting of a group where a set waits for one; P is not below `lo` (R129). -/
def State.startRound (s : State) (g lo : Nat) : State :=
  match s.nextVote g with
  | none => s
  | some x =>
    let p := slotUp (max lo (max (s.time + s.tk.sgLead) ((x.mems.map (·.earliest)).foldl max 0)))
    (s.updSets (fun y => y.isSet g (x.setId.getD 0) && !y.committed) fun y => { y with
      voting := true, p := p, firstP := some (y.firstP.getD p), sentAt := s.time, votes := [] }).broadcastAll 0x16 1
      (x.head + t32 p 59)

/-- A set that has become complete: it gets its identifier, the fields bind, and the vote starts (R128, R129). -/
def State.completeSet (s : State) (x : SgSetRec) : State :=
  let k := x.setId.getD s.mgr.setCtr
  let y := { x with setId := some k, order := some s.time }
  let s := s.updMgr fun m => { m with
    setCtr := if x.setId.isSome then m.setCtr else (m.setCtr + 1) % 256, sgSets := m.sgSets.map fun z => if z = x then y else z }
  let s := forL y.fields (fun f s => s.unicast 0x1F 1 f (y.head + y.job * 2 ^ 75 + y.layer * 2 ^ 59 + y.oper * 2 ^ 43)) s
  s.startRound x.group 0

/-- SG_FWD (R128, R129). -/
def execSgFwd (f : RxFlit) (s : State) : Out :=
  s.recv 0x12 f.ring f.flit (.sgFwd f) fun s =>
    if !s.inst.manager then s
    else
      let g := fbits f.flit 104 99
      let m : SgMem := { cluster := 32 * fSrc f.flit + fbits f.flit 34 30, ticket := fbits f.flit 50 35, earliest := slotNear s.time (fbits f.flit 29 16)
                         field := fSrc f.flit }
      let fits (x : SgSetRec) : Bool := x.group == g && x.job == fbits f.flit 98 83 && x.layer == fbits f.flit 82 67 &&
        x.oper == fbits f.flit 66 51 && !x.committed && !x.mems.any fun y => y.cluster == m.cluster
      let s := s.updMgr fun n => { n with sgSets := n.sgSets.filter fun x => !(x.committed && x.p + 65536 < s.time) }
      let i := s.mgr.sgSets.findIdx fits
      let x : SgSetRec := { (s.mgr.sgSets[i]?).getD { group := g, job := fbits f.flit 98 83, layer := fbits f.flit 82 67, oper := fbits f.flit 66 51 } with
        mems := (((s.mgr.sgSets[i]?).map (·.mems)).getD []) ++ [m] }
      let s := s.updMgr fun n => { n with sgSets := if i < n.sgSets.length then n.sgSets.set i x else n.sgSets ++ [x] }
      if s.setWhole x then s.completeSet x else s

/-- The largest slot that NO votes named. -/
def SgSetRec.maxF (x : SgSetRec) : Nat := ((x.votes.filter fun v => !v.2.1).map (·.2.2)).foldl max 0

/-- The fields that voted NO in the running round, or sent no vote. -/
def SgSetRec.noVotes (x : SgSetRec) : List Nat := x.fields.filter fun f => !x.votes.any fun v => v.1 == f && v.2.1

/-- A round fails: SG_CANCEL, and the next round with P at least the largest F, until the 16th failure leaves the set to be
withdrawn (R129, R130). -/
def State.failRound (s : State) (x : SgSetRec) : State :=
  let no := (x.votes.filter fun v => !v.2.1).map (·.1)
  let s := s.updSets (· == x) fun y => { y with
    voting := false, fails := y.fails + 1, noMask := listMask (maskList 8 y.noMask ++ no), votes := y.votes }
  (s.broadcastAll 0x18 1 x.head).startRound x.group (if 15 ≤ x.fails then 0 else x.maxF)

/-- Every vote is YES: SG_COMMIT; a set granted later than its first proposal raises SG_THROTTLED (R129, R130, R424). -/
def State.commitSet (s : State) (x : SgSetRec) : State :=
  let s := s.updSets (· == x) fun y => { y with voting := false, committed := true }
  let s := s.broadcastAll 0x17 1 (x.head + t32 x.p 59)
  let first := x.firstP.getD x.p
  let s := if first < x.p then
      s.raise cSgThrottled (mkSrc 0xB x.group) (x.setId.getD 0 + min 255 ((x.p - first) / 8) * 256 + x.noMask * 65536)
    else s
  s.startRound x.group 0

/-- Looks at a set under vote: with every field's vote the round ends, a NO among them or not (R129; log entry 72). -/
def State.countVotes (s : State) (g k : Nat) : State :=
  match s.mgr.sgSets.find? fun x => x.isSet g k && x.voting with
  | none => s
  | some x =>
    if x.fields.all fun f => x.votes.any fun v => v.1 == f then
      (if x.noVotes.isEmpty then s.commitSet x else s.failRound x)
    else s

/-- SG_VOTE (R129). -/
def execSgVote (f : RxFlit) (s : State) : Out :=
  s.recv 0x14 f.ring f.flit (.sgVote f) fun s =>
    let g := fbits f.flit 104 99
    let k := fbits f.flit 98 91
    let v := (fSrc f.flit, bit f.flit.toNat 90, extend32 s.time (fbits f.flit 89 58))
    (s.updSets (fun x => x.isSet g k && x.voting && !x.votes.any fun w => w.1 == fSrc f.flit) fun x => { x with
      votes := x.votes ++ [v] }).countVotes g k

/-- SG_VOTE_TIMEOUT (R130): a vote has not arrived 64 ticks after SG_PROP. -/
def execSgVoteTimeout (g : Fin 64) (s : State) : Out :=
  match s.mgr.sgSets.find? fun x => x.group == g.val && x.voting && x.sentAt + 64 ≤ s.time with
  | some x => if s.obs.frozen then .next s else .next (s.failRound x)
  | none => .next s

/-- SG_FAIL (R130): after 16 failed rounds every member of the set is withdrawn. -/
def execSgFail (g : Fin 64) (s : State) : Out :=
  match s.mgr.sgSets.find? fun x => x.group == g.val && 16 ≤ x.fails && !x.committed with
  | some x =>
    if s.obs.frozen then .next s
    else
      let s := s.updMgr fun m => { m with sgSets := m.sgSets.erase x }
      let s := s.broadcastAll 0x15 1 x.head
      .next ((s.raise cSgFail (mkSrc 0xB g) (x.setId.getD 0 + listMask x.noVotes * 256)).startRound g 0)
  | none => .next s

/-- SG_DROP (R129): the member leaves its set, and a round under way ends at once. A set that has its identifier waits for later
requests. -/
def execSgDrop (f : RxFlit) (s : State) : Out :=
  s.recv 0x13 f.ring f.flit (.sgDrop f) fun s =>
    let g := fbits f.flit 104 99
    let has (x : SgSetRec) : Bool := x.group == g && !x.committed && x.mems.any fun m => m.field == fSrc f.flit && m.ticket == fbits f.flit 98 83
    match s.mgr.sgSets.find? has with
    | none => s
    | some x =>
      let y := { x with mems := x.mems.filter fun m => !(m.field == fSrc f.flit && m.ticket == fbits f.flit 98 83), voting := false, order := none }
      let s := s.updMgr fun m => { m with
        sgSets := if y.mems.isEmpty ∧ y.setId.isNone then m.sgSets.erase x else m.sgSets.map fun z => if z = x then y else z }
      (if x.voting then s.broadcastAll 0x18 1 x.head else s).startRound g 0

/-! ### A field's members -/

/-- The members of a set in this field, in ascending cluster (R129): the tickets bound to its group and SET that are not final, also
once the identifiers have wrapped (log entry 72). -/
def State.members (s : State) (g k : Nat) : List Nat :=
  (List.range 32).flatMap fun c =>
    (s.tks fun x => x.sync && x.group == g && x.setId == some k && x.cluster == c && !x.state.final).map (·.1)

/-- SG_SET (R129): each cluster's oldest queued request of the key that is bound to no set is bound to this one. -/
def execSgSet (f : RxFlit) (s : State) : Out :=
  s.recv 0x1F f.ring f.flit (.sgSet f) fun s =>
    let g := fbits f.flit 104 99
    let k := fbits f.flit 98 91
    forIdx 32 (fun c s =>
      let q (x : Ticket) : Bool := x.cluster == c && x.sync && x.group == g && (x.state == .queued || x.state == .requested)
      if !s.inMask g (s.dieCluster c) || !(s.tks fun x => q x && x.setId == some k).isEmpty then s
      else
        let l := s.tks fun x => q x && x.setId.isNone && x.job == fbits f.flit 90 75 && x.layer == fbits f.flit 74 59 && x.oper == fbits f.flit 58 43
        match l.foldl (fun a e => match a with
            | none => some e
            | some b => if e.2.arrival < b.2.arrival then some e else some b) none with
        | none => s
        | some (i, _) => s.updTicket i fun x => { x with setId := some k }) s

/-- Whether one member fits at a slot in this tick (R116). -/
def State.memberFits (s : State) (i slot : Nat) : Bool :=
  let x := s.ticket i
  match s.tkDom x with
  | none => false
  | some d =>
    decide (x.earliest ≤ slot) && decide (s.time < slot) && decide (slot < s.time + 4096) && s.leadOk d x slot s.time &&
      s.whyNot d x slot s.time (s.dom d).loop (s.tktSp d) == 0 && !s.lim.pwrFail

/-- Books the members at a slot one after the other; the flag tells whether all of them fit (R129). -/
def State.bookAll (s : State) (l : List Nat) (slot : Nat) : State × Bool :=
  l.foldl (fun (s, ok) i =>
    if ok && s.memberFits i slot then
      (match s.tkDom (s.ticket i) with | some d => s.book d i slot | none => s, true)
    else (s, false)) (s, true)

/-- Unbooks members. -/
def unbook (l : List Nat) (s : State) : State :=
  forL l (fun i s => s.updTicket i fun x => if x.state.inLedger then x else { x with booked := none }) s

/-- SG_PROP (R129): the field books its members and votes; a NO names the first slot within 64 at which all fit. -/
def execSgProp (f : RxFlit) (s : State) : Out :=
  s.recv 0x16 f.ring f.flit (.sgProp f) fun s =>
    let g := fbits f.flit 104 99
    let k := fbits f.flit 98 91
    let l := s.members g k
    let p := extend32 s.time (fbits f.flit 90 59)
    if l.isEmpty then s
    else
      let (b, ok) := s.bookAll l p
      if ok then b.toManager 0x14 1 (g * 2 ^ 99 + k * 2 ^ 91 + 2 ^ 90 + t32 p 58)
      else
        let z := match (List.range 64).find? fun j => (s.bookAll l (p + 8 * j)).2 with
          | some j => p + 8 * j
          | none => p + 512
        s.toManager 0x14 1 (g * 2 ^ 99 + k * 2 ^ 91 + t32 z 58)

/-- SG_COMMIT (R129, R239): the bound members are granted the agreed slot; a field whose time-valid flag is clear grants none
of them and withdraws the set. -/
def execSgCommit (f : RxFlit) (s : State) : Out :=
  s.recv 0x17 f.ring f.flit (.sgCommit f) fun s =>
    let g := fbits f.flit 104 99
    let k := fbits f.flit 98 91
    let p := extend32 s.time (fbits f.flit 90 59)
    let l := (s.members g k).filter fun i => (s.ticket i).booked == some p && !(s.ticket i).state.inLedger
    if s.tth.timeValid then
      forL l (fun i s => match s.tkDom (s.ticket i) with | some d => s.grant d i p | none => s) s
    else if l.isEmpty then s
    else s.toManager 0x15 1 (g * 2 ^ 99 + k * 2 ^ 91)

/-- SG_CANCEL (R129). -/
def execSgCancel (f : RxFlit) (s : State) : Out :=
  s.recv 0x18 f.ring f.flit (.sgCancel f) fun s => unbook (s.members (fbits f.flit 104 99) (fbits f.flit 98 91)) s

/-- A worker's withdrawal at the manager: it is forwarded to every field, and fields that it reaches at or after S split
the set (R131; the manager judges by its own tick, log entry 22). -/
def State.forwardWd (s : State) (f : Flit) : State :=
  let g := fbits f 104 99
  let k := fbits f 98 91
  match s.mgr.sgSets.find? fun x => x.isSet g k && x.committed with
  | none => s
  | some x =>
    let wd := listMask (maskList 8 x.wdMask ++ [fSrc f])
    let late := if x.p ≤ s.time then listMask (x.fields.filter fun e => !bit wd e) else 0
    let s := (s.updSets (· == x) fun y => { y with wdMask := wd, lateMask := late }).broadcastAll 0x15 1 x.head
    if late = 0 then s else s.raise cSgSplit (mkSrc 0xB g) (k + wd * 256 + late * 65536)

/-- SG_WD (R131): a unicast withdrawal goes through the manager; a broadcast one withdraws the field's members whose S has
not begun. -/
def execSgWd (f : RxFlit) (s : State) : Out :=
  s.recv 0x15 f.ring f.flit (.sgWd f) fun s =>
    if !fBc f.flit then (if s.inst.manager then s.forwardWd f.flit else s)
    else
      let l := (s.members (fbits f.flit 104 99) (fbits f.flit 98 91)).filter fun i => (s.ticket i).early s.time
      forL l (fun i s => (s.finish i .withdrawn).respond (s.ticket i).cluster 0x3 i s.time) s

end Sys2Proof.Machine
end

