-- ==== Sys2Proof/Machine/Tether.lean ====
section
/-!
DEFINITION. The tether (R207 to R239): training and versions, die time, ring failure and resending, manager and worker
loss, and the off-die port. Times of arrival are in 1/16 tick.
-/

namespace Sys2Proof.Machine

/-! ### Training (R17, R219 to R221) -/

/-- The version ranges that TLN8 B1 offers (R220). -/
def verMin : Nat := 1
/-- See `verMin`. -/
def verMax : Nat := 2

/-- The payload of the instance's TRAIN flit (R216). -/
def State.trainPay (s : State) : Nat :=
  b2n s.inst.manager * 2 ^ 104 + s.inst.fieldId * 2 ^ 101 + verMin * 2 ^ 97 + verMax * 2 ^ 93

/-- A TRAIN flit seen: FIELD_ID, ROLE, repeats on ring 1 (or 8 more on ring 2), VER_MIN, VER_MAX. -/
def trainEntry (f : Flit) (r : Ring) : Nat × Bool × Nat × Nat × Nat :=
  (fbits f 103 101, bit f.toNat 104, fHops f + 1 + (match r with | .one => 0 | .two => 8), fbits f 100 97, fbits f 96 93)

/-- The repeats of the manager's TRAIN, or of the own one come back, on a ring: hops from its source. -/
def State.trainHops (s : State) (ring1 own : Bool) : Option Nat :=
  ((s.tth.seen.filter fun e => (if ring1 then decide (e.2.2.1 ≤ 8) else decide (8 < e.2.2.1)) &&
      (if own then e.1 == s.inst.fieldId && e.2.1 == s.inst.manager else e.2.1)).map fun e =>
    if ring1 then e.2.2.1 else e.2.2.1 - 8).foldl (fun a h => some (max (a.getD 0) h)) none

/-- A TRAIN flit on a ring (R219): it is repeated, its repeats and contents are noted, and a worker answers the manager's on the
ring it came in on. -/
def State.trainRing (s : State) (f : Flit) (r : Ring) : State :=
  let s := s.passOn r f
  if s.tth.trained then s
  else
    let e := trainEntry f r
    if s.tth.seen.contains e then s
    else
      let first := (s.trainHops (r == .one) false).isNone
      let s := s.updTth fun t => { t with seen := t.seen ++ [e] }
      if ¬ s.inst.manager ∧ e.2.1 ∧ first then
        s.sendOn (match r with | .one => 1 | .two => 2) (mkFlit 0x01 1 s.inst.fieldId 0 true 0 s.trainPay)
      else s

/-- The payload of the manager's TRAIN on the off-die port, where B1 offers version 1 alone (R216, R220). -/
def State.xtTrainPay (s : State) : Nat := b2n s.inst.manager * 2 ^ 104 + s.inst.fieldId * 2 ^ 101 + 2 ^ 97 + 2 ^ 93

/-- Sends the own TRAIN on the off-die port, once (R220, R236; log entry 16). -/
def State.sendXtTrain (s : State) : State :=
  if s.mgr.xtTrained then s else (s.updMgr fun m => { m with xtTrained := true }).sendXt 0x01 s.xtTrainPay

/-- The partner's TRAIN on the off-die port: its FIELD_ID, and the version of the pair, 1 or none (R220, R236). -/
def State.trainXt (s : State) (f : Flit) : State :=
  if ¬ s.inst.manager ∨ s.xtRole = 0 ∨ fBc f ∨ fHops f ≠ 0 then s
  else
    let s := s.updMgr fun m => { m with
      xtPeer := some (fbits f 103 101), xtVer := some (if fbits f 100 97 ≤ 1 ∧ 1 ≤ fbits f 96 93 then 1 else 0), xtUp := true }
    s.sendXtTrain

/-- TRAIN (R219, R220). -/
def execTrain (f : Flit) (p : TrainPort) (s : State) : Out :=
  if s.inst.inReset ∨ ¬ s.inst.pll ∨ ¬ flitOk f ∨ fKind f ≠ 0x01 then .next s
  else match p with
    | .offDie => .next (s.trainXt f)
    | .ring r => if s.obs.frozen then .next (s.captureFlit r (.train f p)) else .next (s.trainRing f r)

/-- Sends ECHO out of port B or A; it is link-local (R216, R219). -/
def State.sendEcho (s : State) (rings : Nat) : State := s.putOut rings (mkFlit 0x09 0 s.inst.fieldId 0 false 0 0)

/-- ECHO (R219): an ECHO of the neighbour is turned back out of port A; the own one comes back after a round trip, in
1/16 tick, of which 1 tick is the turn-round. -/
def execEcho (back : Option Nat) (s : State) : Out :=
  if s.inst.inReset ∨ ¬ s.inst.pll then .next s
  else match back with
    | none => .next (s.sendEcho 6)
    | some rt => .next (s.updTth fun t => { t with hop := tset 0 t.hop t.pos (min 255 ((rt - 16) / 2)) })

/-- The roster size (R219): from the manager's own TRAIN come back; at a worker from the manager's on both rings, or from its own
come back. Where neither is known the sources seen are counted. -/
def State.trainN (s : State) (ring1 : Bool) : Nat :=
  let count := (s.tth.seen.filter fun e => if ring1 then decide (e.2.2.1 ≤ 8) else decide (8 < e.2.2.1)).length + 1
  let back := (s.trainHops ring1 true).getD count
  if s.inst.manager then back
  else match s.trainHops true false, s.trainHops false false with
    | some a, some b => a + b
    | _, _ => back

/-- What the training of a ring taught: the TRAIN flits of the others seen on it, with the hops from their sources; the own one
comes back after n hops. -/
def State.ringSeen (s : State) (ring1 : Bool) : List (Nat × Bool × Nat × Nat × Nat) :=
  ((s.tth.seen.filter fun e => if ring1 then decide (e.2.2.1 ≤ 8) else decide (8 < e.2.2.1)).map fun e =>
    (e.1, e.2.1, if ring1 then e.2.2.1 else e.2.2.1 - 8, e.2.2.2)).filter fun e =>
      !(e.1 == s.inst.fieldId && e.2.1 == s.inst.manager && e.2.2.1 == s.trainN ring1)

/-- The version of a pair: the highest one in both ranges (R220). -/
def commonVer (lo hi : Nat) : Option Nat :=
  let v := min hi verMax
  if max lo verMin ≤ v then some v else none

/-- Why the manager holds the worker of a TRAIN entry (R17, R221): its FIELD_ID, or its versions. -/
def holdCode (own n : Nat) (l : List (Nat × Bool × Nat × Nat × Nat)) (e : Nat × Bool × Nat × Nat × Nat) : Nat :=
  if e.1 = own ∨ n ≤ e.1 ∨ 1 < (l.filter fun x => x.1 == e.1).length then 1
  else match commonVer e.2.2.2.1 e.2.2.2.2 with
    | none => 2
    | some _ => 0

/-- Why this worker is held, as far as the TRAIN flits tell it (R17, R221). -/
def ownHold (own n : Nat) (l : List (Nat × Bool × Nat × Nat × Nat)) : Nat :=
  if n ≤ own ∨ l.any (fun x => x.1 == own) then 1
  else match l.find? fun x => x.2.1 with
    | some m => if (commonVer m.2.2.2.1 m.2.2.2.2).isNone then 2 else 0
    | none => 0

/-- Positions, roster, versions and holds at the end of training (R219 to R221). A worker with the manager's FIELD_ID is named
under that number, and the manager itself is not held by it (R17). -/
def State.takeTraining (s : State) (ring1 ring2 : Bool) : State :=
  let l := s.ringSeen ring1
  let n := s.trainN ring1
  let own := s.inst.fieldId
  let mine := match l.find? fun e => e.2.1 with
    | some e => if ring1 then e.2.2.1 else (n - e.2.2.1) % n
    | none => 0
  let pos := if s.inst.manager then 0 else mine
  let place (e : Nat × Bool × Nat × Nat × Nat) : Nat := if ring1 then (pos + n - e.2.2.1) % n else (pos + e.2.2.1) % n
  let roster := (List.range n).map fun p => match l.find? fun e => place e == p with | some e => e.1 | none => own
  let ver := if s.inst.manager then verMax
    else match l.find? fun e => e.2.1 with | some m => (commonVer m.2.2.2.1 m.2.2.2.2).getD 0 | none => 0
  let s := s.updTth fun t => { t with
    n := n, pos := pos, trained := true, version := ver, ring1Down := !ring1, ring2Down := !ring2
    hop := tset 0 (tset 0 t.hop 0 0) pos (tget 0 t.hop 0), timeValid := s.inst.manager }
  let s := s.updInst fun x => { x with
    trainedAt := s.time, pllRef := if s.inst.manager then .refclk else if ring1 then .ring1 else .ring2 }
  let s := s.updMgr fun m => { m with roster := roster }
  if s.inst.manager then
    let w := l.filter fun e => !e.2.1
    s.updMgr fun m => { m with
      held := w.foldl (fun h e => if e.1 = own then h else tset 0 h e.1 (holdCode own n w e)) m.held, dupOwn := w.any (·.1 == own)
      vers := w.foldl (fun h e => tset 0 h e.1 ((commonVer e.2.2.2.1 e.2.2.2.2).getD 0)) m.vers }
  else
    let c := ownHold own n l
    let s := s.updMgr fun m => { m with held := tset 0 m.held own c }
    match c with
    | 1 => s.raiseInst cTthFieldId 0
    | 2 => s.raiseInst cTthVersion 0
    | _ => s

/-- Whether the straps clash: not exactly one instance with ROLE high (R221). -/
def State.roleClash (s : State) (ring1 : Bool) : Bool :=
  ((s.ringSeen ring1).filter fun e => e.2.1).length + b2n s.inst.manager != 1

/-! ### Die time (R225 to R229) -/

/-- The distance of the manager's TIME along a ring before any two-copy estimate: the hops along it (R227). -/
def State.hopSum (s : State) (ring : Nat) : Nat :=
  let seams := if ring = 1 then List.range s.tth.pos else (List.range s.tth.n).filter fun k => s.tth.pos ≤ k
  (seams.map fun k => if k = s.tth.pos then tget 0 s.tth.hop k else Config.hopDelay k).sum

/-- Half of a time, where the spec names no rounding (log entry 4). -/
def half (x : Int) : Int := openRound ((x : Rat) / 2)

/-- The time of an instance is set back by whole ticks; expiries and identifier guards keep what they have left (R229). -/
def State.stepTime (s : State) (k : Int) : State :=
  { s with
    time := (((s.time : Int) - k) % 2 ^ 64).toNat
    tk := { s.tk with tickets := s.tk.tickets.map fun (i, x) => (i, { x with extra := x.extra - k }) } }

/-- The PLL steers towards offset 0, its frequency by at most 50 ppm per µs and so 51 ppm at an estimate of one frame, without a
phase step (R31, R228; the amount is open, log entry 75). -/
def State.steerBy (s : State) (off : Int) : State :=
  let k : Int := (Config.pllStep s.fresh % 52 : Nat)
  { s with fresh := s.fresh + 1 }.updTth fun t => { t with steer := t.steer - off.sign * k }

/-- What follows one estimate of the offset, in 1/16 tick (R227 to R229). The first one of a start loads TETHER_TIME; later ones of
up to 2 ticks only steer. -/
def State.estimate (s : State) (off : Int) : State :=
  let s := s.updTth fun t => { t with off := clampI off (-32768) 32767, offFull := off, ts := none, t1 := none, t2 := none }
  if ¬ s.tth.loaded then (s.updTth fun t => { t with loaded := true }).stepTime (openNearest ((off : Rat) / 16))
  else if 32 < off.natAbs then
    let was := s.tth.timeValid
    let s := s.updTth fun t => { t with timeValid := false, okEst := 0, stepPend := true }
    if was then s.raiseInst cTthTimeInvalid (uext 16 (clampI off (-32768) 32767)) else s
  else
    let s := s.updTth fun t => { t with okEst := if off.natAbs ≤ 16 then min 4 (t.okEst + 1) else 0 }
    if off = 0 then s else s.steerBy off

/-- The estimate from what has arrived of one TS: both copies, or one when `last` says that no other will come (R227). -/
def State.tryEstimate (s : State) (last : Bool) : State :=
  let t := s.tth
  match t.ts, t.t1, t.t2 with
  | some ts, some a, some b =>
    let r : Rat := ((t.rev1 + t.rev2 : Nat) : Rat) / 2
    let d1 := (clampI (openRound (((a : Rat) - b + r) / 2)) 0 255).toNat
    let s := s.updTth fun t => { t with d1 := d1, d2 := (clampI (openRound (r - ((a : Rat) - b + r) / 2)) 0 255).toNat, two := true }
    s.estimate (openRound (((a : Rat) + b - 2 * ts - r) / 2))
  | some ts, some a, none =>
    if last then s.estimate ((a : Int) - ts - (if t.two then t.d1 else s.hopSum 1)) else s
  | some ts, none, some b =>
    if last then s.estimate ((b : Int) - ts - (if t.two then t.d2 else s.hopSum 2)) else s
  | _, _, _ => s

/-- The buffered job records leave once the manager is back (R234). -/
def State.managerBack (s : State) : State :=
  if s.tth.mgrLost.isNone ∨ bit s.inst.gndMask 6 then s
  else
    let held := s.lim.jobHeld
    let s := (s.updTth fun t => { t with mgrLost := none }).updLim fun l => { l with jobHeld := [] }
    let s := s.endCause cTthMgrLost s.srcInst
    let s := forL held (fun (j, uj) s => s.sendJob (roundOf s.time) j uj) s
    forL (s.eng.bad.filter fun e => e.2.any (·.asked)) (fun (pg, _) s => s.askPage pg) s

/-- TIME at a worker: the arrival is stamped on its own time (R226, R227, R234). With both copies the estimate is made; with one
alone it follows at the frame start, one to a frame. -/
def State.workerTime (s : State) (f : Flit) (r : Ring) (arr : Nat) : State :=
  let ts := 16 * fbits f 104 41 + fbits f 40 37
  let s := s.updTth fun t => { t with gotTime := true, noTime := 0 }
  let s := if s.tth.ts = some ts then s else s.updTth fun t => { t with ts := some ts, t1 := none, t2 := none }
  let s := s.updTth fun t => match r with
    | .one => { t with t1 := some arr, rev1 := fbits f 35 28 }
    | .two => { t with t2 := some arr, rev2 := fbits f 35 28 }
  (s.tryEstimate false).managerBack

/-- TIME (R226, R227, R231): at the manager its own flit comes back and gives the ring's revolution. -/
def execTime (f : Flit) (r : Ring) (frac : Fin 16) (s : State) : Out :=
  if s.inst.inReset ∨ ¬ s.inst.pll ∨ ¬ flitOk f ∨ fKind f ≠ 0x02 ∨ some (fSrc f) ≠ s.mgrId then .next s
  else if s.obs.frozen then .next (s.captureFlit r (.time f r frac))
  else
    let s := s.passOn r f
    let arr := 16 * s.time + frac.val
    if s.inst.manager then
      let rev := min 255 (arr - s.tth.timeSent1)
      .next (s.updTth fun t => match r with
        | .one => { t with back1 := true, rev1 := rev }
        | .two => { t with back2 := true, rev2 := rev })
    else .next (s.workerTime f r arr)

/-- TIME_VALID_SET (R229). -/
def execTimeValidSet (s : State) : Out :=
  if 4 ≤ s.tth.okEst ∧ ¬ s.tth.timeValid then
    .next ((s.updTth fun t => { t with timeValid := true }).endCause cTthTimeInvalid s.srcInst)
  else .next s

/-- TTH_TIME_STEP (R229): tickets whose S has not begun are withdrawn, TETHER_TIME is stepped, and decisions that fall due
apply at once. -/
def execTthTimeStep (s : State) : Out :=
  if s.tth.stepPend ∧ s.time % 256 = 0 ∧ ¬ s.obs.frozen then
    let l := s.tks fun x => (x.state == .granted || x.state == .armed) && decide (s.time < x.slot)
    let s := forL (l.map (·.1)) (fun i s => s.withdraw i) s
    let k := openNearest ((s.tth.offFull : Rat) / 16)
    let s := (s.updTth fun t => { t with stepPend := false, okEst := 0, stepped := -k, ts := none, t1 := none, t2 := none }).stepTime k
    let s := s.raiseInst cTthTimeStep (uext 32 (clampI (-k) (-(2 ^ 31)) (2 ^ 31 - 1)))
    let due := s.decs.filter fun x => x.eff ≤ s.time
    .next (forL due (fun x s => s.applyDec x.what) { s with decs := s.decs.filter fun x => s.time < x.eff })
  else .next s

/-! ### Ring failure (R230 to R233) -/

/-- The PLL reference of a worker whose ring has lost its clock, or is taken as down while the other is not, moves to the other
ring as long as its own link works (R30, R230). -/
def State.pllMove (s : State) : State :=
  s.updInst fun x => { x with pllRef :=
    if x.pllRef = PllRef.ring1 ∧ ((s.tth.ring1Down ∧ ¬ s.tth.ring2Down) ∨ (s.tth.linkA ∧ ¬ s.tth.linkB)) then PllRef.ring2
    else if x.pllRef = PllRef.ring2 ∧ ((s.tth.ring2Down ∧ ¬ s.tth.ring1Down) ∨ (s.tth.linkB ∧ ¬ s.tth.linkA)) then PllRef.ring1
    else x.pllRef }

/-- The own flits that wait for an IDLE on a link go where the rings' state sends them: off a ring that is down, in line mode onto
both, and LINK_DOWN and TRAIN stay (R230 to R232). -/
def State.moveOwn (s : State) : State :=
  let a := s.tth.link1.own
  let b := s.tth.link2.own
  let stays (f : Flit) : Bool := fKind f == 0x0A || fKind f == 0x01
  let all := (a ++ b.filter fun f => !a.contains f).filter fun f => !s.lineMode || fClass f != 3
  s.updTth fun t => { t with
    link1 := { t.link1 with own := if s.lineMode ∨ ¬ t.ring1Down then all else a.filter stays }
    link2 := { t.link2 with own := if s.lineMode ∨ ¬ t.ring2Down then all else b.filter stays } }

/-- A ring is taken as down: a pending RING_UP for it lapses, the PLL reference moves, traffic moves to the other, and with both
down the tether is in line mode, where nothing is resent (R30, R230 to R233). A ring that is declared down again before its
RING_UP starts its count of intact frames again. -/
def State.takeRingDown (s : State) (ring : Nat) : State :=
  let was := if ring = 1 then s.tth.ring1Down else s.tth.ring2Down
  let s := s.updTth fun t => if ring = 1 then { t with ring1Down := true, intact1 := 0 } else { t with ring2Down := true, intact2 := 0 }
  let s := (s.dropDecs (· == DecKind.ringUp ring)).pllMove
  if was then s
  else
    let s := s.moveOwn
    if s.lineMode then
      let s := s.updTth fun t => { t with slots := [] }
      if s.inst.manager then s.raiseInst cTthLineMode 0 else s
    else s

/-- LINK_DOWN (R230). -/
def execLinkDown (f : RxFlit) (s : State) : Out :=
  s.recv 0x0A f.ring f.flit (.linkDown f) fun s => s.takeRingDown (if bit f.flit.toNat 104 then 2 else 1)

/-- Broadcasts LINK_DOWN for the own incoming link of a ring (R216, R230). -/
def State.sendLinkDown (s : State) (ring : Nat) : State :=
  s.broadcastBoth 0x0A 1 ((ring - 1) * 2 ^ 104 + s.tth.pos * 2 ^ 101)

/-- TTH_LINK_DOWN (R230, R424): the own incoming link of a ring is declared down, without its clock or with 16 failed
flits. -/
def execTthLinkDown (r : Ring) (crc : Bool) (s : State) : Out :=
  let ring := match r with | .one => 1 | .two => 2
  if s.inst.inReset ∨ ¬ s.inst.pll ∨ (if ring = 1 then s.tth.linkA else s.tth.linkB) then .next s
  else
    let s := s.updTth fun t => if ring = 1 then { t with linkA := true, ldLeft1 := 3, retrained := false }
      else { t with linkB := true, ldLeft2 := 3, retrained := false }
    .next (((s.sendLinkDown ring).takeRingDown ring).raise cTthLinkDown (mkSrc 8 (ring - 1)) (ring - 1 + 2 * b2n crc))

/-- The links of a ring that is down train again each housekeeping round, by steps 1 and 2 of R219 (R231). -/
def State.retrain (s : State) : State :=
  if s.tth.trained ∧ (s.tth.ring1Down ∨ s.tth.ring2Down) then (s.updTth fun t => { t with retrained := true }).sendEcho 5 else s

/-- RING_UP (R231). -/
def execRingUp (f : RxFlit) (s : State) : Out :=
  s.recv 0x08 f.ring f.flit (.ringUp f) fun s => s.takeDec (extendNear s.time (fbits f.flit 104 73)) (.ringUp (if bit f.flit.toNat 72 then 2 else 1))

/-- FLIT_CRC_FAIL (R215): the flit is counted at its port. -/
def execFlitCrcFail (r : Ring) (s : State) : Out :=
  if s.inst.inReset then .next s
  else .next (s.updTth fun t => match r with
    | .one => { t with crcA := min 65535 (t.crcA + 1) }
    | .two => { t with crcB := min 65535 (t.crcB + 1) })

/-! ### Resending (R218, R359) -/

/-- A flit without its repeat count. -/
def flitCore (f : Flit) : Nat := f.toNat - fHops f * 2 ^ 111

/-- FLIT_RETURN (R218): the returned flit frees its resend slot. -/
def execFlitReturn (f : Flit) (_r : Ring) (s : State) : Out :=
  if flitOk f ∧ fSrc f = s.inst.fieldId ∧ ¬ s.inst.inReset then
    .next (s.updTth fun t => { t with slots := t.slots.filter fun x => flitCore x.word != flitCore f })
  else .next s

/-- FLIT_RESEND (R218): 32 ticks after the last send; after three sends the flit is dropped. -/
def execFlitResend (q : Fin 64) (s : State) : Out :=
  match s.tth.slots.find? fun x => fSeq x.word == q.val && decide (x.sentAt + 32 ≤ s.time) with
  | none => .next s
  | some x =>
    if s.lineMode ∨ s.obs.frozen then .next s
    else if 3 ≤ x.sends then
      .next ((s.updTth fun t => { t with slots := t.slots.erase x, undel := min 65535 (t.undel + 1) }).raiseInst cTthUndelivered 0)
    else
      let other := if x.ring = 3 then 3 else 3 - x.ring
      let ring := if (if other = 1 then s.tth.ring1Down else s.tth.ring2Down && other == 2) then x.ring else other
      let y := { x with ring := ring, sentAt := s.time, sends := x.sends + 1 }
      .next ((s.updTth fun t => { t with
        slots := t.slots.map fun z => if z = x then y else z, seqUse := tset 0 t.seqUse (fSeq x.word) (s.time + 1) }).putOut ring x.word)

/-! ### Manager and worker loss (R234, R235) -/

/-- TTH_MGR_LOST (R234). -/
def execTthMgrLost (s : State) : Out :=
  if ¬ s.inst.manager ∧ 16 ≤ s.tth.noTime ∧ s.tth.mgrLost.isNone ∧ ¬ s.obs.frozen then
    .next ((s.updTth fun t => { t with mgrLost := some (roundOf s.time) }).raiseInst cTthMgrLost 0)
  else .next s

/-- MGR_LOST_GROUNDED (R234, R294): at the 16th round boundary without the manager. -/
def execMgrLostGrounded (s : State) : Out :=
  match s.tth.mgrLost with
  | some r => if r + 16 ≤ roundOf s.time ∧ s.time % 262144 = 0 then .next (s.groundBy 6) else .next s
  | none => .next s

/-- TTH_WORKER_LOST (R235): four rounds without a report. -/
def execTthWorkerLost (fld : Fin 8) (s : State) : Out :=
  if s.inst.manager ∧ s.mgr.roster.contains fld.val ∧ 4 ≤ (s.report fld).missed ∧ ¬ tget false s.mgr.lostF fld.val then
    .next ((s.updMgr fun m => { m with lostF := tset false m.lostF fld.val true }).raise cTthWorkerLost (mkSrc 0xC fld) 0)
  else .next s

/-! ### The tether at a frame start (R226, R227, R230, R231, R234) -/

/-- The manager's TIME for this frame: one SEQ, a copy on each ring, for which it waits where it must (R217, R226). -/
def State.sendTime (s : State) : State := s.sendOn 3 (mkFlit 0x02 0 s.inst.fieldId 0 true 0 0)

/-- A ring whose TIME has returned intact for 16 consecutive frames comes up again (R231, R233). -/
def State.tryRingUp (s : State) (ring : Nat) : State :=
  let (down, back, n) := if ring = 1 then (s.tth.ring1Down, s.tth.back1, s.tth.intact1) else (s.tth.ring2Down, s.tth.back2, s.tth.intact2)
  let n := if down && back then n + 1 else 0
  let pend := s.decs.any fun x => x.what == .ringUp ring
  let go := decide (16 ≤ n) && !pend
  let s := s.updTth fun t => let n := if go then 0 else min 16 n; if ring = 1 then { t with intact1 := n } else { t with intact2 := n }
  if go then
    let eff := decisionTick s.time
    (s.broadcast 0x08 0 (t32 eff 73 + (ring - 1) * 2 ^ 72)).addDec eff (.ringUp ring)
  else s

/-- Repeats LINK_DOWN at the next three frame starts while the link stays down (R230). -/
def State.repeatLinkDown (s : State) : State :=
  let s := if s.tth.linkA ∧ s.tth.ldLeft1 ≠ 0 then (s.updTth fun t => { t with ldLeft1 := t.ldLeft1 - 1 }).sendLinkDown 1 else s
  if s.tth.linkB ∧ s.tth.ldLeft2 ≠ 0 then (s.updTth fun t => { t with ldLeft2 := t.ldLeft2 - 1 }).sendLinkDown 2 else s

/-- The tether at a frame start. -/
def State.tetherFrame (s : State) : State :=
  let s := s.repeatLinkDown
  if s.inst.manager then
    if s.mgr.acqAt.any (· ≤ s.time) ∧ ¬ s.inst.lockstep then
      let s := (s.tryRingUp 1).tryRingUp 2
      let s := if s.xtRole = 0 then s else s.sendXtTrain
      (s.updTth fun t => { t with back1 := false, back2 := false }).sendTime
    else s
  else
    let s := s.tryEstimate true
    s.updTth fun t => { t with noTime := if t.gotTime || !t.loaded then 0 else min 16 (t.noTime + 1), gotTime := false }

/-! ### The off-die port (R236 to R238) -/

/-- Whether the manager takes a flit of a kind on its off-die port (R236). -/
def State.xtTakes (s : State) (kind : Nat) (f : Flit) : Bool :=
  s.inst.manager && !s.inst.inReset && s.inst.pll && s.xtRole != 0 && s.mgr.xtVer != some 0 && flitOk f && fKind f == kind &&
    fHops f == 0 && !fBc f

/-- What every flit of the partner shows: the link is up, and the FIELD_ID of its manager (R236). -/
def State.xtHear (s : State) (f : Flit) : State := s.updMgr fun m => { m with xtUp := true, xtPeer := some (fSrc f) }

/-- The source of the off-die faults. -/
def srcTx : Nat := mkSrc 8 2

/-- XT_EXCHANGE (R237): every 64 frames, unless the partner has the same role. -/
def execXtExchange (s : State) : Out :=
  if s.inst.manager ∧ s.xtRole = 2 ∧ ¬ s.mgr.xtRoleBad ∧ s.mgr.xtVer ≠ some 0 ∧ s.time % 16384 = 0 ∧ ¬ s.obs.frozen ∧ ¬ s.inst.lockstep ∧ ¬ s.inst.inReset then
    .next ((s.updMgr fun m => { m with xtT1 := some (16 * s.time) }).sendXt 0x1C (t64 s.time 41))
  else .next s

/-- The partner has the same role: throttle levels only (R237). -/
def State.xtClash (s : State) : State :=
  if s.mgr.xtRoleBad then s else (s.updMgr fun m => { m with xtRoleBad := true }).raise cXtRole srcTx 0

/-- XT_REQ (R237): a SOURCE answers; at a FOLLOWER it shows that the partner is a FOLLOWER too. -/
def execXtReq (f : Flit) (frac : Fin 16) (s : State) : Out :=
  if ¬ s.xtTakes 0x1C f then .next s
  else
    let s := s.xtHear f
    if s.xtRole = 2 then .next s.xtClash
    else if s.mgr.xtRoleBad then .next s
    else .next ({ s with fresh := s.fresh + 1 }.sendXt 0x1D (t64 s.time 41 + frac.val * 2 ^ 37 + Config.xtTurn s.fresh % 2 ^ 20 * 2 ^ 17))

/-- A completed exchange: before the workers take the manager's time it is stepped once, after that it only steers
(R237). -/
def State.xtOffset (s : State) (ofs : Int) : State :=
  if s.mgr.acqAt.isNone then
    let s := (s.updMgr fun m => { m with xtStepped := true, xtOfs := 0, xtValid := true }).stepTime (-(openNearest ((ofs : Rat) / 16)))
    s.updMgr fun m => { m with acqAt := some s.time }
  else
    let ok := decide (ofs.natAbs ≤ 32)
    let was := s.mgr.xtValid
    let s := (s.updMgr fun m => { m with xtOfs := clampI ofs (-32768) 32767, xtValid := ok }).steerBy (-ofs)
    if was && !ok && s.inst.ready then s.raise cXtTime srcTx 0
    else if ok then s.endCause cXtTime srcTx else s

/-- XT_RSP (R237): offset = ((T2 − T1) − (T4 − T3)) / 2. -/
def execXtRsp (f : Flit) (frac : Fin 16) (s : State) : Out :=
  if ¬ s.xtTakes 0x1D f then .next s
  else
    let s := (s.xtHear f).updMgr fun m => { m with xtRspAt := s.time }
    if s.xtRole = 1 then .next s.xtClash
    else match s.mgr.xtT1 with
      | none => .next s
      | some t1 =>
        let t2 : Int := 16 * fbits f 104 41 + fbits f 40 37
        let t3 := t2 + fbits f 36 17
        let t4 : Int := 16 * s.time + frac.val
        .next ((s.updMgr fun m => { m with xtT1 := none }).xtOffset (half ((t2 - t1) - (t4 - t3))))

/-- XT_THR (R238): the level received is kept; nothing acts on it. -/
def execXtThr (f : Flit) (s : State) : Out :=
  if s.xtTakes 0x1E f then
    let s := (s.xtHear f).updMgr fun m => { m with
      xtLevel := fbits f 104 97, xtRound := fbits f 96 81, xtSince := roundOf s.time, xtDown := false }
    .next (s.endCause cXtLinkDown srcTx)
  else .next s

/-- XT_LINK_DOWN (R238): the link fails as in R230, or no XT_THR for 16 rounds. -/
def execXtLinkDown (clock : Bool) (s : State) : Out :=
  if s.inst.manager ∧ s.xtRole ≠ 0 ∧ ¬ s.mgr.xtDown ∧ ¬ s.inst.inReset ∧ (clock ∨ s.mgr.xtSince + 16 ≤ roundOf s.time) then
    .next ((s.updMgr fun m => { m with xtDown := true, xtUp := false }).raise cXtLinkDown srcTx 0)
  else .next s

/-- log2 of a grant spacing. -/
def log2Sp (n : Nat) : Nat := if 64 ≤ n then 6 else if 32 ≤ n then 5 else if 16 ≤ n then 4 else if 8 ≤ n then 3 else if 4 ≤ n then 2 else if 2 ≤ n then 1 else 0

/-- The throttle level over the fields of the die (R238): the manager's own field from its state; no flit carries a worker's TKT_SP
or notches, and they are open (log entry 38). -/
def State.xtLevelNow (s : State) : Nat :=
  let ws := (s.mgr.roster.filter (· != s.inst.fieldId)).map (Config.fieldThr (roundOf s.time))
  let sp := ((s.doms_.filter fun d => s.dclass d == 0).map s.tktSp).foldl max 1
  let l := (ws.map fun w => min 6 w.1).foldl max (log2Sp sp)
  let n := (ws.map (·.2)).foldl max s.lim.ladC.stack.length
  b2n s.mgr.capFloor * 128 + l * 16 + min 15 n

/-- XT_THR leaves in frame 0 of each round (R238). -/
def State.sendThr (s : State) : State :=
  if s.inst.manager ∧ s.xtRole ≠ 0 then s.sendXt 0x1E (s.xtLevelNow * 2 ^ 97 + roundOf s.time % 65536 * 2 ^ 81) else s

end Sys2Proof.Machine
end

