-- ==== Sys2Proof/Machine/Startup.lean ====
section
/-!
DEFINITION. Start-up (R240 to R260, R270, R271): straps, fuses, spine enumeration, ring training, NVM discovery, the
distribution of the image and the verdict, the commit of a field's share, configuration agreement, RUN, READY, the factory
safe table, and page reloads (R166).
-/

namespace Sys2Proof.Machine

/-! ### Straps, fuses and discovery -/

/-- RST_N releases while EXTEST, INTEST or BIST is in force: the wrapper returns to WS_BYPASS (R389). -/
def Tap.afterReset (t : Tap) : Tap := { t with wir := if 2 ≤ t.wir.toNat ∧ t.wir.toNat ≤ 4 then 0 else t.wir }

/-- RST_N_RELEASE (R207, R240): the straps are sampled, and the arrays that failed their self-test are retired (R167). -/
def execRstNRelease (x : Straps) (s : State) : Out :=
  if s.inst.strapped ∧ ¬ s.inst.inReset then .next s
  else
    let s := ({ s with tiles := [] }.updTap Tap.afterReset).updInst fun n => { n with
      inReset := false, strapped := true, manager := x.manager, fieldId := x.fieldId, nvmEn := x.nvmEn }
    let s := s.updEng fun e => { e with retired := x.bistFail.toNat }
    let s := forL (maskList 4 x.bistFail.toNat) (fun a s => (s.raise cEngArrayRetired (mkSrc 7 a) 0).endCause cEngArrayRetired (mkSrc 7 a)) s
    .next (if x.bistFail.toNat = 15 then s.groundBy 3 else s)

/-- PLL_LOCK (R225, R240). -/
def execPllLock (s : State) : Out :=
  if s.inst.strapped ∧ ¬ s.inst.inReset ∧ ¬ s.inst.pll then .next (s.updInst fun n => { n with pll := true, pllRef := .refclk })
  else .next s

/-- The data of IMG_BAD (R254): reason, section, and the number of the rule that failed in the bits above (log entry 77). -/
def imgBadData (rc sec rule : Nat) : Nat := rc + 256 * sec + 4096 * rule

/-- Whether a ticket-port range has a version in common with B1's (R220, R373). -/
def tkVerOk (v : Nat × Nat) : Bool := v.1 ≤ 1 && 1 ≤ v.2

/-- A number of fuse fields of one width behind others, the first lowest. -/
def fuseField (width n : Nat) (l : List Nat) (rest : Nat) : Nat :=
  (List.range n).foldr (fun i a => nth 0 l i % 2 ^ width + 2 ^ width * a) rest

/-- The 909 bytes over which FUSE_CRC runs: the fields in the order of R244's table, of each field the first entry and the lowest bit
first, and zeros to the whole byte (log entry 76). -/
def Fuses.bytes (f : Fuses) : List (BitVec 8) :=
  leBytes 909 (fuseField 12 512 f.vt (fuseField 12 32 f.vsafe (fuseField 6 32 f.safeMitten (fuseField 6 32 f.safeCluster
    (fuseField 3 32 f.safeClass (fuseField 256 1 [f.keyHash.toNat] (fuseField 1 1 [b2n f.sigReq] (fuseField 2 1 [f.nvmClk] 0))))))))

/-- Whether FUSE_CRC passes (R244, R245). -/
def Fuses.crcOk (f : Fuses) : Bool := f.crc.toNat == crc32 f.bytes

/-- What a fuse read brings into the registers (R244). -/
def fusesOf (x : FuseRead) : Fuses := {
  vt := x.vt.map (· % 4096), vsafe := x.vsafe.map (· % 4096), safeMitten := x.safeMitten.map (· % 64)
  safeCluster := x.safeCluster.map (· % 64), safeClass := x.safeClass.map (· % 8), keyHash := x.keyHash, sigReq := x.sigReq
  nvmClk := x.nvmClk, crc := x.crc }

/-- FUSE_READ (R242, R244, R245, R373): the host port answers from here, FAULT_N is released, the cluster ranges are
sampled, and ring training begins (R219). -/
def execFuseRead (x : FuseRead) (s : State) : Out :=
  if ¬ s.inst.pll ∨ s.inst.fuseDone then .next s
  else
    let ok := (fusesOf x).crcOk
    let s := { s with fuses := fusesOf x }
    let s := (s.updInst fun n => { n with fuseDone := true, fuseBad := !ok }).updFlt fun f => { f with held := false }
    let s := forL ((List.range 32).filter fun c => !tkVerOk (nth (0, 0) x.tkVer c)) (fun c s =>
      (s.updCluster c fun y => { y with disabled := true }).raise cTktVersion (mkSrc 6 c) 0) s
    let s := if ok then s else s.raiseInst cFuseCrc 0
    let s := if ¬ ok ∧ s.inst.manager then (s.updInst fun n => { n with imgRc := 1, imgRule := 245 }).raiseInst cImgBad (imgBadData 1 0 245) else s
    let s := s.sendEcho 5
    .next (if s.inst.manager then s.broadcastBoth 0x01 1 s.trainPay else s)

/-- t_page of R332 in ns: the maximum page-program time, 261 bytes in single I/O at the clock of NVM_CLK, and 2 µs. -/
def pageTime (clk tPage : Nat) : Nat := tPage + (match clk with | 0 => 20880 | 1 => 41760 | _ => 83520) + 2000

/-- LOG_PF_GUAR of R332; a device too slow for one page guarantees none. -/
def pfGuarOf (clk tPage tSus : Nat) : Nat := min (4 * ((1900000 - tSus) / pageTime clk tPage - 1)) 64

/-- The first read mode that a device supports, its place in the tables' list and its lanes (R247). -/
def readMode (x : Sfdp) : ReadMode × Option Nat × Nat :=
  if x.has144 && x.quadOk then (.r144, some 0, 4)
  else if x.has114 && x.quadOk then (.r114, some 1, 4)
  else if x.has122 then (.r122, some 2, 2)
  else if x.has112 then (.r112, some 3, 2)
  else (.r111, none, 1)

/-- The levels that an instance drives on its NVM port outside a transfer: NVM_CS_N, NVM_SCK, and whether NVM_IO is driven. Only the
manager's port is used; between its reads and flash commands it stands as a worker's (R246, R248). -/
structure NvmPins where
  csN : Bool := true
  sck : Bool := false
  ioDriven : Bool := false
  deriving DecidableEq, Repr

/-- The NVM pins between transfers (R246). -/
def State.nvmPins (_s : State) : NvmPins := {}

/-- NVM_DISCOVERY (R246, R247, R329, R332). The tables name no clocks of the 1-1-1 fast read: 0 mode and 8 dummy clocks (log entry 78). -/
def execNvmDiscovery (x : Sfdp) (s : State) : Out :=
  if ¬ s.inst.manager ∨ ¬ s.inst.nvmEn ∨ ¬ s.inst.fuseDone ∨ s.inst.verdict ≠ 0 then .next s
  else
    let ok := x.answers && x.signature == 0x50444653 && x.major == 1 && x.bfpt
    let (mode, i, lanes) := readMode x
    let cmd := match i with | some i => nth (0, 0, 0) x.reads i | none => (0x0B, 0, 8)
    let qe := x.qeWrite && lanes == 4
    let b7 := decide (0x1000000 < x.size) && !x.read4 && x.enter4
    let big := decide (0x1000000 < x.size)
    let size := if big && !x.read4 && !x.enter4 then 0x1000000 else min x.size 0x4000000
    .next (s.updLog fun l => { l with
      noLog := !(x.erase4k && x.suspend), pfGuar := pfGuarOf s.fuses.nvmClk x.tPage x.tSus
      info := {
        found := ok, size := size, lanes := lanes, mode := mode, opcode := cmd.1, modeClk := cmd.2.1, dummy := cmd.2.2
        sent := [0xAB, 0x5A] ++ (if qe then [0x50] else []) ++ (if b7 then [0xB7] else []), entered4 := b7
        four := big && x.read4, erase4k := x.erase4k, suspend := x.suspend
        tPage := x.tPage, tSus := x.tSus } })

/-! ### The factory safe table (R271) -/

/-- Every domain's ratings, trust and selections as a new map gives them (R22, R75, R94, R176, R179). -/
def State.placeDomains (s : State) : State :=
  let s := forL s.doms_ (fun d s => trustAll d (refreshCeil d (s.updDom d fun x => { x with
    pCap := s.pTop d, pTh := s.pTop d, pSel := s.pTop d }))) s
  forL (s.doms_.flatMap s.dmittens) (fun m s => s.queueShares m) s

/-- A tile of an assigned mitten that did not answer enumeration counts as lost, as if it had failed in operation: TILE_LOST as
for a silent tile (R65), and what follows a loss in its mitten (R20, R23, R95). -/
def State.lostAtStart (s : State) : State :=
  if ¬ s.inst.enumDone then s
  else
    let ts := (s.doms_.flatMap s.dtiles).filter fun t => !(s.view t).present && !s.isOpen cTileLost (mkSrc 1 t)
    let s := forL ts (fun t s => s.raise cTileLost (mkSrc 1 t) 3) s
    forL (ts.map (· / 6)).dedup (fun m s => s.afterLoss m) s

/-- Starts the instance on the factory safe table: GROUNDED with cause 4, the fuse map in place of the domain map (R11,
R271). -/
def State.factoryStart (s : State) : State :=
  if s.inst.factory then s
  else
    let s := { s with cfg := [], pend := [] }.updInst fun n => { n with factory := true, committed := false, sectIn := [] }
    (s.placeDomains.lostAtStart).groundBy 4

/-! ### Training (R219, R221) -/

/-- RING_TRAINING (R219 to R221): where no ring closes, or the ROLE straps clash, the die starts as for a bad image. -/
def execRingTraining (ring1 ring2 : Bool) (s : State) : Out :=
  if ¬ s.inst.fuseDone ∨ s.tth.trained ∨ s.inst.factory then .next s
  else if ¬ ring1 ∧ ¬ ring2 then .next (s.updInst fun n => { n with trainedAt := s.time }).factoryStart
  else
    let clash := s.roleClash ring1
    let s := s.takeTraining ring1 ring2
    .next (if clash then (s.raiseInst cTthRole 0).factoryStart else s)

/-- NO_VERDICT (R271): 1 s after the training. -/
def execNoVerdict (s : State) : Out :=
  if s.tth.trained ∧ s.inst.verdict = 0 ∧ ¬ s.inst.factory ∧ s.inst.trainedAt + 250000000 ≤ s.time then
    .next (s.raiseInst cNoVerdict 0).factoryStart
  else .next s

/-! ### Spine enumeration (R20, R35, R60, R380) -/

/-- Queues every parameter for every tile of a chain (R60). -/
def State.sendPars (s : State) (q : Nat) : State :=
  forL parIndexes (fun k s => s.queueWord
    { chain := q, pos := 31, all := true, word := .cfg k (uext 16 (s.tilePar.get k)), grp := 0 }) s

/-- SPINE_ENUMERATION. -/
def execSpineEnumeration (x : Enumerated) (s : State) : Out :=
  if ¬ s.inst.pll ∨ s.inst.enumDone then .next s
  else
    let len (q : Nat) : Nat := min 24 (nth 0 x.len q)
    let s := forIdx 8 (fun q s => s.updSpine fun p => { p with len := tset 0 p.len q (len q), hop := tset 0 p.hop q (nth 0 x.hop q) }) s
    let there (t : Nat) : Bool := t % 24 < len (t / 24) && !x.silent.any fun u => u.val == t
    let s := forIdx 192 (fun t s => s.updView t fun v => { v with present := there t, lost := !there t, gone := !there t }) s
    let s := forL ((List.range 192).filter there) (fun t s => s.updTile t fun y => { y with syncTime := s.time, timeHigh := s.time / 2 ^ 32 }) s
    let s := forL ((List.range 8).filter fun q => len q != 0) (fun q s => s.sendPars q) (s.updInst fun n => { n with enumDone := true })
    .next (forL s.doms_ refreshCeil s).lostAtStart

/-! ### The user calibration (R175, R260) -/

/-- Where the PID-STEP coefficients of a domain's law stand: page and byte (R149). -/
def State.lawAt (s : State) (d : Nat) : Option (Nat × Nat) :=
  match ((List.range 64).filterMap s.prog).find? fun p => p.act == 0 && p.dlist.contains d with
  | none => none
  | some p => ((List.range p.ndesc).findSome? fun i =>
      let k := s.desc p i
      if k.op = 7 then ((List.range k.m).find? fun r => k.rowDom p.dlist r == some d).map fun r => (k.wpage + r / 32, 8 * (r % 32))
      else none)

/-- Writes the gains and U_LIM of a domain's law (R149, R260). A law without PID-STEP ignores them. -/
def State.putLaw (s : State) (d kp ki kd ulim : Nat) : State :=
  match s.lawAt d with
  | none => s.raise cUcalLawIgnored (mkSrc 5 d) 0
  | some (pg, off) =>
    let b := writeLE 0 [] 0 8 (kp % 65536 + ki % 65536 * 2 ^ 16 + kd % 65536 * 2 ^ 32 + ulim % 65536 * 2 ^ 48)
    let old := s.pageBytes pg
    s.writeHostPage pg (old.take off ++ readBytes 0 b 0 8 ++ old.drop (off + 8))

/-- The calibration of a domain at commit (R175, R260). -/
def commitCal (d : Nat) (s : State) : State :=
  let raw := (List.range 16).map fun k => sext 16 (s.cn 2 (64 * d + 2 * k) 2)
  let uc := raw.map fun v => clampI v (-100) 100
  let s := s.updDom d fun x => { x with uc := uc, ucNext := uc, stsUcal := x.stsUcal || raw != uc }
  if bit (s.cb 2 (64 * d + 32)) 0 then
    let (a, b, c, u) := (s.cn 2 (64 * d + 34) 2, s.cn 2 (64 * d + 36) 2, s.cn 2 (64 * d + 38) 2, s.cn 2 (64 * d + 40) 2)
    (s.updDom d fun x => { x with lawKp := a, lawKi := b, lawKd := c, lawUlim := u % 4096 }).putLaw d a b c u
  else s

/-! ### Commit (R258) -/

/-- The parameters that the thresholds section gives the tiles (R252). -/
def State.imagePars (s : State) : TilePar :=
  parIndexes.foldl (fun p k => p.cfg k (s.cn 9 (if k < 14 then 2 * k else 0x20 + 2 * (k - 16)) 2)) {}

/-- Loads the table SRAM with the pages of a share; pages that no set names hold 0 (R251, R256). -/
def State.loadPages (s : State) (n3 n4 : Nat) : State :=
  forL (tableOf s.cfg n3 n4) (fun (pg, data) s => s.writePage pg data)
    (s.updEng fun e => { e with mem := [], chk := [], bad := [], hmod := [], copies := [] })

/-- Commits a share: the registers that the image fills take its values, and every function works on it from here
(R39, R81, R112, R129, R161, R174 to R176, R180, R258, R305). -/
def State.commit (s : State) (share : List Host.Cell) (n3 n4 : Nat) : State :=
  let s := { s with cfg := share, pend := [] }.updInst fun n => { n with committed := true, verdict := 1, fmtVer := 1 }
  let s := (s.updInst fun n => { n with fwVer := s.cn 0 0 2 }).loadPages n3 n4
  let s := s.takeBudgets
  let s := { s with tilePar := s.imagePars }
  let s := if s.inst.enumDone then forL ((List.range 8).filter fun q => tget 0 s.spine.len q != 0) (fun q s => s.sendPars q) s else s
  let s := s.updTk fun t => { t with sgLead := s.cn 9 0x5C 2, qmax := s.cn 9 0x60 4 }
  let s := forL domIdx (fun d s => s.updDom d fun x => { x with pgVmax := s.cn 9 0x48 2, pgAmax := s.cn 9 0x4A 2, pgJmax := s.cn 9 0x4C 2 }) s
  let s := s.updMgr fun m => { m with capW1 := s.cn 8 0 4, capW2 := s.cn 8 4 4, diePlim := s.cn 8 8 4 }
  let s := s.updHk fun h => { h with lp := s.cb 10 1 == 1, on := s.cb 10 0 != 0 }
  let s := forL s.doms_ commitCal s
  s.placeDomains.lostAtStart

/-! ### Distribution (R256, R257) -/

/-- A SECT flit's payload (R216). -/
def sectPay (sec off data : Nat) : Nat := sec * 2 ^ 101 + off % 2 ^ 21 * 2 ^ 80 + data % 2 ^ 64 * 2 ^ 16

/-- The 8-byte units of a byte string, the first byte lowest (R8). -/
def units8 (l : List (BitVec 8)) : List Nat :=
  (List.range (l.length / 8)).map fun i => ((l.drop (8 * i)).take 8).foldr (fun b a => b.toNat + 256 * a) 0

/-- The fields that get content: on the roster, not held, and not the manager's own. -/
def State.receivers (s : State) : List Nat :=
  s.mgr.roster.filter fun f => f != s.inst.fieldId && tget 0 s.mgr.held f == 0

/-- Sends the first `k` parts of a section as they pass: its shared part by broadcast, its blocks or page sets to their fields in
ascending FIELD_ID (R256). -/
def sendSection (e : Sect) (k : Nat) (s : State) : State :=
  if e.mgrOnly ∨ k = 0 then s
  else
    let sh := units8 (s.sharedPart e)
    let s := if s.receivers.isEmpty then s
      else forL sh.zipIdx (fun (w, i) s => s.broadcast 0x19 2 (sectPay e.code i w)) s
    forL ((List.range (k - 1)).filter s.receivers.contains) (fun f s =>
      forL (units8 (s.ownPart f e)).zipIdx (fun (w, i) s => s.unicast 0x19 2 f (sectPay e.code (sh.length + i) w)) s) s

/-- The verdict as the manager broadcasts it (R257). -/
def State.sendVerdict (s : State) (good : Bool) (rc : Nat) : State :=
  s.broadcast 0x19 2 (sectPay 0xF 0 ((if good then 1 else 2) * 2 ^ 56 + rc % 256 * 2 ^ 48))

/-- A verdict that holds one worker after a GOOD one: BAD, with the code of R221. -/
def State.sendHold (s : State) (f code : Nat) : State :=
  (s.updMgr fun m => { m with held := tset 0 m.held f code }).unicast 0x19 2 f (sectPay 0xF 0 (2 * 2 ^ 56 + code * 2 ^ 48))

/-- Whether the image describes an enabled domain of a field. -/
def State.imageUses (s : State) (f : Nat) : Bool :=
  match s.dir.find? fun e => e.code == 1 with
  | some e => domIdx.any fun d => bit (s.nn (e.off + 2048 * f + 64 * d + 2) 1) 0
  | none => false

/-- IMAGE_VERIFY (R254 to R258, R220, R221, R240): the sections the manager has read are distributed, the verdict is
broadcast, and the manager's own field follows it. The read stops, with NVM_CS_N high, at IMG_LEN or at the first failed check
(R248). -/
def execImageVerify (s : State) : Out :=
  if ¬ s.inst.manager ∨ ¬ s.inst.fuseDone ∨ ¬ s.tth.trained ∨ s.inst.verdict ≠ 0 ∨ s.inst.factory then .next s
  else
    let x := s.imageFail.getD { rc := 0, rule := 0, readTo := s.imgLen, sent := s.dir.map fun e => (e, allParts) }
    let s := (forL x.sent (fun e => sendSection e.1 e.2) s).updInst fun n => { n with
      imgRc := x.rc, imgRule := x.rule, readTo := x.readTo, verdictAt := s.time }
    if x.rc = 0 then
      let s := s.sendVerdict true 0
      let s := s.updMgr fun m => { m with lastSect := m.roster.foldl (fun l f => tset 0 l f s.time) m.lastSect }
      let part (c : Nat) : Nat := match s.dir.find? fun e => e.code == c with | some e => (s.partOf e s.inst.fieldId).2 | none => 0
      let s := s.commit (s.shareOf s.inst.fieldId true) (part 3) (part 4)
      let s := forL (s.receivers.filter fun f => tget 0 s.mgr.vers f < s.tetherMin) (fun f s => s.sendHold f 3) s
      .next (forL ((List.range 8).filter fun f => s.imageUses f && !s.mgr.roster.contains f) (fun f s =>
        s.raise cTthRoster (mkSrc 0xC f) 0) s)
    else
      let s := if s.inst.fuseBad then s else s.raiseInst cImgBad (imgBadData x.rc x.sec x.rule)
      let s := (s.sendVerdict false x.rc).updInst fun n => { n with verdict := 2, fmtVer := if 6 ≤ x.rc then 1 else 0 }
      .next (s.updMgr fun m => { m with acqAt := some s.time }).factoryStart

/-! ### A worker's side (R222, R256 to R258) -/

/-- SECT (R256, R257): content is stored as pending; codes 0xD and 0xE are discarded, and 0xF is control. A worker held under R221
receives nothing. -/
def execSect (f : RxFlit) (s : State) : Out :=
  let sec := fbits f.flit 104 101
  let off := fbits f.flit 100 80
  if 12 < sec then .next s
  else s.recv 0x19 f.ring f.flit (.sect f) fun s =>
    if s.inst.manager ∨ s.inst.verdict ≠ 0 ∨ s.inst.factory ∨ tget 0 s.mgr.held s.inst.fieldId ≠ 0 then s
    else
      let n := 8 * off + 8
      { s with pend := writeLE 0 s.pend (secKey sec (8 * off)) 8 (fbits f.flit 79 16) }.updInst fun x => { x with
        sectAt := s.time, hashSent := false
        sectIn := if x.sectIn.any (·.1 == sec) then x.sectIn.map fun (e : Nat × Nat) => if e.1 = sec then (sec, max e.2 n) else e
          else x.sectIn ++ [(sec, n)] }

/-- The digest of what a worker stored (R222). -/
def State.storedHash (s : State) : Nat := sha256 (s.inst.sectIn.flatMap fun (c, n) => readBytes 0 s.pend (secKey c 0) n)

/-- The four HASH flits (R216, R222). -/
def State.sendHash (s : State) : State :=
  let h := s.storedHash
  forIdx 4 (fun p s => s.toManager 0x0C 1 (p * 2 ^ 103 + h / 2 ^ (192 - 64 * p) % 2 ^ 64 * 2 ^ 39))
    (s.updInst fun n => { n with hashSent := true })

/-- How many bytes of a section a worker stored. -/
def State.storedLen (s : State) (sec : Nat) : Nat := ((s.inst.sectIn.find? fun e => e.1 == sec).map (·.2)).getD 0

/-- The bytes of a worker's copy of each section of fixed size (R251). -/
def copySize : List (Nat × Nat) :=
  [(1, 2048), (2, 2048), (5, 524544), (6, 1536), (7, 8672), (8, 576), (9, 2048), (10, 256), (12, 256)]

/-- Whether every section that a worker keeps has come, as far as their sizes tell it (R251, R256). -/
def State.storedWhole (s : State) : Bool := s.storedLen 0 != 0 && copySize.all fun (c, n) => s.storedLen c == n

/-- A worker reports its digest within 1 frame of the last byte: it takes the last one as stored when every section has come and no
further byte has followed for 192 ticks (R222; log entry 47). -/
def State.hashTick (s : State) : State :=
  if s.inst.manager ∨ s.inst.verdict ≠ 0 ∨ s.inst.factory ∨ s.inst.hashSent ∨ ¬ s.inst.sectAt + 192 ≤ s.time ∨ ¬ s.storedWhole then s
  else s.sendHash

/-- VERDICT (R257, R258): GOOD reports the digest where that is still to do and commits; BAD starts the factory safe table, and a BAD verdict that
follows a GOOD one holds the worker until T_on. -/
def execVerdict (f : RxFlit) (s : State) : Out :=
  if fbits f.flit 104 80 ≠ 0xF * 2 ^ 21 then .next s
  else s.recv 0x19 f.ring f.flit (.verdict f) fun s =>
    let good := fbits f.flit 79 72 = 1
    let rc := fbits f.flit 71 64
    let own := s.inst.fieldId
    if s.inst.manager ∨ s.inst.factory then s
    else if s.inst.verdict = 0 then
      let s := s.updInst fun n => { n with verdictAt := s.time }
      if ¬ good then (s.updInst fun n => { n with verdict := 2, imgRc := rc }).factoryStart
      else if tget 0 s.mgr.held own ≠ 0 then s.updInst fun n => { n with verdict := 1 }
      else (if s.inst.hashSent then s else s.sendHash).commit s.pend (s.storedLen 3) (s.storedLen 4)
    else if s.inst.verdict = 1 ∧ ¬ good ∧ tget 0 s.mgr.held own = 0 then
      (s.updMgr fun m => { m with held := tset 0 m.held own (rc % 16) }).raiseInst (if rc = 3 then cTthVersion else cTthHash) 0
    else s

/-! ### Agreement and RUN (R222, R223, R259) -/

/-- The digest expected of a worker (R222). -/
def State.expectHash (s : State) (f : Nat) : Nat := sha256 ((s.dir.filter fun e => !e.mgrOnly).flatMap (s.stored f))

/-- Whether image content for a worker has still to leave (R256). -/
def State.sectLeft (s : State) (w : Nat) : Bool :=
  (s.tth.wait.map (·.word) ++ s.tth.link1.own ++ s.tth.link2.own).any fun f =>
    fKind f == 0x19 && fbits f 104 101 < 13 && (fBc f || fDst f == w)

/-- Compares a complete digest (R223). -/
def State.judgeHash (s : State) (f : Nat) : State :=
  let parts := (List.range 4).map fun p => tget none s.mgr.hash (4 * f + p)
  if parts.all Option.isSome then
    let h := parts.foldl (fun a p => 2 ^ 64 * a + (p.getD 0).toNat) 0
    if h = s.expectHash f then s.updMgr fun m => { m with agreed := tset false m.agreed f true } else s.sendHold f 4
  else s

/-- HASH (R222, R223); after a BAD verdict nothing is compared (R275), nor before the worker's last content has left. -/
def execHash (f : RxFlit) (s : State) : Out :=
  s.recv 0x0C f.ring f.flit (.hash f) fun s =>
    let w := fSrc f.flit
    if s.inst.manager ∧ s.inst.verdict ≠ 2 ∧ ¬ tget false s.mgr.agreed w ∧ tget 0 s.mgr.held w = 0 then
      (s.updMgr fun m => { m with hash := tset none m.hash (4 * w + fbits f.flit 104 103) (some (BitVec.ofNat 64 (fbits f.flit 102 39))) }) |> fun s =>
        if s.sectLeft w then s else s.judgeHash w
    else s

/-- HASH_TIMEOUT (R223): 64 frames after the worker's last SECT flit. -/
def execHashTimeout (fld : Fin 8) (s : State) : Out :=
  let w := fld.val
  if s.inst.manager ∧ s.inst.verdict = 1 ∧ s.receivers.contains w ∧ ¬ tget false s.mgr.agreed w ∧
      ¬ s.sectLeft w ∧ tget 0 s.mgr.lastSect w + 16384 ≤ s.time then .next (s.sendHold w 4)
  else .next s

/-- RUN (R257, R259): what it schedules lies at T_on and later. One that arrives after T_on is a late die decision (R15). -/
def execRun (f : RxFlit) (s : State) : Out :=
  if fbits f.flit 104 80 ≠ 0xF * 2 ^ 21 + 1 then .next s
  else s.recv 0x19 f.ring f.flit (.run f) fun s =>
    if s.inst.manager ∨ s.inst.tOn.isSome ∨ s.inst.verdict ≠ 1 then s
    else
      let on := extendNear s.time (fbits f.flit 79 48)
      let rdy := on + (fbits f.flit 47 16 + 2 ^ 32 - on % 2 ^ 32) % 2 ^ 32
      if s.time < on then s.takeRun on rdy else s.takeDec on (.run on rdy)

/-- The largest ON_ORDER of a domain with START_ON on the die (R240). -/
def State.oMax (s : State) : Nat :=
  match s.dir.find? fun e => e.code == 1 with
  | none => 0
  | some e => ((List.range 256).filterMap fun n =>
      let a := e.off + 64 * n
      let fl := s.nn (a + 2) 1
      if bit fl 0 && bit fl 2 then some (s.nn (a + 3) 1) else none).foldl max 0

/-- The manager sends RUN once every worker agreed or is held, 32 frames after time acquisition began (R240, R259). -/
def State.tryRun (s : State) : State :=
  if s.inst.verdict = 1 ∧ ¬ s.mgr.runs ∧ s.mgr.acqAt.any (fun t => t + 8192 ≤ s.time) ∧ s.receivers.all (fun f => tget false s.mgr.agreed f) then
    let on := decisionTick s.time
    let rdy := on + (s.oMax + 1) * s.onWin
    let s := s.broadcast 0x19 2 (sectPay 0xF 1 (t32 on 32 + rdy % 2 ^ 32))
    (s.updMgr fun m => { m with runs := true, tOn := on, tReady := rdy }).takeRun on rdy
  else s

/-! ### Start-up at a frame start -/

/-- Whether a factory-safe instance may bring domains up: it has the die's time, or T_on has come for a held worker
(R271). -/
def State.safeGo (s : State) : Bool :=
  s.inst.factory && !s.inst.ready && s.inst.tReady.isNone &&
    (if s.inst.manager then s.mgr.acqAt.isSome else s.tth.timeValid || s.inst.tOn.any (· ≤ s.time))

/-- The next bring-up of the factory safe table, one at a time in ascending local number; READY follows the last (R271). -/
def State.safeNext (s : State) : State :=
  if ¬ s.safeGo then s
  else
    let ds := s.doms_.filter fun d => s.startOn d && !s.inst.fuseBad
    if ds.any fun d => (s.dom d).inBring then s
    else match ds.find? fun d => ((s.dom d).bring.status == .none || (s.dom d).bring.status == .refusedState) && (s.dom d).bring.step == .idle with
      | some d => s.updBring d fun b => { b with status := .waiting, step := .waiting, startAt := some (nextFrame s.time) }
      | none => s.updInst fun n => { n with tReady := some s.time }

/-- Start-up at a frame start: time acquisition, RUN, held workers at T_on, and the factory safe bring-ups (R237, R240,
R259, R271). -/
def State.startFrame (s : State) : State :=
  let s := if s.inst.manager ∧ s.inst.verdict = 1 ∧ s.mgr.acqAt.isNone ∧ (s.xtRole ≠ 2 ∨ s.inst.verdictAt + 25000000 ≤ s.time) then
      s.updMgr fun m => { m with acqAt := some s.time } else s
  let s := if s.inst.manager then s.tryRun else s
  let s := if ¬ s.inst.manager ∧ s.inst.tOn.any (· ≤ s.time) ∧ tget 0 s.mgr.held s.inst.fieldId ≠ 0 then s.factoryStart else s
  s.safeNext

/-! ### READY (R172, R176, R181, R270) -/

/-- READY. -/
def execReady (s : State) : Out :=
  if s.inst.tReady.any (· ≤ s.time) ∧ ¬ s.inst.ready ∧ ¬ s.obs.frozen then
    let m := s.polMode
    let s := s.updInst fun n => { n with ready := true, mode := m, modePrev := .balanced, modeSince := s.time }
    let s := forL s.doms_ (fun d s => s.updDom d fun x => { x with pCap := s.pTop d, pTh := s.pTop d }) s
    let fill (c : Nat) : Nat := if c = capNone then 0 else c
    .next ((s.updMgr fun n => { n with
      modeRec := m, powers := [], fill1 := fill n.capW1, fill2 := fill n.capW2 }).updLim fun l => { l with framesEver := 0 })
  else .next s

/-! ### Page reloads (R166) -/

/-- The bytes of a page of a field as the image holds them; a program page that no set names is zero (R251). -/
def State.imagePage (s : State) (f pg : Nat) : List (BitVec 8) :=
  if 0x1800 ≤ pg then
    match s.dir.find? fun e => e.code == 5 with
    | some e => s.nbytes (e.off + 256 * (pg - 0x1800)) 256
    | none => List.replicate 256 0
  else
    let at_ (c : Nat) : Option Nat := (s.dir.find? fun e => e.code == c).bind fun e =>
      ((s.pageAddrs e f).findIdx? (· == pg)).map fun i => (s.partOf e f).1 + 264 * i + 8
    match at_ 3 <|> at_ 4 with
    | some a => s.nbytes a 256
    | none => List.replicate 256 0

/-- PAGE_REQ (R166): the manager answers in order of arrival, 8 bytes to a flit. -/
def execPageReq (f : RxFlit) (s : State) : Out :=
  s.recv 0x11 f.ring f.flit (.pageReq f) fun s =>
    if s.inst.manager ∧ s.inst.verdict = 1 then
      let pg := fbits f.flit 104 92
      forL (units8 (s.imagePage (fSrc f.flit) pg)).zipIdx (fun (w, i) s => s.unicast 0x1A 2 (fSrc f.flit) (pg * 2 ^ 92 + i * 2 ^ 87 + w * 2 ^ 23)) s
    else s

/-- A chunk of a reloaded page enters the reload buffer; the chunks of another page start it again. -/
def State.takeChunk (s : State) (pg i data : Nat) : State :=
  let s := if s.eng.loadPage = some pg then s else s.updEng fun e => { e with loadPage := some pg, reload := [], reloadGot := [] }
  s.updEng fun e => { e with
    reload := writeLE 0 e.reload (8 * i) 8 data, reloadGot := if e.reloadGot.contains i then e.reloadGot else e.reloadGot ++ [i] }

/-- PAGE_DATA (R166): with its last chunk the page is written with its checksum and read back; `ok` tells whether the
read-back passes. -/
def execPageData (f : RxFlit) (ok : Bool) (s : State) : Out :=
  s.recv 0x1A f.ring f.flit (.pageData f ok) fun s =>
    let pg := fbits f.flit 104 92
    if (tget none s.eng.bad pg).all (fun b => !b.asked) then s
    else
      let s := s.takeChunk pg (fbits f.flit 91 87) (fbits f.flit 86 23)
      if s.eng.reloadGot.length < 32 then s
      else
        let s := s.writePage pg (readBytes 0 s.eng.reload 0 256)
        let s := s.updEng fun e => { e with loadPage := none, reload := [], reloadGot := [] }
        if ok then
          (s.updBad pg fun b => { b with asked := false, failed := false, goodAt := some (nextFrame s.time) }).endCause cEngPageReloadFail s.srcInst
        else (s.updBad pg fun b => { b with failed := true }).raiseInst cEngPageReloadFail pg

end Sys2Proof.Machine
end

