-- ==== Sys2Proof/Machine/FaultCmd.lean ====
section
/-!
DEFINITION. Acknowledging, clearing and escalating occurrences (R281 to R283, R287 to R289, R296), with the platform
faults that no family of their own owns: VIN_RANGE and the PLL's holdover (R31, R291 to R293).
-/

namespace Sys2Proof.Machine

/-! ### Which occurrences a word names, and whether their cause has ended (R281 to R283) -/

/-- Whether an occurrence matches a word of the `FLT_ACK` layout (R281): its NUMBER is local. -/
def ackMatch (w : Nat) (o : Occ) : Bool :=
  (bits w 7 0 == 255 || bits w 7 0 == o.cls) &&
    (bit w 12 || (bits w 11 8 == srcKind o.src && bits w 27 16 == srcNum o.src && !srcDw o.src))

/-- The tiles that the CLEAR of an occurrence concerns: those of its domain in CROWBAR or LATCHED (R282, R290). -/
def State.clearable (s : State) (o : Occ) : List Nat :=
  match s.srcDom o.src with
  | some d => (s.dtiles d).filter fun t => (s.view t).state == 5 || (s.view t).state == 6
  | none => []

/-- Classes whose cause the tiles test (R50, R282). -/
def tileTested (cls : Nat) : Bool := cls == cOutShort || cls == cOvCrowbar

/-- The classes whose end is recorded by the happening that ends it. -/
def flagEnded : List Nat :=
  [cVsnsOpen, cSenseMittenLost, cSenseDomainLost, cDomTempLost, cCapFloor, cDomIcap, cIinOver, cThermHigh, cThermLow, cPwrFail,
   cTthTimeInvalid, cTthLinkDown, cTthMgrLost, cTthWorkerLost, cXtTime, cXtLinkDown, cEngPageReloadFail, cVinRange, cHkRange,
   cHkThermRev, cPmbNack, cPmbConvFault]

/-- The classes whose cause lasts until RST_N: what they report stays as it is (R17, R220, R221, R254, R271, R320). -/
def lastsToReset : List Nat := [cTktVersion, cTthRoster, cTthHash, cTthFieldId, cTthVersion, cImgBad, cNoVerdict, cPmbAddrClash, cXtRole]

/-- Whether the cause of an occurrence has ended (R282, R283): by its own flag, by the state, or because a class reports a
happening that is over as soon as it is recorded. `cool` tells that COOL_OK has been high for 1 s everywhere (R199). -/
def State.causeOver (s : State) (cool : Bool) (o : Occ) : Bool :=
  let n := srcNum o.src
  if o.sev = 3 then false
  else if flagEnded.contains o.cls then o.ended
  else if lastsToReset.contains o.cls then false
  else match o.cls with
    | 0x01 | 0x02 => !((s.view n).state == 5 || (s.view n).state == 6)
    | 0x09 => decide (1530 ≤ (s.tile n).vin)
    | 0x0A => decide ((s.tile n).vin ≤ 2150)
    | 0x0B => decide (-100 ≤ (s.tile n).vin)
    | 0x25 | 0x26 => (s.dom n).satCnt == 0
    | 0x45 => s.eng.bad.all fun e => e.2.all fun b => b.array != n
    | 0x64 => !((s.dmittens n).any fun m => (List.range 4).any fun k => (s.sensor (4 * m + k)).hot) &&
        !((List.range s.adcEnts).any fun i => s.adcKind i == 3 && s.adcDom i == some n && (s.adc i).valid &&
          (s.adc i).roundVal.any fun t => s.tCrit (s.adcGroup i) ≤ t)
    | 0x66 => cool
    | 0x78 => !s.lineMode
    | 0xB1 => !s.inst.holdover
    | 0xB3 => !bit s.inst.gndMask (o.data % 16)
    | _ => true

/-! ### FLT_ACK and CLEAR_FAULT -/

/-- FLT_ACK (R281). -/
def execFltAck (w : Word) (priv : Bool) (s : State) : Out :=
  if ¬ s.hostUp then .next s
  else if ¬ priv then .next (s.privFail 0x1004 true)
  else .next ((s.updFlt fun f => { f with occs := f.occs.map fun o => if ackMatch w.toNat o then { o with ack := true } else o }).okay)

/-- A clear that names SENSE_TRUST lets the points it matches regain trust again (R78). -/
def State.unlockPoints (s : State) (w : Nat) : State :=
  if bits w 7 0 = cSenseTrust ∨ bits w 7 0 = 255 then
    forL ((s.points.map (·.1)).filter fun i => bit w 12 || (bits w 11 8 == 3 && bits w 27 16 == i))
      (fun i s => s.updPoint i fun p => { p with locked := false }) s
  else s

/-- What the supervisor decides on a clear in the frame of acceptance (R199, R282): which occurrences close at the next
frame, and which wait for the tiles' answers to CLEAR. -/
def State.decideClear (s : State) : State :=
  let w := s.cmdArg
  let s := s.unlockPoints w
  let cool := s.host.cmd.any (·.cool) && decide (250000000 ≤ s.lim.coolHigh)
  let hit (o : Occ) : Bool := ackMatch w o && (tileTested o.cls || s.causeOver cool o)
  let tiles := ((s.flt.occs.filter fun o => ackMatch w o && tileTested o.cls).flatMap s.clearable).dedup
  let s := forL tiles (fun t s => (s.updView t fun v => { v with clearRef := false }).sendNext t .clear) s
  s.updFlt fun f => { f with
    occs := f.occs.map fun o => { o with closing := hit o }
    cleared := false, clearAt := some (nextFrame s.time + if tiles.isEmpty then 0 else 768) }

/-- CLEAR_FAULT (R199, R282, R399). A clear that names COOL_LOSS needs COOL_OK high for 1 s on every instance:
the tick count since the instance's own last loss, and `coolHigh` for the pins as such. -/
def execClearFault (coolHigh : Bool) (priv : Bool) (s : State) : Out := s.runCmd 0xB true false priv coolHigh State.decideClear

/-- Closes the occurrences that a clear decided on: at the first sample of the next frame those whose cause had ended, and
with the tiles' answers the others (R282). A raise in the frame of the clear leaves a new occurrence with a fresh timer
(R300). -/
def State.closeCleared (s : State) (last : Bool) : State :=
  let closes (o : Occ) : Bool := o.closing && (if tileTested o.cls then last && !((s.view (srcNum o.src)).state == 5 || (s.view (srcNum o.src)).state == 6) else true)
  let again (o : Occ) : Bool := !tileTested o.cls && o.raisedAt + 256 ≥ s.time && o.raisedAt < s.time
  let gone := s.flt.occs.filter closes
  let shut := gone.filter fun o => !again o || o.start + 1 < frameOf s.time
  let fresh (o : Occ) : Occ :=
    { o with start := frameOf o.raisedAt, timer := s.escTimer o.cls, rungIdx := 0, rung := 0, off := [], ack := false, closing := false, ended := false }
  s.updFlt fun f => { f with
    occs := f.occs.filterMap fun o => if closes o then (if again o then some (fresh o) else none) else some o
    cleared := f.cleared || !shut.isEmpty
    gndEnd := if shut.any (fun o => ((faultEsc o.cls).2.take o.rungIdx).contains 3) then some (frameOf s.time) else f.gndEnd }

/-- The running clear at a frame start (R282). -/
def State.clearFrame (s : State) : State :=
  match s.flt.clearAt with
  | none => s
  | some t =>
    let last := decide (t ≤ s.time)
    let s := s.closeCleared last
    if last then
      let done := s.flt.cleared
      ((s.updFlt fun f => { f with clearAt := none, occs := f.occs.map fun o => { o with closing := false } }).cmdDone 0xB (if done then 1 else 2))
    else s

/-! ### Escalation (R287 to R289) -/

/-- Whether an occurrence's rung acts on a domain (R289). -/
def State.rungHits (s : State) (cls src d : Nat) : Bool := !dieScope cls && (instScope cls || s.srcDom src == some d)

/-- Whether a rung that an occurrence has taken is among those in force. -/
def Occ.took (o : Occ) (rung : Nat) : Bool := ((faultEsc o.cls).2.take o.rungIdx).contains rung

/-- ESC_RUNG (R287): the timer of an open, unacknowledged occurrence has run out at a frame start; the rung acts from the
next frame. -/
def execEscRung (i : Fin 4096) (s : State) : Out :=
  match s.flt.occs[i.val]? with
  | none => .next s
  | some o =>
    let l := (faultEsc o.cls).2
    if s.time % 256 = 0 ∧ s.inst.unitAt = s.time ∧ ¬ o.ack ∧ o.rungIdx < l.length ∧ o.start + o.timer ≤ frameOf s.time ∧ ¬ s.obs.frozen then
      let r := nth 0 l o.rungIdx
      let s := s.updFlt fun f => { f with
        occs := setNth f.occs i { o with rungIdx := o.rungIdx + 1, rung := r, start := frameOf s.time }
        rungs := f.rungs ++ [(r, o.cls, o.src)] }
      let s := s.raiseSev cEscRung o.sev o.src (o.cls + 256 * r)
      .next (if r = 3 then s.groundBy 1 else s)
    else .next s

/-- The derate rungs in force (R28, R288): ceilings follow from the next frame. -/
def derateDom (d : Nat) (s : State) : State :=
  let on := s.flt.occs.any fun o => o.took 1 && s.rungHits o.cls o.src d
  if (s.dom d).derate = on then s else refreshCeil d (s.updDom d fun x => { x with derate := on })

/-- Turns a domain off by a rung (R269, R288). -/
def State.rungOffDom (s : State) (d : Nat) : State :=
  let x := s.dom d
  if x.loop = .idle ∧ ¬ x.inBring then s
  else if x.bring.step.falling then s
  else (s.abortBring d).startOff d false

/-- The rungs decided in the frame that has ended, on one domain: the strongest acts, and a domain-off rung below a stronger
one is held back (R288, R289). -/
def rungDom (rs : List (Nat × Nat × Nat)) (d : Nat) (s : State) : State :=
  let mine := (rs.filter fun r => r.1 == 4 || s.rungHits r.2.1 r.2.2 d).map (·.1)
  if ¬ mine.contains 2 then s
  else if mine.contains 4 ∨ mine.contains 3 then s.updDom d fun x => { x with offHeld := x.loop != .idle }
  else (s.markOff d fun o => rs.contains (2, o.cls, o.src) && s.rungHits o.cls o.src d).rungOffDom d

/-- A domain-off rung that was held back acts once the stronger one has ended, while its occurrence is open (R289). -/
def heldOff (d : Nat) (s : State) : State :=
  if ¬ (s.dom d).offHeld then s
  else if ¬ s.flt.occs.any (fun o => o.took 2 && s.rungHits o.cls o.src d) then s.updDom d fun x => { x with offHeld := false }
  else if bit s.inst.gndMask 1 ∨ bit s.inst.gndNext 1 ∨ s.lim.coolStop then s
  else ((s.updDom d fun x => { x with offHeld := false }).markOff d fun o => o.took 2 && s.rungHits o.cls o.src d).rungOffDom d

/-- GROUNDED_EXIT (R296): at the frame after the one in which the last occurrence with a GROUNDED rung closed. -/
def execGroundedExit (s : State) : Out :=
  if bit s.inst.gndMask 1 ∧ s.time % 256 = 0 ∧ s.inst.unitAt = s.time ∧ ¬ s.obs.frozen ∧ ¬ (s.flt.occs.any fun o => o.took 3) ∧
      (s.flt.gndEnd.all fun f => f < frameOf s.time) then
    let t := s.leaveGround 2
    .next (if t.grounded then t else t.raiseInst cGroundedExit 0)
  else .next s

/-! ### Supply and clock (R31, R291) -/

/-- VIN_RANGE (R291, R424). -/
def execVinRange (s : State) : Out :=
  if 16 ≤ s.lim.vinOut ∧ ¬ s.lim.vinEp then
    let v := s.lim.vinF
    .next ((s.updLim fun l => { l with vinEp := true }).raiseInst cVinRange (min 65535 v + if 2050 < v then 65536 else 0))
  else .next s

/-- The end of a VIN_RANGE episode (R291). -/
def State.vinFrame (s : State) : State :=
  if s.lim.vinEp ∧ 16 ≤ s.lim.vinIn then (s.updLim fun l => { l with vinEp := false }).endCause cVinRange s.srcInst else s

/-- PLL_HOLDOVER (R31). -/
def execPllHoldover (s : State) : Out :=
  if s.inst.pll ∧ ¬ s.inst.holdover then .next ((s.updInst fun n => { n with holdover := true }).raiseInst cPllHoldover 0) else .next s

/-- PLL_RELOCK (R31). -/
def execPllRelock (s : State) : Out :=
  if s.inst.holdover then .next ((s.updInst fun n => { n with holdover := false }).raiseInst cPllRelock 0) else .next s

end Sys2Proof.Machine
end

