-- ==== Sys2Proof/Machine/Hk.lean ====
section
/-!
DEFINITION. Housekeeping and telemetry (R303 to R314, R324): the ADC's scans and round values, its range and reversal
tests, the records of a telemetry window, and the reads that a freeze or a lockstep mismatch leaves out.
-/

namespace Sys2Proof.Machine

/-! ### The ADC (R303 to R310) -/

/-- Whether an entry is differential (R307). -/
def State.adcDiff (s : State) (i : Nat) : Bool := bit (s.adcN (0x40 + 12 * i) 1) 1
/-- The gain of an entry (R303). -/
def State.adcGain (s : State) (i : Nat) : Nat := 2 ^ (s.adcN (0x40 + 12 * i) 1 / 8 % 4)
/-- A signed number of an entry. -/
def State.adcInt (s : State) (off : Nat) : Int := sext 16 (s.adcN off 2)

/-- The code x of a voltage at an entry's input, in µV (R303). -/
def State.adcCode (s : State) (i : Nat) (uv : Int) : Int :=
  if s.adcDiff i then clampI ((2 * s.adcGain i * uv).fdiv 1000) (-2048) 2047
  else clampI ((4 * s.adcGain i * uv).fdiv 1000) 0 4095

/-- Whether a code is saturated (R303). -/
def State.adcSat (s : State) (i : Nat) (x : Int) : Bool := if s.adcDiff i then x == -2048 || x == 2047 else x == 0 || x == 4095

/-- The raw value of HK_LAST, by ALIGN (R303, R307). -/
def State.adcRaw (s : State) (i : Nat) (x : Int) : Nat := if bit (s.adcN (0x40 + 12 * i) 1) 2 then uext 12 x * 16 else uext 16 x

/-- The value v of a sample (R307). -/
def State.adcVal (s : State) (i : Nat) (x : Int) : Int :=
  if s.adcKind i = 0 then x
  else clampI (roundUpTie ((x - s.adcInt (0x48 + 12 * i)) * s.adcInt (0x46 + 12 * i)) 256) (-32768) 32767

/-- The slot grid of a mode and the slots of an entry in it (R304). -/
def adcGridOf (lp : Bool) : Nat := if lp then 250 else 25
/-- The conversion time of an entry in a mode, ticks (R304). -/
def State.adcTicks (s : State) (lp : Bool) (i : Nat) : Nat :=
  2 * (4 * (s.adcN (0x43 + 12 * i) 1 % 64 + 1) + if lp then 64 else 8)
/-- The grid slots of an entry in a mode (R304). -/
def State.adcSlotsOf (s : State) (lp : Bool) (i : Nat) : Nat := (s.adcTicks lp i + adcGridOf lp - 1) / adcGridOf lp
/-- The start of entry `i` after the scan's start (R305). -/
def State.adcStart (s : State) (lp : Bool) (i : Nat) : Nat := adcGridOf lp * ((List.range i).map (s.adcSlotsOf lp)).sum
/-- The period of the scans, ticks (R305). -/
def State.adcPer (s : State) : Nat := 256 * 2 ^ s.adcN 2 1
/-- Whether the field's sequence fits in a mode (R305). -/
def State.adcFitsIn (s : State) (lp : Bool) : Bool := s.adcStart lp s.adcEnts ≤ s.adcPer

/-- One sample of one entry (R309, R310, R313). An entry is valid from its first reading until one of its invalid
conditions holds. -/
def adcSample (uv : List Int) (i : Nat) (s : State) : State :=
  let x := s.adcCode i (nth 0 uv i)
  let v := s.adcVal i x
  let sat := s.adcSat i x
  let raw := s.adcRaw i x
  s.updAdc i fun e => { e with
    last := raw, mn := min e.mn v, mx := max e.mx v, valid := e.valid || (e.roundVal.isNone && !e.rev)
    accR := e.accR + v, nR := e.nR + 1, satR := e.satR || sat, satW := e.satW || sat
    accW := e.accW + v, nW := e.nW + 1, revCnt := if x ≤ -16 then min 4 (e.revCnt + 1) else 0 }

/-- ADC_SCAN (R305): the whole sequence, from the voltages at its inputs in µV (0 where none is given). A mode written
before this tick applies (R324). After a lockstep mismatch the ADC has stopped. -/
def execAdcScan (uv : List Int) (s : State) : Out :=
  if ¬ s.inst.committed ∨ s.adcEnts = 0 ∨ s.inst.lockstep ∨ s.inst.inReset ∨ s.time % s.adcPer ≠ 0 ∨ s.hk.scanAt = s.time + 1 then .next s
  else
    let s := s.updHk fun h => match h.lpNext with
      | some (m, t) => if t < s.time then { h with lp := m, lpNext := none } else h
      | none => h
    .next (forIdx s.adcEnts (adcSample uv) (s.updHk fun h => { h with scanAt := s.time + 1, on := true }))

/-- Whether entry `i` of the scan under way, or of the last one, is ready (R304, R305). -/
def State.adcReady (s : State) (i : Nat) : Bool :=
  s.hk.scanAt ≠ 0 && s.hk.scanAt - 1 + s.adcStart s.hk.lp i + s.adcTicks s.hk.lp i ≤ s.time

/-- HK_THERM_REV (R310): at the fourth result reading x ≤ −16. -/
def execHkThermRev (i : Fin 16) (s : State) : Out :=
  let e := s.adc i
  if i.val < s.adcEnts ∧ s.adcKind i = 3 ∧ 4 ≤ e.revCnt ∧ ¬ e.rev ∧ s.adcReady i then
    .next ((s.updAdc i fun e => { e with rev := true, valid := false }).raise cHkThermRev (mkSrc 9 i) 0)
  else .next s

/-- The round value of an entry: the mean over the scans that started in the round (R309). -/
def AdcEnt.closeRound (e : AdcEnt) : AdcEnt :=
  if e.nR = 0 then { e with prevVal := e.roundVal }
  else { e with prevVal := e.roundVal, roundVal := some (roundUpTie e.accR e.nR), accR := 0, nR := 0 }

/-- The tests of a round on an entry's round value (R309, R310). -/
def adcJudge (i : Nat) (s : State) : State :=
  let e := s.adc i
  match e.roundVal with
  | none => s
  | some v =>
    if s.adcKind i = 3 then
      let bad := decide (v < -2560) || decide (9600 < v) || e.satR
      if e.rev then s
      else if bad then s.updAdc i fun e => { e with valid := false, okRounds := 0, thOut := true }
      else if e.valid then s
      else if 16 ≤ e.okRounds + 1 then
        let s := s.updAdc i fun e => { e with valid := true, okRounds := 0, thOut := false, range := false }
        if e.range then s.endCause cHkRange (mkSrc 9 i) else s
      else s.updAdc i fun e => { e with okRounds := e.okRounds + 1 }
    else
      let out := decide (v < s.adcInt (0x4A + 12 * i)) || decide (s.adcInt (0x04 + 2 * i) < v)
      if out then s.updAdc i fun e => { e with outCnt := min 4 (e.outCnt + 1), inCnt := 0 }
      else
        let s := s.updAdc i fun e => { e with outCnt := 0, inCnt := min 16 (e.inCnt + 1) }
        if (s.adc i).range ∧ 16 ≤ (s.adc i).inCnt then
          (s.updAdc i fun e => { e with range := false }).endCause cHkRange (mkSrc 9 i)
        else s

/-- HK_RANGE (R309, R310): after 4 rounds outside the limits, or a thermistor's round out of range. -/
def execHkRange (i : Fin 16) (s : State) : Out :=
  let e := s.adc i
  let th := s.adcKind i == 3
  if i.val < s.adcEnts ∧ ¬ e.range ∧ ((th ∧ e.thOut) ∨ (¬ th ∧ 4 ≤ e.outCnt)) then
    .next ((s.updAdc i fun e => { e with range := true }).raise cHkRange (mkSrc 9 i)
      (uext 16 (e.roundVal.getD 0) + if th then 0x20000 else 0x10000))
  else .next s

/-- The end of a housekeeping round for the ADC and the clusters (R301, R309, R314). -/
def closeCluster (c : Nat) (s : State) : State :=
  s.updCluster c fun y => { y with clMin := y.roundMin, clStr := y.strRound, roundMin := y.margin, strRound := 0 }

/-- The round's data closes at its end tick (R301, R314); the supervisor's tests follow unless it is halted. -/
def State.closeRound (s : State) (tests : Bool) : State :=
  let s := s.updHk fun h => { h with roundAt := s.time + 1 }
  let s := forIdx s.adcEnts (fun i s => s.updAdc i AdcEnt.closeRound) s
  let s := if tests then forIdx s.adcEnts adcJudge s else s
  let s := forIdx s.adcEnts (fun i s => s.updAdc i fun e => { e with satR := false }) s
  forIdx 32 closeCluster s

/-! ### Telemetry (R311 to R313) -/

/-- Sets the sums of a domain's window aside (R311). -/
def asideDom (d : Nat) (s : State) : State :=
  s.updDom d fun x =>
    let t := x.tlm
    { x with tlm := { t with
      shut := { accP := t.accP, nP := t.nP, accI := t.accI, nI := t.nI, accV := t.accV, nV := t.nV, winT := t.winT, winClm := t.winClm } } }

/-- Starts the sums of a domain's window again (R311). -/
def restartDom (d : Nat) (s : State) : State :=
  s.updDom d fun x => { x with tlm := { x.tlm with
    accP := 0, nP := 0, accI := 0, nI := 0, accV := 0, nV := 0, winT := none, winClm := 15 } }

/-- Sets the sums of the window that ends now aside (R311). -/
def State.asideWindow (s : State) : State :=
  let s := forL s.doms_ asideDom s
  let s := forIdx 16 (fun i s => s.updAdc i fun e => { e with shW := e.accW, shN := e.nW, shSat := e.satW }) s
  s.updHk fun h => { h with shVin := h.accVin, shIin := h.accIin, shP := h.accP, shN := h.nW }

/-- Starts a window (R311). -/
def State.restartWindow (s : State) : State :=
  let s := forL s.doms_ restartDom s
  let s := forIdx 16 (fun i s => s.updAdc i fun e => { e with accW := 0, nW := 0, satW := false }) s
  s.updHk fun h => { h with accVin := 0, accIin := 0, accP := 0, nW := 0 }

/-- The published record of a domain (R312). -/
def publishDom (d : Nat) (s : State) : State :=
  s.updDom d fun x =>
    let w := x.tlm.shut
    { x with tlm := { x.tlm with
      pAvg := roundNat w.accP w.nP, iAvg := roundNat w.accI w.nI, vminAvg := roundNat w.accV w.nV
      tMax := w.winT.getD x.tlm.tMax, vset := x.vset, fff := clampI x.fffEm (-128) 127, clm := w.winClm
      vminSrc := if x.tileLocal then 4095 else x.vminSrc } }

/-- `n` publications fall due together; each advances TLM_SEQ, and the last one's values stand (R311, R313). -/
def State.publish (s : State) (n : Nat) : State :=
  let s := forL s.doms_ publishDom s
  let s := forIdx 16 (fun i s => s.updAdc i fun e =>
    { e with avg := if e.shN = 0 then e.avg else roundUpTie e.shW e.shN, sat := e.shSat }) s
  s.updHk fun h => { h with
    tlmSeq := (h.tlmSeq + n) % 65536, pubDue := 0
    vinAvg := min 65535 (roundNat h.shVin h.shN), iinAvg := roundNat h.shIin h.shN, pFld := roundNat h.shP h.shN }

/-- TLM_PUBLISH (R311): at a round boundary that ends a window, after the round has closed. A new window length applies from
the first boundary of that length. While frozen the publication waits for the thaw; after a lockstep mismatch the last one
stays (R324). -/
def execTlmPublish (s : State) : Out :=
  if s.hk.roundAt ≠ s.time + 1 ∨ s.hk.pubAt = s.time + 1 ∨ s.inst.lockstep then .next s
  else
    let r := roundOf s.time
    let ends := r % 2 ^ s.hk.winInForce == 0
    let new := s.hk.win != s.hk.winInForce && r % 2 ^ s.hk.win == 0
    let s := s.updHk fun h => { h with pubAt := s.time + 1, winInForce := if new then h.win else h.winInForce }
    let s := if ¬ ends then s
      else if s.obs.frozen then s.asideWindow.updHk fun h => { h with pubDue := h.pubDue + 1 }
      else s.asideWindow.publish 1
    .next (if ends ∨ new then s.restartWindow else s)

end Sys2Proof.Machine
end

