-- ==== Sys2Proof/Machine/Recorder.lean ====
section
/-!
DEFINITION. The event recorder (R325 to R339, R347): records as bytes, the log region of the NVM device, forwarding and
assembly, flushes with their page programs, reclamation and erases, the power-fail flush, the start-up scan, the temperature
window and the reading window.
-/

namespace Sys2Proof.Machine

/-! ### Records as bytes (R325) -/

/-- Bytes 0x00 to 0x3B of a record as a number. -/
def Rec.body (r : Rec) : Nat :=
  1 + r.flags * 2 ^ 8 + r.origin * 2 ^ 16 + r.cls * 2 ^ 24 + r.sev * 2 ^ 32 + r.pwrCyc * 2 ^ 40 + r.opMin * 2 ^ 64 +
    r.rseq * 2 ^ 96 + r.time * 2 ^ 128 + r.src * 2 ^ 192 + r.data * 2 ^ 224 + r.ctx * 2 ^ 256 + r.wseq * 2 ^ 320

/-- The 64 bytes of a record as it stands in a buffer: CRC 0. -/
def Rec.bufBytes (r : Rec) : List (BitVec 8) := leBytes 64 r.body

/-- The 64 bytes of a record as it is written to flash. -/
def Rec.flashBytes (r : Rec) : List (BitVec 8) := leBytes 60 r.body ++ leBytes 4 (crc32 (leBytes 60 r.body))

/-- A record from the number of its bytes. -/
def recOf (n : Nat) : Rec :=
  { origin := bits n 18 16, cls := bits n 31 24, sev := bits n 33 32, flags := bits n 10 8, pwrCyc := bits n 63 40
    opMin := bits n 95 64, rseq := bits n 127 96, time := bits n 191 128, src := bits n 223 192, data := bits n 255 224
    ctx := bits n 319 256, wseq := bits n 351 320 }

/-- The identity of a record on the die: 8·RSEQ + ORIGIN. -/
def Rec.key (r : Rec) : Nat := 8 * r.rseq + r.origin
/-- COPY. -/
def Rec.copied (r : Rec) : Bool := bit r.flags 0

/-! ### The log region (R329) -/

/-- The device address of a slot. -/
def State.slotAddr (s : State) (k : Nat) : Nat := s.logBase + 64 * k

/-- The slots that are not erased: their FMT does not read 0xFF (R325). -/
def State.usedSlots (s : State) : List Nat :=
  s.log.nvm.filterMap fun c => if s.logBase ≤ c.1 && c.1 < s.logBase + 0x400000 && (c.1 - s.logBase) % 64 == 0 then some ((c.1 - s.logBase) / 64) else none

/-- How many slots are erased. -/
def State.erasedSlots (s : State) : Nat := 65536 - s.usedSlots.length

/-- The bytes of a slot as a number. -/
def State.slotNat (s : State) (k : Nat) : Nat := readLE 0xFF s.log.nvm (s.slotAddr k) 64

/-- Whether a slot holds a valid record: FMT 1 and a CRC that agrees. -/
def State.slotOk (s : State) (k : Nat) : Bool :=
  let n := s.slotNat k
  n % 256 == 1 && n / 2 ^ 480 == crc32 (leBytes 60 n)

/-- The valid records of the region with their slots, in slot order. -/
def State.logRecs (s : State) : List (Nat × Rec) := (s.usedSlots.filter s.slotOk).map fun k => (k, recOf (s.slotNat k))

/-- The first erased slot from `k` on, wrapping; `n` slots are looked at. -/
def freeSlot (used : List Nat) (k : Nat) : Nat → Option Nat
  | 0 => none
  | n + 1 => if used.contains (k % 65536) then freeSlot used (k + 1) n else some (k % 65536)

/-- The erased slots that one page program can cover from the write point on (R329). -/
def State.pageSlots (s : State) : List Nat :=
  let used := s.usedSlots
  match freeSlot used s.log.wptr 65536 with
  | none => []
  | some k => ((List.range (4 - k % 4)).map (k + ·)).takeWhile fun j => !used.contains j

/-- Whether the temperature window has just closed and a last command may start: until frame 1 of the round (R336). -/
def State.closingNow (s : State) : Bool := s.log.shutAt.any (s.time < ·)

/-- Whether the manager may write to the region: a device with LOG_BASE in it, the scan complete, erase and suspend
instructions listed, and the temperature window open or closing in this frame (R329, R335, R336). -/
def State.mayWrite (s : State) : Bool :=
  s.inst.manager && s.log.usable && s.log.scanned && !s.log.noLog && (s.log.winOpen || s.closingNow) && !s.inst.inReset

/-! ### Staging a record for the host (R337, R338) -/

/-- RDY within a bound that the spec gives: the tick itself is open (log entry 26). -/
def State.readyIn (s : State) (bound : Nat) : State :=
  { s with fresh := s.fresh + 1 }.updLog fun l => { l with rdyAt := some (s.time + (Config.freeWord s.fresh).toNat % (bound + 1)) }

/-- Puts 64 bytes into LOG_WIN. -/
def State.putWin (s : State) (n : Nat) : State := s.updLog fun l => { l with win := (List.range 16).map fun i => BitVec.ofNat 32 (n / 2 ^ (32 * i)) }

/-- The smallest of a list by a key. -/
def minBy (l : List (Nat × Nat)) : Option (Nat × Nat) :=
  l.foldl (fun a e => match a with
    | none => some e
    | some x => if e.1 < x.1 ∨ (e.1 = x.1 ∧ e.2 < x.2) then some e else some x) none

/-- The written slots by WSEQ (R338). -/
def State.slotOrder (s : State) : List (Nat × Nat) := s.usedSlots.map fun k => (bits (s.slotNat k) 351 320, k)

/-- Stages the record at the cursor. A cursor that names no record moves to the oldest present, and SKIP is set; at an empty
buffer or region only END is set. -/
def State.stage (s : State) : State :=
  let s := s.updLog fun l => { l with rdyAt := none, stageWait := false, crcBad := false, stEnd := false }
  if s.log.src then
    let all := s.slotOrder
    match (if all.any (fun e => e.2 == s.log.cur) then some (s.log.cur, false) else (minBy all).map fun e => (e.2, true)) with
    | none => s.updLog fun l => { l with stEnd := true }
    | some (k, moved) =>
      let w := (bits (s.slotNat k) 351 320, k)
      let last := !all.any fun e => w.1 < e.1 || (w.1 == e.1 && w.2 < e.2)
      let s := (s.putWin (s.slotNat k)).updLog fun l => { l with cur := k, skip := l.skip || moved, crcBad := !s.slotOk k, stEnd := last }
      if s.log.prog.isEmpty ∧ (s.log.erase.isNone ∨ s.log.eraseSusp) then s.readyIn 5000 else s.updLog fun l => { l with stageWait := true }
  else
    match (match s.log.buf.find? fun (r : Rec) => r.rseq == s.log.cur with
      | some r => some (r, false)
      | none => ((minBy (s.log.buf.map fun (r : Rec) => (r.rseq, 0))).bind fun e => s.log.buf.find? fun (r : Rec) => r.rseq == e.1).map fun (r : Rec) => (r, true)) with
    | none => s.updLog fun l => { l with stEnd := true }
    | some (r, moved) =>
      let last := !s.log.buf.any fun e => r.rseq < e.rseq
      ((s.putWin r.body).updLog fun l => { l with cur := r.rseq, skip := l.skip || moved, stEnd := last }).readyIn 2

/-- Advances the cursor to the next record and stages it; at the last record END sets and the cursor stays. -/
def State.advance (s : State) : State :=
  let next := if s.log.src then
      let w := (bits (s.slotNat s.log.cur) 351 320, s.log.cur)
      (minBy (s.slotOrder.filter fun e => w.1 < e.1 || (w.1 == e.1 && w.2 < e.2))).map (·.2)
    else (minBy ((s.log.buf.filter fun r => s.log.cur < r.rseq).map fun r => (r.rseq, 0))).map (·.1)
  match next with
  | none => s.updLog fun l => { l with stEnd := true }
  | some c => (s.updLog fun l => { l with cur := c }).stage

/-- LOG_STS.RDY. -/
def State.logRdy (s : State) : Bool := s.log.rdyAt.any (· ≤ s.time)

/-- LOG_CUR (R337, R338): a write of LOG_CTL or LOG_CUR stages the record at the cursor. SRC 1 needs the privilege bit and
the manager; without either it is ignored and raises HOST_PRIV. -/
def execLogCur (ctl : Bool) (w : Word) (priv : Bool) (s : State) : Out :=
  if ¬ s.hostUp then .next s
  else if s.inst.lockstep then .next s.refuse
  else if ctl then
    let src := bit w.toNat 0
    if src ∧ (¬ priv ∨ ¬ s.inst.manager) then .next (s.privFail 0x2000 true)
    else .next ((s.updLog fun l => { l with src := src }).stage.okay)
  else .next ((s.updLog fun l => { l with cur := if l.src then w.toNat % 65536 else w.toNat }).stage.okay)

/-- LOG_WIN (R338): a read of word 15. Without RDY it returns 0 and does not advance. With the log region as source the read
needs the privilege bit. -/
def execLogWin (priv : Bool) (s : State) : Out :=
  if ¬ s.hostUp then .next s
  else if s.log.src ∧ ¬ priv then .next (s.privFail 0x207C false)
  else if ¬ s.logRdy then .next (s.rsp .okay 0)
  else .next (s.advance.rsp .okay (nth 0 s.log.win 15).toNat)

/-- LOG_LOSTCNT (R337): a read returns and clears it. -/
def execLogLostcnt (s : State) : Out :=
  if ¬ s.hostUp then .next s
  else .next ((s.updLog fun l => { l with lost := 0 }).rsp .okay s.log.lost)

/-! ### Forwarding and assembly (R327, R328, R347) -/

/-- The next record a worker forwards: one under way, else by RSEQ, and in a power-fail flush by severity first. -/
def State.nextForward (s : State) : Option Rec :=
  let l := s.log.buf.filter fun r => !r.gone
  match l.find? fun r => r.part ≠ 0 with
  | some r => some r
  | none => l.foldl (fun a r => match a with
    | none => some r
    | some x => if (s.lim.pwrFail && x.sev < r.sev) || ((!s.lim.pwrFail || x.sev == r.sev) && r.rseq < x.rseq) then some r else some x) none

/-- LOG_FORWARD (R328, R347): the next message of the record being forwarded, within the trace limit. -/
def execLogForward (s : State) : Out :=
  if ¬ s.mayForward ∨ ¬ s.traceOk then .next s
  else match s.nextForward with
    | none => .next s
    | some r =>
      let body := r.body % 2 ^ 320
      let data := if r.part < 5 then body / 2 ^ (64 * r.part) else crc32 (leBytes 40 body)
      let s := s.updLog fun l => { l with buf := l.buf.map fun e => if e.key == r.key then { e with part := r.part + 1, gone := r.part == 5 } else e }
      .next (s.sendTrace (recMsg r.rseq r.part data))

/-- A discarded assembly adds 1 to LOG_LOSTCNT (R347). -/
def State.dropAsm (s : State) (fld : Nat) (f : Asm → Bool) : State :=
  s.updLog fun l => { l with
    asm := l.asm.filter fun e => !(e.1 == fld && f e.2)
    lost := min 0xFFFFFFFF (l.lost + (l.asm.filter fun e => e.1 == fld && f e.2).length) }

/-- A record message of a field (R347). -/
def State.takeRec (s : State) (fld msg : Nat) : State :=
  let p := bits msg 84 82
  let q := bits msg 81 66
  let d := bits msg 65 2
  let a := ((s.log.asm.find? fun e => e.1 == fld && e.2.rseq == q).map (·.2)).getD { rseq := q, first := s.time }
  if 5 < p then s
  else
    let a := { a with parts := tset 0 a.parts p d, got := if a.got.contains p then a.got else p :: a.got }
    let rest := s.log.asm.filter fun e => !(e.1 == fld && e.2.rseq == q)
    if a.got.length < 6 then s.updLog fun l => { l with asm := rest ++ [(fld, a)] }
    else
      let body := (List.range 5).foldl (fun n i => n + tget 0 a.parts i * 2 ^ (64 * i)) 0
      let s := s.updLog fun l => { l with asm := rest }
      if tget 0 a.parts 5 = crc32 (leBytes 40 body) then
        let r := { recOf body with wseq := 0xFFFFFFFF }
        (s.bufferRec r).flushOn r
      else s.updLog fun l => { l with lost := min 0xFFFFFFFF (l.lost + 1) }

/-- TRACE (R347, R348): record messages are assembled; other messages enter the manager's trace buffer with their SRC. -/
def execTrace (f : RxFlit) (s : State) : Out :=
  s.recv 0x1B f.ring f.flit (.trace f) fun s =>
    let msg := fbits f.flit 104 16
    if ¬ s.inst.manager then s
    else if bits msg 88 85 = 8 then s.takeRec (fSrc f.flit) msg
    else if s.inst.lockstep then s
    else
      let (t, ok) := s.storeTrace msg (fSrc f.flit)
      if ok then t else t.dropTrace

/-- REC_ASSEMBLY_TIMEOUT (R347): 65,536 ticks after the first part. -/
def execRecAssemblyTimeout (fld : Fin 8) (s : State) : Out :=
  if s.inst.manager ∧ ¬ s.obs.frozen then .next (s.dropAsm fld fun a => decide (a.first + 65536 ≤ s.time)) else .next s

/-! ### Flash commands (R329 to R334) -/

/-- The unwritten records of the manager's buffer (R331, R332). -/
def State.unwritten (s : State) : List Rec := s.log.buf.filter fun r => !r.gone

/-- The copy of a record under reclamation (R334). -/
def copyOf (r : Rec) : Rec := { r with flags := r.flags ||| 1 }

/-- Starts a page program of records with the keys they are known by: each takes the next WSEQ and the next slot. -/
def State.startProgram (s : State) (l : List (Nat × Rec)) : State :=
  let slots := s.pageSlots
  let l := l.take slots.length
  if l.isEmpty then s
  else
    let w := s.log.wseq
    let prog := ((slots.zip l).zipIdx).map fun (e, j) => (e.1, e.2.1, { e.2.2 with wseq := (w + j) % 2 ^ 32 })
    s.updLog fun g => { g with
      prog := prog, progFrom := s.time, wseq := (w + l.length) % 2 ^ 32
      wptr := (nth 0 slots (l.length - 1) + 1) % 65536, eraseSusp := g.erase.isSome }

/-- The keys of buffered records. -/
def keyed (l : List Rec) : List (Nat × Rec) := l.map fun r => (r.key, r)

/-- A buffered record that is given up for want of space: LOG_LOST with cause 0x2 (R334). -/
def dropLow (r : Rec) (s : State) : State :=
  (s.updLog fun l => { l with buf := l.buf.filter fun e => e.key != r.key, lost := min 0xFFFFFFFF (l.lost + 1) }).raiseInst cLogLost (2 * 2 ^ 28)

/-- Gives up the unwritten records below the lowest severity in the region (R334). -/
def State.dropBelow (s : State) : State :=
  let l := s.logRecs.map (·.2)
  if l.isEmpty then s else forL (s.unwritten.filter fun r => r.sev < lowSev l) dropLow s

/-- Begins the reclamation of the sector that holds the oldest record of the lowest severity (R334). -/
def State.beginReclaim (s : State) : State :=
  let all := s.logRecs
  let low := lowSev (all.map (·.2))
  match oldestOf (all.map (·.2)) low with
  | none => s
  | some r =>
    match all.find? fun e => e.2 == r with
    | none => s
    | some (k, _) =>
      let v := k / 64
      s.dropBelow.updLog fun l => { l with
        reclaim := some v, copyQ := (all.filter fun e => e.1 / 64 == v && low < e.2.sev).map (·.1) }

/-- Records by severity, highest first, in arrival order within one (R332). -/
def bySev (l : List Rec) : List Rec := [3, 2, 1, 0].flatMap fun v => l.filter fun r => r.sev == v

/-- The end of a power-fail flush (R332). -/
def State.endPf (s : State) : State :=
  s.updLog fun l => { l with pfMode := false, pfTrig := none, pfDone := true, flushing := false, eraseSusp := false }

/-- The next flash command, where none is under way (R330 to R334, R336, R339). -/
def State.flashNext (s : State) : State :=
  if ¬ s.log.prog.isEmpty ∨ ¬ s.mayWrite then s
  else if s.log.pfMode then
    let l := bySev s.unwritten
    let late := (s.log.pfTrig.getD 0) + 500000 < s.time + (pageTime s.fuses.nvmClk s.log.info.tPage + 3) / 4
    if l.isEmpty ∨ late ∨ s.pageSlots.isEmpty then s.endPf
    else s.startProgram (keyed (l.map fun r => { r with flags := r.flags ||| 2 }))
  else if s.closingNow then
    if s.obs.frozen ∨ s.inst.lockstep then s
    else s.startProgram (keyed (s.unwritten.filter fun r => r.cls == cLogDeferred && r.origin == s.inst.fieldId && bit r.data 0))
  else if s.obs.frozen ∨ s.inst.lockstep ∨ ¬ s.log.flushing ∨ s.log.failHalt then s
  else if s.log.erase.isSome then
    let l := s.unwritten.filter fun r => 2 ≤ r.sev
    if l.isEmpty then s.updLog fun g => { g with eraseSusp := false } else s.startProgram (keyed l)
  else
    let s := if s.log.reclaim.isNone ∧ s.erasedSlots < 128 then s.beginReclaim else s
    match s.log.reclaim with
    | some v =>
      match s.log.copyQ with
      | [] => s.updLog fun g => { g with erase := some v, eraseSusp := false }
      | q => s.startProgram (q.map fun k => (2 ^ 36 + k, copyOf (recOf (s.slotNat k))))
    | none =>
      let l := s.unwritten
      if l.isEmpty then s.updLog fun g => { g with flushing := false, flushTrig := false }
      else s.startProgram (keyed l)

/-- FLUSH_LOG completes when every record buffered at its acceptance has been written (R331). -/
def State.noteFlushed (s : State) : State :=
  if ¬ s.cmdIs 0xA then s
  else
    let left := s.log.waitCmd.filter fun k => s.log.buf.any fun r => r.key == k && !r.gone
    let s := s.updLog fun l => { l with waitCmd := left }
    if left.isEmpty then s.cmdEnd 1 else s

/-- A flash record that waited for the flash command is staged (R338). -/
def State.stageAfter (s : State) : State :=
  if s.log.stageWait ∧ s.log.prog.isEmpty then (s.updLog fun l => { l with stageWait := false }).readyIn 5000 else s

/-- The slots of a page program take their records, and the records count as WRITTEN (R327, R330). -/
def State.programmed (s : State) : State :=
  let p := s.log.prog
  let nvm := p.foldl (fun m e => writeBytes 0xFF m (s.slotAddr e.1) e.2.2.flashBytes) s.log.nvm
  s.updLog fun l => { l with
    nvm := nvm, prog := [], retryP := false
    copyQ := l.copyQ.filter fun k => !p.any fun e => e.2.1 == 2 ^ 36 + k
    buf := l.buf.map fun r => match p.find? fun e => e.2.1 == r.key with
      | some e => { r with gone := true, wseq := e.2.2.wseq }
      | none => r }

/-- The bytes a failed program leaves in a slot: not erased, and with a CRC that fails (R330); else open. -/
def failedSlot (fresh k : Nat) : List (BitVec 8) :=
  let f (i : Nat) : Nat := (Config.freeWord (fresh + 64 * k + i)).toNat
  let l := BitVec.ofNat 8 (f 0 % 255) :: (List.range 59).map fun i => BitVec.ofNat 8 (f (i + 1))
  l ++ leBytes 4 ((crc32 l + 1 + f 60 % (2 ^ 32 - 1)) % 2 ^ 32)

/-- The slots of a failed program (R330). -/
def State.spoilSlots (s : State) : State :=
  let nvm := (s.log.prog.zipIdx).foldl (fun m (e, j) => writeBytes 0xFF m (s.slotAddr e.1) (failedSlot s.fresh j)) s.log.nvm
  { s with fresh := s.fresh + 256 }.updLog fun l => { l with nvm := nvm, prog := [] }

/-- A program or erase has failed for the second time: flushing stops until the next trigger (R330). -/
def State.flashFail (s : State) : State :=
  (s.updLog fun l => { l with
    retryP := false, retryE := false, flushing := false, failHalt := true, flushTrig := false, reclaim := none, copyQ := []
    erase := none, eraseSusp := false }).raiseInst cLogWriteFail 0

/-- A page program has failed (R330): it is retried once in the next free slots. -/
def State.programFailed (s : State) : State :=
  let p := s.log.prog
  let again := s.log.retryP
  let t := s.spoilSlots
  if again then t.flashFail
  else ((t.updLog fun l => { l with retryP := true }).startProgram (p.map fun e => (e.2.1, e.2.2)))

/-- PAGE_PROGRAM_DONE (R330): `ok` says whether the page holds what was programmed. A power-fail flush makes no read-back, so
its records count as written in either case (R332). -/
def execPageProgramDone (ok : Bool) (s : State) : Out :=
  if s.log.prog.isEmpty then .next s
  else if s.log.pfMode then
    let bad := s.spoilSlots
    let t := if ok then s.programmed else { s.programmed with fresh := bad.fresh }.updLog fun l => { l with nvm := bad.log.nvm }
    .next t.noteFlushed.flashNext.stageAfter
  else if ok then .next ((s.programmed.endCause cLogWriteFail s.srcInst).noteFlushed.flashNext.stageAfter)
  else .next (s.programFailed.stageAfter)

/-- FLASH_BUSY_TIMEOUT (R330): still busy at twice the maximum page-program time. -/
def execFlashBusyTimeout (s : State) : Out :=
  if ¬ s.log.prog.isEmpty ∧ ¬ s.log.pfMode ∧ s.log.progFrom + s.log.info.tPage / 2 ≤ s.time then .next s.programFailed.stageAfter
  else .next s

/-- The bytes of a sector after an erase that failed: open, no erased bit is programmed by it. -/
def State.halfErase (s : State) (v : Nat) : State :=
  let a := s.slotAddr (64 * v)
  let nvm := (List.range 4096).foldl (fun m i =>
    let b := tget 0xFF m (a + i)
    tset 0xFF m (a + i) (b ||| (Config.freeWord (s.fresh + i)).truncate 8)) s.log.nvm
  { s with fresh := s.fresh + 4096 }.updLog fun l => { l with nvm := nvm }

/-- SECTOR_ERASE_DONE (R330, R334): the sector's slots are erased; a failed erase is retried once. -/
def execSectorEraseDone (ok : Bool) (s : State) : Out :=
  match s.log.erase with
  | none => .next s
  | some v =>
    if s.log.eraseSusp then .next s
    else if ok then
      let nvm := writeBytes 0xFF s.log.nvm (s.slotAddr (64 * v)) (List.replicate 4096 0xFF)
      let s := s.updLog fun l => { l with nvm := nvm, erase := none, reclaim := none, retryE := false }
      .next (s.dropBelow.noteFlushed.flashNext.stageAfter)
    else
      let s := s.halfErase v
      .next (if s.log.retryE then s.flashFail else s.updLog fun l => { l with retryE := true })

/-- LOG_FLUSH_START (R331). -/
def execLogFlushStart (s : State) : Out :=
  if s.log.flushTrig ∧ ¬ s.log.flushing ∧ s.mayWrite ∧ ¬ s.obs.frozen ∧ ¬ s.inst.lockstep then
    .next (s.updLog fun l => { l with flushing := true, flushTrig := false, failHalt := false }).flashNext
  else .next s

/-- PF_FLUSH (R332): a running program completes first; an erase is suspended. -/
def execPfFlush (s : State) : Out :=
  if s.log.pfTrig.isSome ∧ ¬ s.log.pfMode ∧ s.mayWrite then
    .next (s.updLog fun l => { l with pfMode := true, pfDone := false, flushing := true, eraseSusp := l.erase.isSome }).flashNext
  else .next s

/-! ### The start-up scan (R326, R335) -/

/-- The records that the scan reads: the newest sector's, and those before it until one has COPY clear. -/
def scanBack (recs : List (Nat × Rec)) (v : Nat) : Nat → List (Nat × Rec) → List (Nat × Rec)
  | 0, acc => acc
  | n + 1, acc =>
    let acc := acc ++ recs.filter fun e => e.1 / 64 == v
    if acc.any fun e => !e.2.copied then acc else scanBack recs ((v + 1023) % 1024) n acc

/-- The newest of records, by WSEQ. -/
def newestRec (l : List (Nat × Rec)) : Option (Nat × Rec) :=
  l.foldl (fun a e => match a with | none => some e | some x => if x.2.wseq < e.2.wseq then some e else some x) none

/-- LOG_SCAN (R335, R336): PWR_CYC, OPM0, the write point and the next WSEQ, and the records that the last cycle could not
write. Records already buffered are stamped (R326). -/
def execLogScan (s : State) : Out :=
  if ¬ s.inst.manager ∨ s.log.scanned ∨ ¬ s.log.info.found ∨ s.headerRc ≠ 0 then .next s
  else
    let recs := s.logRecs
    let newest := (newestRec (recs.filter fun e => e.1 % 64 == 0)).map fun e => e.1 / 64
    let l := match newest with | none => [] | some v => scanBack recs v 1024 []
    let cyc := if l.isEmpty then 0 else min 0xFFFFFF ((l.map fun e => e.2.pwrCyc).foldl max 0 + 1)
    let opm := if l.isEmpty then 0 else min 0xFFFFFFFF ((l.map fun e => e.2.opMin).foldl max 0 + 1)
    let used := match newest with | none => [] | some v => s.usedSlots.filter fun k => k / 64 == v
    let s := s.updLog fun g => { g with
      usable := true, scanned := true, pwrCyc := cyc, opm0 := opm
      wseq := if l.isEmpty then 0 else ((l.map fun e => e.2.wseq).foldl max 0 + 1) % 2 ^ 32
      wptr := if used.isEmpty then 0 else (used.foldl max 0 + 1) % 65536 }
    let s := s.updLog fun g => { g with buf := g.buf.map s.stampRec }
    match newestRec (recs.filter fun e => e.2.cls == cLogDeferred) with
    | some (_, r) =>
      .next (if bit r.data 0 then s.raiseInst cLogLost (3 * 2 ^ 28 + r.pwrCyc % 256 * 65536 + bits r.data 31 16) else s)
    | none => .next s

/-! ### The temperature window (R336) -/

/-- The highest valid round reading of the manager's digital sensors. -/
def State.hotSensor (s : State) : Option Int :=
  (((List.range 128).map s.sensor).filter fun x => x.has && x.valid).foldl
    (fun a x => match a with | none => some x.reading | some y => some (max y x.reading)) none

/-- The NVM temperature. -/
def State.nvmTemp (s : State) : Option Int :=
  match (List.range s.adcEnts).find? fun i => s.adcKind i == 3 && (s.adcDom i).isNone && s.adcGroup i == 15 with
  | some i => if (s.adc i).valid ∧ (s.adc i).roundVal.isSome then (s.adc i).roundVal else s.hotSensor
  | none => s.hotSensor

/-- The window at a round: closing writes LOG_DEFERRED by itself, at once or after the command in progress, and starts no other
command; reopening flushes. -/
def State.nvmWindow (s : State) : State :=
  if ¬ s.inst.manager ∨ s.inst.lockstep then s
  else
    let ok : Bool := match s.nvmTemp with | some t => decide (s.nvmTlo ≤ t) && decide (t ≤ s.nvmThi) | none => false
    if s.log.winOpen ∧ ¬ ok then
      let u := s.unwritten.length
      let s := s.raiseInst cLogDeferred (1 + u * 65536)
      (s.updLog fun l => { l with winOpen := false, deferred := true, shutAt := some (s.time + 256) }).flashNext
    else if ¬ s.log.winOpen ∧ ok then
      let back := s.log.deferred
      let s := s.updLog fun l => { l with winOpen := true, deferred := false, shutAt := none, flushTrig := l.flushTrig || back }
      if back then s.raiseInst cLogDeferred 0 else s
    else s

/-! ### RST_N asserted (R243, R371, R377) -/

/-- What a page program or erase under way leaves in the device when RST_N cuts it off: open in the bytes it was changing. -/
def State.cutFlash (s : State) : List Host.Cell :=
  let m := s.log.prog.foldl (fun m e => (e.2.2.flashBytes.zipIdx).foldl (fun m (b, i) =>
    let a := s.slotAddr e.1 + i
    tset 0xFF m a (tget 0xFF m a &&& (b ||| (Config.freeWord (s.fresh + a)).truncate 8))) m) s.log.nvm
  match s.log.erase with
  | none => m
  | some v => ({ s with log := { s.log with nvm := m } }.halfErase v).log.nvm

/-- RST_N_ASSERT (R243): nothing of the instance survives but the NVM contents, which a flash command under way leaves
open, and the TAP (R387). The tiles go on to the end of their switching period. -/
def execRstNAssert (s : State) : Out :=
  if s.inst.inReset then .next s
  else
    let z := State.reset
    let ts := s.tiles.map fun e => (e.1, { e.2 with rst := true })
    .next { z with inst := { z.inst with inReset := true }, tiles := ts, log := { z.log with nvm := s.cutFlash }, tap := s.tap
                   fresh := s.fresh + 2 ^ 27, pending := s.pending }

end Sys2Proof.Machine
end

