-- ==== Sys2Proof/Machine/Observe.lean ====
section
/-!
DEFINITION. Observation (R340 to R363): engine counters, the reading of the trace buffer, the freeze and its cut, scan-out,
the snapshot and the dump. The order of words that the spec does not give is log entry 6 for scan segments and log entry 27
for the snapshot and the dump.
-/

namespace Sys2Proof.Machine

/-! ### Engine counters (R340 to R342) -/

/-- A counter of an engine as it reads: 0 BUSY, 1 IDLE, 2 + k STALL[k]. -/
def State.engCtr (s : State) (e k : Nat) : Nat :=
  let c (j : Nat) : Nat := tget 0 s.obs.ctr (16 * e + j)
  if k = 1 then c 1 - (c 0 + ((List.range 8).map fun j => c (2 + j)).sum) else c k

/-- Clears the counters of the engines marked for this tick (R342). -/
def State.clearCtrs (s : State) : State :=
  if s.obs.clrMask = 0 then s
  else s.updObs fun o => { o with clrMask := 0, ctr := o.ctr.filter fun e => !bit o.clrMask (e.1 / 16) }

/-- The stall codes that an engine can count (R341). -/
def stallCodes (e : Nat) : List Nat := if e = 4 then [0, 1, 2, 3, 4, 5, 6, 7] else [0, 1, 2, 3, 4, 7]

/-- One clock of an engine whose program or cycles the spec does not give: BUSY, IDLE or a stall code of R341, left open
(log entry 7). -/
def State.openClock (s : State) (e : Nat) : State :=
  let l := stallCodes e
  let k := Config.supervisorShare e s.fresh % (2 + l.length)
  let s := { s with fresh := s.fresh + 1 }.countEng e 1 1
  if k = 0 then s.countEng e 0 1 else if k = 1 then s else s.countEng e (2 + nth 7 l (k - 2)) 1

/-- Whether a flit waits for a ring's outgoing link: handed to it, waiting for a SEQ or a resend slot, or trace and record messages
where it is their ring. -/
def State.linkWaits (s : State) (r : Ring) : Bool :=
  let k := match r with | .one => 1 | .two => 2
  let l := s.link r
  !l.own.isEmpty || !l.top.isEmpty || !l.held.isEmpty || (s.tth.wait.any fun w => s.ringsNow w == k || s.ringsNow w == 3) ||
    (s.traceRing == k && (!s.obs.trcQ.isEmpty || s.recordDue))

/-- What the flit time of a ring's outgoing link counts as: the index of BUSY, IDLE or a stall (R340, R341). A repeated flit that
takes the place of a waiting one counts as the stall it makes, and not as BUSY (log entry 7). -/
def State.portClock (s : State) (r : Ring) : Nat :=
  let k := match r with | .one => 1 | .two => 2
  let l := s.link r
  let trace (f : Flit) : Bool := fKind f == 0x1B
  if l.now.any (fun f => fSrc f != s.inst.fieldId) && l.own.any (fun f => !trace f) then 2
  else if l.now.isSome then (if l.held.isEmpty then 0 else 5)
  else if !s.linkWaits r then 1
  else if (l.own.any trace || (s.traceRing == k && (!s.obs.trcQ.isEmpty || s.recordDue))) && !s.traceOk then 3
  else if s.tth.wait.any (fun w => (s.ringsNow w == k || s.ringsNow w == 3) && s.keeps w.word && 32 ≤ s.slotsUsed (s.ringsNow w)) then 4
  else if !l.held.isEmpty then 5
  else 9

/-- One flit time of a port: port A sends on ring 2 and port B on ring 1 (R209, R340). -/
def State.countPort (s : State) (e : Nat) (r : Ring) : State :=
  let k := s.portClock r
  let s := s.countEng e 1 1
  if k = 1 then s else s.countEng e k 1

/-- The clocks of one tick: 4 of each array and of the ticket unit, 2 of the supervisors, and of each port the flit time that began
at an even tick (R29, R340). They hold while frozen. -/
def State.tickCtrs (s : State) : State :=
  if s.obs.frozen then s
  else
    let s := forIdx 4 (fun a s => s.countEng a 1 4) s
    let s := forIdx 2 (fun _ s => s.openClock 4) (forIdx 4 (fun _ s => s.openClock 5) s)
    if s.time % 2 = 1 then (s.countPort 6 .two).countPort 7 .one else s

/-- OBS_CNT_CLR (R342): at the next tick. -/
def execObsCntClr (w : Word) (priv : Bool) (s : State) : Out :=
  if ¬ s.hostUp then .next s
  else if ¬ priv then .next (s.privFail 0x40400 true)
  else if s.inst.lockstep then .next s.refuse
  else .next ((s.updObs fun o => { o with clrMask := o.clrMask ||| w.toNat % 256 }).okay)

/-! ### Trace registers (R348, R349, R362) -/

/-- OBS_TRC_CTL (R348): DEST 1 is refused below tether version 2 and in line mode. Enabling emits SYNC (R346). -/
def execObsTrcCtl (w : Word) (priv : Bool) (s : State) : Out :=
  let n := w.toNat
  if ¬ s.hostUp then .next s
  else if ¬ priv then .next (s.privFail 0x40420 true)
  else if s.inst.lockstep ∨ (bit n 1 ∧ (s.tth.version < 2 ∨ s.lineMode)) then .next s.refuse
  else
    let was := s.obs.trcEn
    let s := s.updObs fun o => { o with trcEn := bit n 0, trcDest := bit n 1, trcWrap := bit n 2, trcEng := bit n 3, trcBr := bit n 4 }
    .next ((if s.traceRuns && !was then s.traceSync else s).okay)

/-- OBS_TRC_MARK (R346). -/
def execObsTrcMark (w : Word) (priv : Bool) (s : State) : Out :=
  if ¬ s.hostUp then .next s
  else if ¬ priv then .next (s.privFail 0x40428 true)
  else if s.inst.lockstep then .next s.refuse
  else .next ((s.traceMsg (5 * 2 ^ 85 + w.toNat * 2 ^ 53 + s.time % 2 ^ 32 * 2 ^ 21)).okay)

/-- Words 0 to 2 of OBS_TRC_WIN: the oldest unread entry (R348). -/
def State.trcWord (s : State) (i : Nat) : Nat :=
  match s.obs.trc with
  | [] => 0
  | e :: _ => (e.msg + e.src * 2 ^ 89 + e.arr * 2 ^ 96) / 2 ^ (32 * i) % 2 ^ 32

/-- Whether a response of OBS_TRC_WIN may leave now: at most 30 among 1,024 consecutive responses (R349). -/
def State.trcAllowed (s : State) : Bool := (s.obs.trcRd[29]?).all fun n => n + 1024 ≤ s.host.rspCnt

/-- Answers a read of OBS_TRC_WIN, which counts against its limit (R349). -/
def State.trcRsp (s : State) (v : Nat) : State :=
  (s.updObs fun o => { o with trcRd := (s.host.rspCnt :: o.trcRd).take 30 }).rsp .okay v

/-- OBS_TRC_WIN (R349): a read of word 3 returns it and advances, unless EMPTY. Beyond the limit the read waits: nothing
happens at this tick. -/
def execObsTrcWin (s : State) : Out :=
  if ¬ s.hostUp ∨ ¬ s.trcAllowed then .next s
  else
    let v := s.trcWord 3
    .next ((s.updObs fun o => { o with trc := o.trc.tail, trcFull := false }).trcRsp v)

/-! ### Freeze (R350 to R356) -/

/-- FREEZE_FLIT (R350, R351): a worker stops at the end of Tf; a flit that comes after it stops the worker at the end of the
next tick, with LATE. -/
def execFreezeFlit (f : RxFlit) (s : State) : Out :=
  s.recv 0x06 f.ring f.flit (.freezeFlit f) fun s =>
    if s.inst.manager ∨ s.obs.tf.isSome then s
    else
      let tf := fbits f.flit 104 41
      let late := decide (tf < s.time)
      s.updObs fun o => { o with
        tf := some (if late then s.time + 1 else tf), regTf := tf, late := late, capOvf := false, timeInv := false, ended := false }

/-- Sets the thaw tick; one at or before Tf becomes Tf + 1 (R355, R363). -/
def State.setThaw (s : State) (tt : Nat) : State :=
  let t := match s.obs.tf with | some f => max tt (f + 1) | none => max tt (s.obs.regTf + 1)
  s.updObs fun o => { o with tt := some t, regTt := t }

/-- THAW_FLIT (R355). -/
def execThawFlit (f : RxFlit) (s : State) : Out :=
  s.recv 0x07 f.ring f.flit (.thawFlit f) fun s =>
    if s.inst.manager ∨ ¬ (s.obs.frozen ∨ s.obs.tf.isSome) then s else s.setThaw (fbits f.flit 104 41)

/-- FREEZE_CUT (R351, R353, R354): at the end of tick Tf every function of R351 stops together. -/
def execFreezeCut (s : State) : Out :=
  if s.obs.tf.any (· ≤ s.time) ∧ ¬ s.obs.frozen ∧ ¬ s.inst.inReset then
    let s := s.updObs fun o => { o with tf := none, frozen := true, timeInv := !s.tth.timeValid, capt := 0, cutTreps := [] }
    let s := s.updTth fun t => { t with capA := [], capB := [] }
    .next (forIdx 32 (fun c s => s.updCluster c fun y => { y with capReq := [], capRpt := [], capOver := 0 }) s)
  else .next s

/-! ### Scan-out (R354) -/

/-- A 32-bit word of two 16-bit halves, the first low. -/
def halves (f : Nat → Nat) (w : Nat) : Nat := f (2 * w) % 65536 + f (2 * w + 1) % 65536 * 65536

/-- The slot of a ledger's entry `k`: slot numbers are taken modulo 512, from the next slot on (log entry 27). -/
def State.ledgerSlot (s : State) (k : Nat) : Nat :=
  let n := slotUp s.time / 8
  8 * (n + (k + 512 - n % 512) % 512)

/-- An entry of the di/dt ledger of a domain, or of the input ledger for domain 0xFF. -/
def State.ledger (s : State) (d k : Nat) : Nat :=
  if d = 255 then (openRound (s.iinAt (s.ledgerSlot k))).toNat % 2 ^ 32 else s.didtAt d (s.ledgerSlot k) % 65536

/-- Word `w` of scan segment `g`: V registers, ledgers, TREPs and table SRAM as R354 orders them; the other segments' order
is open (log entry 6). -/
def State.scanWordAt (s : State) (g w : Nat) : Nat :=
  match g with
  | 2 => if w < 4096 then (tget 0 (s.eng.lane (w / 1024)).v (w % 1024)).toNat else (Config.scanWord g w).toNat
  | 5 =>
    if w < 8192 then halves (s.ledger (w / 256)) (w % 256)
    else if w < 8704 then s.ledger 255 (w - 8192) else (Config.scanWord g w).toNat
  | 8 => if w < 384 then (tget 0 s.obs.cutTreps (w / 2)).toNat / 2 ^ (32 * (w % 2)) % 2 ^ 32 else (Config.scanWord g w).toNat
  | 10 => readLE 0 s.eng.mem (4 * w) 4
  | _ => (Config.scanWord g w).toNat

/-- OBS_SCAN_DATA (R354): one word, and the index advances; 0 outside a freeze. -/
def execObsScanData (s : State) : Out :=
  if ¬ s.hostUp then .next s
  else if ¬ s.obs.frozen then .next (s.rsp .okay 0)
  else .next ((s.updObs fun o => { o with scanWord := (o.scanWord + 1) % 2 ^ 19 }).rsp .okay (s.scanWordAt s.obs.scanSeg s.obs.scanWord))

/-! ### SNAPSHOT (R357, R358) -/

/-- Puts a number of `n` bytes into a snapshot. -/
def snapPut (m : List Host.Cell) (a n v : Nat) : List Host.Cell := writeLE 0 m a n v

/-- The engine entry: state, stall reason and ticks of an engine at an instant are not given by the registers (log entry
7); an array that runs nothing is idle. -/
def State.snapEng (s : State) (e : Nat) : Nat :=
  let v := Config.supervisorState (s.fresh + e)
  if e < 4 ∧ (bit s.eng.retired e ∨ s.grounded) then v / 32 % 65536 * 65536
  else v % 3 + (if v % 3 = 2 then nth 7 (stallCodes e) (v / 3 % (stallCodes e).length) * 4 else 0) + v / 32 % 65536 * 65536

/-- The array that runs a lane (R168). -/
def State.laneArray (s : State) (l : Nat) : Nat := (((placement s.eng.retired).find? fun p => p.2.contains l).map (·.1)).getD 255

/-- The lane entry: program, descriptor, activity and pairing, array, and the last status word. -/
def State.snapLane (s : State) (l : Nat) : Nat :=
  let x := s.eng.lane l
  let paired := (placement s.eng.retired).any fun p => p.2.contains l && p.2.length == 2
  let act := ((s.prog x.prog).map fun p => p.act).getD 0
  x.prog % 256 + x.desc % 256 * 2 ^ 8 + (act % 4 + 4 * b2n paired) * 2 ^ 16 + s.laneArray l % 256 * 2 ^ 24 + x.status * 2 ^ 32

/-- The ring entry of R358. -/
def State.snapRing (s : State) (r : Nat) : Nat :=
  let one := r == 1
  let down := if one then s.tth.ring1Down else s.tth.ring2Down
  let up := !(if one then s.tth.linkA else s.tth.linkB)
  let mine := s.tth.slots.filter (·.ring == r)
  let old := mine.foldl (fun (a : Option Slot) x => match a with | none => some x | some y => if x.sentAt < y.sentAt then some x else some y) none
  let o := match old with
    | none => 0
    | some x => fSeq x.word + fKind x.word * 2 ^ 6 + x.sends % 4 * 2 ^ 11 + min 65535 (s.time - x.sentAt) * 2 ^ 16
  (b2n up + 2 * b2n down + 4 * b2n s.lineMode) + (32 - min 32 mine.length) * 2 ^ 8 +
    min 255 (s.tth.wait.filter fun x => x.rings == r || x.rings == 3).length * 2 ^ 16 +
    (if one then s.tth.capA else s.tth.capB).length * 2 ^ 24 + o * 2 ^ 32 + (if one then s.tth.crcA else s.tth.crcB) * 2 ^ 64 +
    ((if one then s.tth.lastTrace1 else s.tth.lastTrace2).getD 0) % 2 ^ 32 * 2 ^ 96

/-- The cluster entry of R358. -/
def State.snapCluster (s : State) (c : Nat) : Nat :=
  let q := s.tks fun x => x.cluster == c && x.state == .queued
  let old := q.foldl (fun (a : Option (Nat × Ticket)) e => match a with
    | none => some e | some y => if e.2.arrival < y.2.arrival then some e else some y) none
  let (i, arr, why, last) := match old with
    | none => (65535, 0, 0, 0)
    | some (i, x) => (i, x.arrival % 2 ^ 32, x.whyWait % 128, x.lastTry % 2 ^ 32)
  let why := why / 2 * 2 + b2n (s.cluster c).disabled
  i + min 65535 q.length * 2 ^ 16 + arr * 2 ^ 32 + min 65535 (s.liveTks c) * 2 ^ 64 + min 255 (s.cluster c).rsp.length * 2 ^ 80 +
    why * 2 ^ 88 + last * 2 ^ 96

/-- The sync-group entry of R357, manager only. -/
def State.snapGroup (s : State) (g : Nat) : Nat :=
  let l := s.mgr.sgSets.filter fun x => x.group == g
  let v := l.find? fun x => x.voting
  let n := (l.map fun x => x.mems.length).sum
  match v with
  | none => min 255 n * 2 ^ 13
  | some x => (x.setId.getD 0) % 256 + 2 ^ 8 + min 15 x.fails * 2 ^ 9 + min 255 n * 2 ^ 13 + min 2047 (s.time - x.sentAt) * 2 ^ 21

/-- The contents of the snapshot window (R357). -/
def State.snapshot (s : State) : List Host.Cell :=
  let fr := b2n s.obs.frozen
  let cmd := match s.host.cmd with
    | some c => c.code % 256 + 256 + min 65535 (frameOf s.time - frameOf c.accAt) * 65536
    | none => 255
  let wait := if s.obs.frozen then 8 else Config.supervisorState s.fresh % 8
  let m := snapPut [] 0 4 (1 + 2 * fr + 16 + s.inst.fieldId * 256)
  let m := snapPut m 8 8 s.time
  let m := snapPut m 0x10 4 (Config.supervisorState (s.fresh + 9) % 2 ^ 32)
  let m := snapPut m 0x14 4 wait
  let m := snapPut m 0x18 4 cmd
  let m := (List.range 8).foldl (fun m e => snapPut m (0x20 + 4 * e) 4 (s.snapEng e)) m
  let m := (List.range 4).foldl (fun m l => snapPut m (0x40 + 16 * l) 12 (s.snapLane l)) m
  let m := [1, 2].foldl (fun m r => snapPut m (0x80 + 32 * (r - 1)) 16 (s.snapRing r)) m
  let m := snapPut m 0xC0 8 (b2n s.mgr.xtUp + 2 * b2n s.mgr.xtValid + s.mgr.xtLevel % 256 * 256 + s.mgr.xtRspAt % 2 ^ 32 * 2 ^ 32)
  let m := (List.range 32).foldl (fun m c => snapPut m (0x100 + 16 * c) 16 (s.snapCluster c)) m
  if s.inst.manager then (List.range 64).foldl (fun m g => snapPut m (0x300 + 4 * g) 4 (s.snapGroup g)) m else m

/-- Latches the snapshot, and SNAPSHOT ends DONE (R357). -/
def State.latchSnap (s : State) : State :=
  ({ s with fresh := s.fresh + 16 }.updObs fun o => { o with snapAt := none, snapMem := s.snapshot }).cmdDone 9 1

/-- SNAPSHOT_LATCH (R357): at T_s, the first frame start after acceptance. -/
def execSnapshotLatch (s : State) : Out :=
  if s.obs.snapAt.any (· ≤ s.time) then .next s.latchSnap else .next s

/-! ### DUMP (R360, R361) -/

/-- Whether the object and the tick that a DUMP names are accepted (R360). -/
def State.dumpOk (s : State) : Bool :=
  let o := s.obs
  let n := o.dumpPg / 8192
  let at_ := o.dumpAt
  1 ≤ o.dumpKind && o.dumpKind ≤ 7 && (at_ == 0 || (nextFrame s.time ≤ at_ && at_ < s.time + 16777216)) &&
    (o.dumpKind != 1 || (1 ≤ n && n ≤ 256 && o.dumpPg % 8192 + n ≤ 0x2000))

/-- The bytes of the object that a DUMP names, and how many of its pages fail their check. -/
def State.dumpBytes (s : State) : List (BitVec 8) × Nat :=
  let i := s.obs.dumpIdx
  match s.obs.dumpKind with
  | 1 =>
    let ps := (List.range (s.obs.dumpPg / 8192)).map (s.obs.dumpPg % 8192 + ·)
    (ps.flatMap s.pageBytes, (ps.filter fun p => !s.chkAgrees p).length)
  | 2 => ((List.range 1024).flatMap fun j => leBytes 4 (tget 0 (s.eng.lane (i % 4)).v j).toNat, 0)
  | 3 => ((List.range 512).flatMap fun p => leBytes 2 (s.point p).mean, 0)
  | 4 => ((List.range 192).flatMap fun t => leBytes 8 (s.tile t).trep.toNat, 0)
  | 5 => ((List.range 192).flatMap fun j => leBytes 2 (uext 16 (s.term (j / 32) (j % 32))), 0)
  | 6 => ((List.range 64).flatMap fun j => leBytes 4 (uext 32 (tget 0 s.eng.fin (64 * (i % 32) + j))), 0)
  | _ => if i = 255 then ((List.range 512).flatMap fun k => leBytes 4 (s.ledger 255 k), 0)
         else ((List.range 512).flatMap fun k => leBytes 2 (s.ledger (i % 32) k), 0)

/-- Copies the object: the dumps-and-trace windows move 256 bytes a cycle, two cycles a sample or one with ENG set, and DUMP
ends DONE when the copy ends. The content is the named sample's, so it is taken whole (R361). -/
def State.copyDump (s : State) (cut : Bool) : State :=
  let (l, bad) := s.dumpBytes
  let per := if s.obs.trcEng then 1 else 2
  let n := ((l.length + 255) / 256 + per - 1) / per
  let s := s.updObs fun o => { o with
    dumpBusy := false, dumpValid := true, dumpFrozen := cut, dumpAborted := false, dumpBad := min 255 bad, dumpLen := l.length
    dumpArea := writeBytes 0 [] 0 l }
  if s.cmdIs 8 then s.cmdAt (16 * (s.time / 16) + 16 * n) 1 else s

/-- DUMP_COPY (R361): in the named sample; one that falls in a freeze is copied at the thaw. -/
def execDumpCopy (s : State) : Out :=
  if s.obs.dumpBusy ∧ s.obs.dumpT / 16 ≤ s.time / 16 ∧ ¬ s.obs.frozen then .next (s.copyDump false) else .next s

end Sys2Proof.Machine
end

