-- ==== Sys2Proof/Machine/Pmb.lean ====
section
/-!
DEFINITION. Board converters over PMBus (R315 to R323): discovery, the poll cycles with their retries, and the alert. Only
the manager drives the bus (R315). A row brings the words that the devices return; a device without a word in it does not
answer. While frozen no transaction starts, and after a lockstep mismatch the bus stays idle (R324).
-/

namespace Sys2Proof.Machine

/-- A number of the device list (R316). -/
def State.pmbN (s : State) (off n : Nat) : Nat := s.cn 11 off n
/-- N_DEV. -/
def State.pmbCount (s : State) : Nat := min 16 (s.pmbN 0 1)
/-- ADDR of an entry. -/
def State.pmbAdr (s : State) (i : Nat) : Nat := s.pmbN (8 + 16 * i) 1 % 128
/-- The rounds of a poll cycle. -/
def State.pmbPer (s : State) : Nat := max 1 (s.pmbN 2 1)
/-- A device record. -/
def State.pdev (s : State) (i : Nat) : PmbDev := tget {} s.pmb.devs i
/-- Changes a device record. -/
def State.updPdev (s : State) (i : Nat) (f : PmbDev → PmbDev) : State :=
  s.updPmb fun p => { p with devs := tset {} p.devs i (f (tget {} p.devs i)) }
/-- The source of a device: kind 0xA (R279). -/
def pmbSrc (i : Nat) : Nat := mkSrc 10 i

/-- Whether the manager uses the bus: with a GOOD verdict's device list, not after a lockstep mismatch (R315, R320, R324). -/
def State.pmbOn (s : State) : Bool :=
  s.inst.manager && s.inst.committed && !s.inst.factory && !s.inst.lockstep && !s.inst.inReset

/-! ### Data formats (R5, R319) -/

/-- The value of a LINEAR11 word. -/
def linear11 (w : Nat) : Rat := (sext 11 w : Rat) * (let n := sext 5 (w / 2048); if 0 ≤ n then (2 : Rat) ^ n.toNat else 1 / (2 : Rat) ^ (-n).toNat)
/-- The value of a LINEAR16 word with a VOUT_MODE. -/
def linear16 (mode w : Nat) : Rat := (w : Rat) * (let n := sext 5 mode; if 0 ≤ n then (2 : Rat) ^ n.toNat else 1 / (2 : Rat) ^ (-n).toNat)
/-- A value in an unsigned 16-bit code with `k` steps per unit, to nearest with ties up, saturated. -/
def code16u (k : Nat) (q : Rat) : Nat := (clampI (nearestUp (q * k)) 0 65535).toNat
/-- A temperature code, saturated. -/
def tempCode (q : Rat) : Int := clampI (nearestUp (q * 64)) (-32768) 32767

/-! ### Discovery (R320) -/

/-- What discovery found at one address, for each entry there: a clashed address is raised for every entry and never
addressed again; a device with another VOUT_MODE than linear gives PMB_NACK with reason 5 (R319). -/
def pmbDiscovered (x : PmbAnswer) (i : Nat) (s : State) : State :=
  if s.pmbAdr i ≠ s.pmbAdr x.index.val then s
  else if !x.present then s.updPdev i fun e => { e with present := false }
  else if x.pecFail || !(x.r1 == x.r2 && x.r2 == x.r3) then
    (s.updPdev i fun e => { e with clash := true }).raise cPmbAddrClash (pmbSrc i) 0
  else
    let nolin := x.voutMode.toNat / 32 != 0
    let s := s.updPdev i fun e => { e with
      present := true, vmode := x.voutMode.toNat, pec := bit x.capability.toNat 7, nolin := nolin, nackEp := nolin }
    if nolin then s.raise cPmbNack (pmbSrc i) 5 else s

/-- PMB_DISCOVERY (R320): once, after a GOOD verdict. -/
def execPmbDiscovery (x : List PmbAnswer) (s : State) : Out :=
  if ¬ s.pmbOn ∨ s.pmb.found ∨ s.obs.frozen then .next s
  else
    let s := s.updPmb fun p => { p with found := true }
    .next (forL x (fun a s => forIdx s.pmbCount (pmbDiscovered a) s) s)

/-! ### STATUS_WORD (R323) -/

/-- The fault bits of STATUS_WORD: OFF, VOUT_OV_FAULT, IOUT_OC_FAULT, VIN_UV_FAULT and POWER_GOOD#. -/
def pmbFaultBits : List Nat := [6, 5, 4, 3, 11]

/-- Whether a device shows a fault: one of those bits, or the over-temperature fault of STATUS_TEMPERATURE, which is read
when bit 2 is set. -/
def pmbFault (st temp : Nat) : Bool := (pmbFaultBits.any (bit st)) || (bit st 2 && bit temp 7)

/-- The bits of STATUS_WORD that are no fault bits. -/
def pmbOther (st : Nat) : Nat := st - listMask (pmbFaultBits.filter (bit st))

/-- A STATUS_WORD read (R323): faults raise PMB_CONV_FAULT, other bits PMB_ALERT; without a fault the cause has ended. -/
def State.pmbStatus (s : State) (i st temp : Nat) : State :=
  let s := s.updPdev i fun e => { e with status := st }
  let s := if pmbFault st temp then s.raise cPmbConvFault (pmbSrc i) 0 else s.endCause cPmbConvFault (pmbSrc i)
  if pmbOther st ≠ 0 then s.raise cPmbAlert (pmbSrc i) st else s

/-! ### Polls (R321, R322) -/

/-- One limit of an entry: raised once per episode. -/
def State.pmbLimit (s : State) (i b code : Nat) (v : Int) (out : Bool) : State :=
  if out ∧ ¬ bit (s.pdev i).rangeEp b then
    (s.updPdev i fun e => { e with rangeEp := e.rangeEp + 2 ^ b }).raise cHkRange (pmbSrc i) (uext 16 v + code * 65536)
  else s

/-- A device's part of a cycle that answered everything (R319, R321 to R323). -/
def State.pmbTake (s : State) (i : Nat) (p : PmbPolled) : State :=
  let e := s.pdev i
  let vin := code16u 1000 (linear11 p.vin.toNat)
  let vout := if e.nolin then e.vout else code16u 1000 (linear16 e.vmode p.vout.toNat)
  let iout := code16u 100 (linear11 p.iout.toNat)
  let temp := tempCode (linear11 p.temp.toNat)
  let s := s.updPdev i fun e => { e with
    vin := vin, vout := vout, iout := iout, temp := temp, present := true, stale := false, failCnt := 0, nackEp := false, retryAt := none }
  let s := if e.nackEp then s.endCause cPmbNack (pmbSrc i) else s
  let at_ := 8 + 16 * i
  let oV := !e.nolin && (decide (vout < s.pmbN (at_ + 4) 2) || decide (s.pmbN (at_ + 6) 2 < vout))
  let oI := decide (s.pmbN (at_ + 8) 2 < iout)
  let oT := decide (sext 16 (s.pmbN (at_ + 10) 2) < temp)
  let s := ((s.pmbLimit i 0 3 vout oV).pmbLimit i 1 4 iout oI).pmbLimit i 2 5 temp oT
  let s := if !oV && !oI && !oT && (s.pdev i).rangeEp != 0 then
      (s.updPdev i fun e => { e with rangeEp := 0 }).endCause cHkRange (pmbSrc i) else s
  s.pmbStatus i p.status.toNat p.statTemp.toNat

/-- A first failed transaction is retried 100 µs later (R322). -/
def State.pmbFirstFail (s : State) (i : Nat) : State := s.updPdev i fun e => { e with retryAt := some (s.time + 25000) }

/-- A second failure ends the device's part of the cycle; the third failed cycle marks the record STALE (R322). -/
def State.pmbSecondFail (s : State) (i reason : Nat) : State :=
  let e := s.pdev i
  let n := min 3 (e.failCnt + 1)
  let s := s.updPdev i fun e => { e with retryAt := none, failCnt := n, stale := e.stale || n == 3, nackEp := true }
  if e.nackEp then s else s.raise cPmbNack (pmbSrc i) reason

/-- Whether a cycle has not ended: a retry is pending. -/
def State.pmbBusy (s : State) : Bool := (List.range s.pmbCount).any fun i => (s.pdev i).retryAt.isSome

/-- PMB_POLL (R321). A cycle that is due while the one before runs is delayed and counted; one due while frozen waits for
the thaw (R324). -/
def execPmbPoll (x : List PmbPolled) (s : State) : Out :=
  let bound := s.time % 262144 = 0 ∧ roundOf s.time % s.pmbPer = 0
  if ¬ s.pmbOn ∨ ¬ s.pmb.found ∨ ¬ (bound ∨ s.pmb.due) then .next s
  else if s.obs.frozen then .next (s.updPmb fun p => { p with due := true })
  else if s.pmbBusy then
    .next (if bound then s.updPmb fun p => { p with due := true, late := min 65535 (p.late + 1) } else s)
  else
    let s := s.updPmb fun p => { p with due := false }
    .next (forIdx s.pmbCount (fun i s =>
      if (s.pdev i).clash then s
      else match x.find? fun p => p.index.val == i with
        | some p => if p.fail.isNone then s.pmbTake i p else s.pmbFirstFail i
        | none => s.pmbFirstFail i) s)

/-- PMB_RETRY (R322). -/
def execPmbRetry (n : Fin 16) (x : PmbPolled) (s : State) : Out :=
  if ¬ s.pmbOn ∨ s.obs.frozen ∨ ¬ (s.pdev n).retryAt.any (· ≤ s.time) then .next s
  else match x.fail with
    | none => .next (s.pmbTake n x)
    | some r => .next (s.pmbSecondFail n r.val)

/-- PMB_ALERT_N (R323): what the Alert Response Address and the reads that follow returned. -/
def execPmbAlertN (x : PmbAlert) (s : State) : Out :=
  if ¬ s.pmbOn ∨ ¬ s.pmb.found ∨ s.obs.frozen then .next s
  else
    let here := (List.range s.pmbCount).filter fun i => s.pmbAdr i == x.addr.toNat && !(s.pdev i).clash
    if here.isEmpty then .next (s.raiseInst cPmbAlert x.addr.toNat)
    else .next (forL here (fun i s => match x.status.find? fun e => e.1.val == i with
      | some (_, st, t) => s.pmbStatus i st.toNat t.toNat
      | none => s) s)

end Sys2Proof.Machine
end

