-- ==== Sys2Proof/Machine/StopCore.lean ====
section
/-!
DEFINITION. The coolant stop, the die stop and the power-fail actions (R196, R198, R274, R288), apart from the freeze that
they end.
-/

namespace Sys2Proof.Machine

/-- The manager orders the coolant stop over the tether, once while it lasts (R198, R216). -/
def State.orderStop (s : State) (cause fld : Nat) : State :=
  if ¬ s.inst.manager ∨ s.mgr.coolSent ∨ s.inst.lockstep then s
  else (s.updMgr fun m => { m with coolSent := true }).broadcast 0x05 0 (cause % 2 * 2 ^ 104 + fld % 8 * 2 ^ 101)

/-- A worker that sees a loss tells the manager (R198, R216). -/
def State.tellLoss (s : State) (cause : Nat) : State :=
  if s.inst.manager ∨ s.inst.lockstep then s else s.toManager 0x0B 1 (cause % 2 * 2 ^ 104)

/-- The actions of R198 on one instance; a second loss records its raise and finds the stop taken (R300). -/
def State.coolActions (s : State) (cause : Nat) : State :=
  let s := if s.lim.coolStop then s
    else forL s.doms_ coolDomain (s.updLim fun l => { l with coolStop := true })
  s.raiseInst cCoolLoss cause

/-- The instance stops and tells the die: cause 0 coolant, 1 thermal trip or die stop (R198, R288). -/
def State.stopDie (s : State) (cause : Nat) : State :=
  ((s.coolActions cause).orderStop cause s.inst.fieldId).tellLoss cause

/-- COOL_LOSS (R198, R216): the manager stops its own instance and orders the stop. -/
def execCoolLoss (f : RxFlit) (s : State) : Out :=
  s.recv 0x0B f.ring f.flit (.coolLoss f) fun s =>
    if ¬ s.inst.manager then s else (s.coolActions (fbits f.flit 104 104)).orderStop (fbits f.flit 104 104) (fSrc f.flit)

/-- The power-fail action on one domain (R274): a bring-up in progress ends ABORTED and takes the coolant off ramp, one not
yet started ends REFUSED_PWR, and a C domain that is on takes the coolant off ramp. -/
def powerDom (d : Nat) (s : State) : State :=
  let x := s.dom d
  if x.bring.step = .waiting then s.refuseBring d .refusedPwr
  else if x.inBring then (s.abortBring d).startOff d true
  else if s.dclass d = 0 ∧ x.loop ≠ .idle then s.startOff d true
  else s

/-- The actions of PWRFAIL_N taken as asserted (R274). -/
def State.powerActions (s : State) : State :=
  let s := (s.updLim fun l => { l with pwrFail := true }).withdrawAll fun _ => true
  (forL s.doms_ powerDom s).raiseInst cPwrFail 0

/-- The actions of THERM_TRIP (R196): THERMTRIP_N is asserted until RST_N, and every domain acts as on coolant loss. -/
def State.tripActions (s : State) : State :=
  let s := (s.updLim fun l => { l with thermTrip := true }).raiseInst cThermTrip 0
  ((forL s.doms_ coolDomain s).orderStop 1 s.inst.fieldId).tellLoss 1

/-- Once COOL_LOSS has closed, M and L domains return to their targets, but not after a thermal trip, which lasts until RST_N; a
new loss orders a stop of its own (R196, R198, R199). -/
def State.coolFrame (s : State) : State :=
  if s.clsOpen cCoolLoss then s
  else
    let s := s.updMgr fun m => { m with coolSent := false }
    if s.lim.coolStop then
      forL s.doms_ (fun d s => s.updDom d fun x => if x.retain ∧ ¬ x.thHold ∧ ¬ s.lim.thermTrip then { x with retain := false } else x)
        (s.updLim fun l => { l with coolStop := false })
    else s

end Sys2Proof.Machine
end

