-- ==== Sys2Proof/Machine/Commands.lean ====
section
/-!
DEFINITION. The commands of the host other than NOP, ABORT and CLEAR_FAULT (R85, R173, R193, R268, R273, R331, R350, R355,
R357, R360, R399): what an accepted command does, and how the long ones complete.
-/

namespace Sys2Proof.Machine

/-! ### DOMAIN_ON and DOMAIN_OFF (R268, R269, R273) -/

/-- A DOMAIN_ON refused with its reason in DOM_BRING_STS (R268). -/
def State.refuseOn (s : State) (d : Nat) (st : BringSt) : State := (s.updBring d fun b => { b with status := st }).cmdEnd 2

/-- Whether a sensor of a domain, or a valid external thermistor that names it, reads at or above T_HIGH (R268). -/
def State.domHot (s : State) (d : Nat) : Bool :=
  (s.dmittens d).any (fun m => (List.range 4).any fun k =>
    let x := s.sensor (4 * m + k)
    x.has && x.valid && decide (s.tHigh (s.thermGroup m) ≤ x.reading)) ||
  (List.range s.adcEnts).any fun i => s.adcKind i == 3 && s.adcDom i == some d && (s.adc i).valid &&
    (s.adc i).roundVal.any fun t => decide (s.tHigh (s.adcGroup i) ≤ t)

/-- The body of DOMAIN_ON (R268). A domain held at retention by a T_CRIT action returns to its target without a bring-up. -/
def State.bodyOn (s : State) : State :=
  let d := s.argDom 0
  let x := s.dom d
  let held := x.thHold && x.retain
  if ¬ s.enabled d ∨ s.inst.fuseBad ∨ (¬ held ∧ (x.loop ≠ .idle ∨ x.inBring ∨ x.bring.step ≠ .idle)) then s.refuseOn d .refusedState
  else if x.thLow ∨ (x.thHold ∧ s.domHot d) then s.refuseOn d .refusedTherm
  else if s.clsOpen cCoolLoss ∨ s.lim.coolStop then s.refuseOn d .refusedCool
  else if s.lim.pwrFail then s.refuseOn d .refusedPwr
  else if held then (s.ackOff d).updDom d fun x => { x with thHold := false, retain := false, bring := { x.bring with resume := true } }
  else (s.ackOff d).updDom d fun x => { x with thHold := false, bring := { x.bring with
    status := .waiting, step := .waiting, startAt := none, offAt := none, retryRun := false } }

/-- DOMAIN_ON (R268). Before READY it is refused with the reason in DOM_BRING_STS. -/
def execDomainOn (priv : Bool) (s : State) : Out :=
  match s.runCmd 2 true false priv false State.bodyOn with
  | .next t =>
    if s.hostUp ∧ priv ∧ ¬ s.host.cmd.isSome ∧ ¬ s.inst.ready then
      .next (t.updBring (s.host.arg.toNat % 32) fun b => { b with status := .refusedState })
    else .next t
  | o => o

/-- A returning domain has reached its target: READY (R268). -/
def State.resumed (s : State) (d : Nat) (accAt : Nat) : State :=
  let x := s.dom d
  if nextFrame accAt + 16 ≤ s.time ∧ x.vset = x.vtgt ∧ x.vel = 0 then
    (s.updBring d fun b => { b with resume := false, status := .ready }).cmdEnd 1
  else s

/-- DOMAIN_ON completes when DOM_BRING_STS holds a final code (R269, R399). -/
def State.pollOn (s : State) (c : Cmd) : State :=
  let d := c.arg.toNat % 32
  let b := (s.dom d).bring
  if b.resume then s.resumed d c.accAt
  else match b.status with
    | .waiting | .running => s
    | .refusedState | .refusedTherm | .refusedCool | .refusedPwr => s.cmdEnd 2
    | .none | .ready | .short | .capWindow | .dark | .bridleFail | .window | .aborted | .off | .protect => s.cmdEnd 1

/-- The body of DOMAIN_OFF (R273): one domain from the next frame boundary, or every domain by a die decision. -/
def State.bodyOff (s : State) : State :=
  if bit s.cmdArg 8 then
    if ¬ s.inst.manager then s.cmdEnd 2
    else
      let eff := decisionTick s.time
      (s.addDec eff .offAll).cmdAt eff 1
  else
    let d := s.argDom 0
    let x := s.dom d
    if ¬ s.enabled d ∨ x.bring.step.falling ∨ (x.loop = .idle ∧ ¬ x.inBring) then s.cmdEnd 2
    else s.updBring d fun b => { b with offAt := some (nextFrame s.time) }

/-- DOMAIN_OFF of one domain (R273); the form with ALL has a row of its own. -/
def execDomainOff (priv : Bool) (s : State) : Out :=
  if bit s.host.arg.toNat 8 then .next s else s.runCmd 3 true false priv false State.bodyOff

/-- DOMAIN_OFF ALL (R273). -/
def execDomainOffAll (priv : Bool) (s : State) : Out :=
  if bit s.host.arg.toNat 8 then s.runCmd 3 true true priv false State.bodyOff else .next s

/-- DOMAIN_OFF completes when the domain is off (R399). -/
def State.pollOff (s : State) (c : Cmd) : State :=
  let x := s.dom (c.arg.toNat % 32)
  if bit c.arg.toNat 8 then s
  else if x.loop = .idle ∧ x.bring.step = .idle ∧ x.bring.offAt.isNone then s.cmdEnd 1 else s

/-- The commands that complete by what they started. -/
def State.pollCmd (s : State) : State :=
  match s.host.cmd with
  | none => s
  | some c => if c.held then s else if c.code = 2 then s.pollOn c else if c.code = 3 then s.pollOff c else s

/-! ### SET_MODE, AUTOTUNE and SET_CAP (R85, R173, R193, R206) -/

/-- The body of SET_MODE: a die decision, which waits for the next allocation where a SET_CAP value does (R206). -/
def State.bodyMode (s : State) : State :=
  let m := modeOf (s.cmdArg % 4)
  if s.mgr.capPend = some (roundOf s.time) then s.updMgr fun g => { g with modeHold := some m } else s.sendMode (decisionTick s.time) m

/-- SET_MODE (R173). -/
def execSetMode (priv : Bool) (s : State) : Out := s.runCmd 4 true true priv false State.bodyMode

/-- Why an auto-tune of a domain does not start (R85, R87). -/
def State.tuneRefusal (s : State) (d : Nat) : Option Nat :=
  let x := s.dom d
  if s.grounded then some 8
  else if x.loop ≠ .closed ∨ x.vset ≠ x.vtgt ∨ x.vel ≠ 0 ∨ x.acc ≠ 0 then some 9
  else if (s.trustedPts d).isEmpty then some 10
  else if s.dclass d = 0 ∧ !(s.tks fun t => s.tkDom t == some d && !t.state.final && t.state != .requested && t.state != .queued).isEmpty then some 11
  else none

/-- The body of AUTOTUNE (R85): N is 4 to 64, and 0 selects 16; another N is refused. -/
def State.bodyTune (s : State) : State :=
  let d := s.argDom 0
  let n := s.cmdArg / 256 % 256
  match s.tuneRefusal d with
  | some r => (s.updDom d fun x => { x with tuneRes := r }).cmdEnd 2
  | none =>
    if n ≠ 0 ∧ (n < 4 ∨ 64 < n) then s.cmdEnd 2
    else
      let s := s.updDom d fun x => { x with tuneRes := 14, tuneCyc := 0 }
      s.updInst fun i => { i with tuneRun := some { dom := d, n := if n = 0 then 16 else n, start := s.time, lastSwitch := s.time, vtgt := (s.dom d).vtgt } }

/-- AUTOTUNE (R85). -/
def execAutotune (priv : Bool) (s : State) : Out := s.runCmd 5 true false priv false State.bodyTune

/-- The sum of every field's floors and the A-class power of the last round (R193). -/
def State.capFloorSum (s : State) : Nat := (s.mgr.roster.map fun f => (s.report f).f.sum + (s.report f).aPow).sum

/-- The body of SET_CAP (R180, R193). -/
def State.bodyCap (s : State) : State :=
  let tgt := s.cmdArg % 4
  let v := s.lim.capNew
  let none_ := tgt < 2 ∧ v = 0x7FFFFFFF
  let fits := if tgt < 2 then none_ ∨ (500000 ≤ v ∧ v ≤ 12000000) else tgt = 2 ∧ 1000000 ≤ v ∧ v ≤ 12000000
  if ¬ fits ∨ (v < s.capFloorSum ∧ ¬ s.lim.capForce) then s.cmdEnd 2
  else
    let w := if none_ then 0xFFFFFFFF else v
    (s.updMgr fun m => match tgt with
      | 0 => { m with capW1 := w, capPend := some (roundOf s.time) }
      | 1 => { m with capW2 := w, capPend := some (roundOf s.time) }
      | _ => { m with diePlim := w, capPend := some (roundOf s.time) }).cmdEnd 1

/-- SET_CAP (R193). -/
def execSetCap (priv : Bool) (s : State) : Out := s.runCmd 0xC true true priv false State.bodyCap

/-! ### FREEZE, THAW, DUMP, SNAPSHOT and FLUSH_LOG -/

/-- The body of FREEZE (R350): DONE at Tf + 1. -/
def State.bodyFreeze (s : State) : State :=
  if ¬ s.mayFreeze then s.cmdEnd 2 else s.schedFreeze.cmdAt (s.time + 17) 1

/-- FREEZE (R350). -/
def execFreeze (priv : Bool) (s : State) : Out := s.runCmd 6 true true priv false State.bodyFreeze

/-- The body of THAW (R355): Tt is the tick of acceptance plus 16, sent on both rings; DONE at Tt. -/
def State.bodyThaw (s : State) : State :=
  if ¬ (s.obs.frozen ∨ s.obs.tf.isSome) then s.cmdEnd 2
  else
    let s := s.setThaw (s.time + 16)
    (s.broadcast 0x07 0 (t64 (s.obs.tt.getD 0) 41)).cmdAt (s.obs.tt.getD 0) 1

/-- THAW (R355). -/
def execThaw (priv : Bool) (s : State) : Out := s.runCmd 7 true true priv false State.bodyThaw

/-- The body of DUMP (R360): T_d 0 names the first sample of the next frame. -/
def State.bodyDump (s : State) : State :=
  if ¬ s.dumpOk then s.cmdEnd 2
  else s.updObs fun o => { o with
    dumpBusy := true, dumpValid := false, dumpFrozen := false, dumpAborted := false, dumpBad := 0, dumpLen := 0
    dumpT := if o.dumpAt = 0 then nextFrame s.time else o.dumpAt }

/-- DUMP (R360). -/
def execDump (priv : Bool) (s : State) : Out := s.runCmd 8 true false priv false State.bodyDump

/-- The body of SNAPSHOT (R357): latched at the first frame start after acceptance, or at acceptance during a freeze. -/
def State.bodySnap (s : State) : State :=
  if s.obs.frozen then s.latchSnap else s.updObs fun o => { o with snapAt := some (nextFrame s.time) }

/-- SNAPSHOT (R357). -/
def execSnapshot (priv : Bool) (s : State) : Out := s.runCmd 9 true false priv false State.bodySnap

/-- The body of FLUSH_LOG (R331): refused on a worker, under NOLOG and while writes are forbidden. -/
def State.bodyFlush (s : State) : State :=
  if s.log.noLog ∨ ¬ s.log.winOpen then s.cmdEnd 2
  else
    let keys := s.unwritten.map Rec.key
    if keys.isEmpty then s.cmdEnd 1
    else s.updLog fun l => { l with waitCmd := keys, flushTrig := true, failHalt := false }

/-- FLUSH_LOG (R331). -/
def execFlushLog (priv : Bool) (s : State) : Out := s.runCmd 0xA true true priv false State.bodyFlush

/-- The body of an accepted command by its code, as it runs at acceptance or, held by a freeze, at the thaw (R351, R423). -/
def State.cmdBody (s : State) (code : Nat) : State :=
  match code with
  | 2 => s.bodyOn | 3 => s.bodyOff | 4 => s.bodyMode | 5 => s.bodyTune | 0xA => s.bodyFlush | 0xB => s.decideClear | 0xC => s.bodyCap
  | _ => s

end Sys2Proof.Machine
end

