-- ==== Sys2Proof/Machine/Abort.lean ====
section
/-!
DEFINITION. ABORT and LOCKSTEP (R292, R293, R297 to R300, R425): each function's safe state. It acts at acceptance and completes at the next frame
start, within the two frames of R298; one accepted while frozen acts at the thaw tick.
-/

namespace Sys2Proof.Machine

/-- Function 0x1: a bring-up in steps 1 to 3 of R261 ends ABORTED and the off sequence starts; a DOM_VREQ move is left at the
set-point in force. Answers RESULT. -/
def State.stopRamp (s : State) (d : Nat) : State × Nat :=
  let x := s.dom d
  let moving := x.vset ≠ x.vtgt ∨ x.vel ≠ 0
  if x.bring.step.falling ∨ (x.retain ∧ moving) then (s, 2)
  else if x.inBring ∧ (x.bring.step = .precharge ∨ x.bring.step = .capTest ∨ x.bring.step = .ramp) then ((s.abortBring d).startOff d false, 1)
  else if x.loop = .closed ∧ x.vreqEn ∧ moving then (s.updDom d fun x => { x with vreqCode := x.vset }, 1)
  else (s, 3)

/-- Function 0x2: the last stage on switches off at once, the others follow in reverse at their intervals, and the domain
stays CLOSED with status ABORTED (R267, R275). -/
def State.stopBridle (s : State) (d : Nat) : State × Nat :=
  match (s.dom d).bring.step with
  | .bridleWait | .bridle | .backOut | .gap =>
    let s := (s.abortBring d).updBring d fun b => { b with stages := b.stages.tail }
    (s.backOut d, 1)
  | .idle | .waiting | .precharge | .capTest | .ramp | .up | .stagesOff | .rampDown | .stopping => (s, 3)

/-- Function 0x3: TUNE is left at the next sample boundary with RESULT ABORTED (R87, R98). -/
def State.stopTune (s : State) (d : Nat) : State × Nat := let r := s.tuneAbort d; (r.1, if r.2 then 1 else 3)

/-- Function 0x4: no new flash command is issued; refused for a power-fail flush. -/
def State.stopFlush (s : State) : State × Nat :=
  if s.log.pfMode then (s, 2)
  else if s.log.flushing ∨ s.log.flushTrig then (s.updLog fun l => { l with flushing := false, flushTrig := false, waitCmd := [] }, 1)
  else (s, 3)

/-- Function 0x5: the dump stops, and its output is marked invalid (R361). -/
def State.stopDump (s : State) (old : Option Cmd) : State × Nat :=
  if s.obs.dumpBusy ∨ old.any (·.code == 8) then (s.updObs fun o => { o with dumpBusy := false, dumpAborted := true, dumpValid := false }, 1)
  else (s, 3)

/-- Function 0x6: trace stops; the buffer stays readable. -/
def State.stopTrace (s : State) : State × Nat :=
  if s.obs.trcEn then (s.updObs fun o => { o with trcEn := false }, 1) else (s, 3)

/-- Function 0x7: the snapshot stops, and VALID is cleared (R357). -/
def State.stopSnap (s : State) : State × Nat :=
  if s.obs.snapAt.isSome then
    (s.updObs fun o => { o with snapAt := none, snapMem := tset 0 o.snapMem 0 (tget 0 o.snapMem 0 &&& 0xFE) }, 1)
  else (s, 3)

/-- A step's outcome where the BUSY command ends: REFUSED where the function is, else DONE (R425). -/
def doneUnless (x : State × Nat) : State × Nat := (x.1, if x.2 = 2 then 2 else 1)

/-- A bring-up that waits for its start is cancelled (R425). -/
def State.cancelWaiting (s : State) (d : Nat) : State :=
  s.updDom d fun x => ({ x with bring := { x.bring with status := .aborted, step := .idle, startAt := none, winEnd := none } }).endRetry s.time

/-- Function 0x0: the BUSY command reaches its safe state (R425). -/
def State.stopBusy (s : State) (old : Option Cmd) : State × Nat :=
  match old with
  | none => (s, 3)
  | some c =>
    let d := c.arg.toNat % 32
    if c.held then (s, 1)
    else match c.code with
      | 2 =>
        if (s.dom d).bring.step = .waiting then (s.cancelWaiting d, 1)
        else
          let r := s.stopBridle d
          if r.2 = 1 then r else doneUnless (s.stopRamp d)
      | 4 => (s.updMgr fun m => { m with modeHold := none }, 1)
      | 5 => doneUnless (s.stopTune d)
      | 8 => doneUnless (s.stopDump old)
      | 9 => doneUnless s.stopSnap
      | 0xA => doneUnless s.stopFlush
      | 0xB => (s.updFlt fun f => { f with
          occs := f.occs.map fun o => { o with closing := o.closing && !tileTested o.cls }
          clearAt := f.clearAt.map fun _ => nextFrame s.time }, 1)
      | _ => (s, 1)

/-- What ABORT with an argument does, and its RESULT; codes 0x8 to 0xF are refused (R298). -/
def State.abortFn (s : State) (arg : Nat) (old : Option Cmd) : State × Nat :=
  let d := arg / 256 % 32
  match arg % 16 with
  | 0 => s.stopBusy old
  | 1 => s.stopRamp d
  | 2 => s.stopBridle d
  | 3 => s.stopTune d
  | 4 => s.stopFlush
  | 5 => s.stopDump old
  | 6 => s.stopTrace
  | 7 => s.stopSnap
  | _ => (s, 2)

/-- Whether a rung decided in this frame turns a domain off (R289). -/
def State.rungEnds (s : State) (d : Nat) : Bool :=
  let mine := (s.flt.rungs.filter fun r => r.1 == 4 || s.rungHits r.2.1 r.2.2 d).map (·.1)
  mine.contains 4 || (mine.contains 2 && !mine.contains 3)

/-- Whether a rung decided in this frame ends the function that an ABORT names: functions 0x1 and 0x2 end with the domain,
0x3 also with GROUNDED; with function 0x0 the function is that of the BUSY command (R289, R300, R425). -/
def State.rungFirst (s : State) (arg : Nat) (old : Option Cmd) : Bool :=
  let tune (d : Nat) : Bool := s.rungEnds d || s.flt.rungs.any (·.1 == 3)
  match arg % 16 with
  | 0 => old.any fun c => (c.code == 2 && s.rungEnds (c.arg.toNat % 32)) || (c.code == 5 && tune (c.arg.toNat % 32))
  | 1 | 2 => s.rungEnds (arg / 256 % 32)
  | 3 => tune (arg / 256 % 32)
  | _ => false

/-- Takes an ABORT's effect and schedules its completion (R298). A rung of the same frame acts first, and the ABORT then finds
nothing running (R300). -/
def State.abortNow (s : State) (arg : Nat) (old : Option Cmd) : State :=
  let r := s.abortFn arg old
  if s.rungFirst arg old ∧ r.2 = 1 then s.cmdAt (nextFrame s.time) 3 else r.1.cmdAt (nextFrame s.time) r.2

/-- A write of ABORT to `CMD` with a function code that the row names (R297, R299). -/
def State.runAbort (s : State) (mine : Nat → Bool) (priv : Bool) : Out :=
  if ¬ mine (s.host.arg.toNat % 16) then .next s
  else
    let old := s.host.cmd
    s.runCmd 1 false false priv false fun t =>
      if t.obs.frozen then t.updObs fun o => { o with abortHeld := some (t.cmdArg, old) } else t.abortNow t.cmdArg old

/-- ABORT 0x0 (R425), and the reserved function codes (R298). -/
def execAbortBusyCommand (priv : Bool) (s : State) : Out := s.runAbort (fun k => k == 0 || 8 ≤ k) priv
/-- ABORT 0x1 (R298). -/
def execAbortDomainRamp (priv : Bool) (s : State) : Out := s.runAbort (· == 1) priv
/-- ABORT 0x2 (R298). -/
def execAbortBridle (priv : Bool) (s : State) : Out := s.runAbort (· == 2) priv
/-- ABORT 0x3 (R298). -/
def execAbortAutotune (priv : Bool) (s : State) : Out := s.runAbort (· == 3) priv
/-- ABORT 0x4 (R298). -/
def execAbortLogFlush (priv : Bool) (s : State) : Out := s.runAbort (· == 4) priv
/-- ABORT 0x5 (R298). -/
def execAbortDump (priv : Bool) (s : State) : Out := s.runAbort (· == 5) priv
/-- ABORT 0x6 (R298). -/
def execAbortTrace (priv : Bool) (s : State) : Out := s.runAbort (· == 6) priv
/-- ABORT 0x7 (R298). -/
def execAbortSnapshot (priv : Bool) (s : State) : Out := s.runAbort (· == 7) priv

/-! ### Lockstep (R292, R293, R300) -/

/-- The command under way ends REFUSED (R300). -/
def State.dropCmd (s : State) : State := if s.host.cmd.isSome then s.cmdEnd 2 else s

/-- The functions that ran are left in their safe states, an auto-tune with RESULT ABORTED (R298, R300). -/
def State.dropRunning (s : State) : State :=
  let s := if s.inst.tuneRun.isSome then s.dropCmd.tuneFinish 1 else s.dropCmd
  ((((s.stopFlush).1.stopDump none).1.stopTrace).1.stopSnap).1

/-- A lockstep mismatch ends a bring-up in its safe state: a bridle sequence backs out, one not begun is cancelled, and another
takes the off sequence (R293, R298, R300, R425). -/
def lockstepDom (d : Nat) (s : State) : State :=
  let r := s.stopBridle d
  if r.2 = 1 then r.1
  else if (s.dom d).bring.step = .waiting then s.cancelWaiting d
  else if (s.dom d).inBring then (s.abortBring d).startOff d false
  else s

/-- LOCKSTEP (R292, R293): the sequencer takes over at once. -/
def execLockstep (s : State) : Out :=
  if s.inst.lockstep ∨ ¬ s.inst.fuseDone then .next s
  else
    let s := ((s.updInst fun n => { n with lockstep := true }).raiseInst cLockstep 0).dropRunning
    let s := (s.raiseInst cGroundedEntry 2).enterGround 4
    .next (forL s.doms_ lockstepDom s)

end Sys2Proof.Machine
end

