-- ==== Sys2Proof/Machine/HostWrite.lean ====
section
/-!
DEFINITION. Writes of host registers (R6, R242, R391, R394 to R397, R401 to R423): the address map, the answer of the host
port, the registers with behaviour of their own, and the others under their access codes. A write to a register of a stopped
function waits for the thaw tick (R423).
-/

namespace Sys2Proof.Machine

/-! ### The address map (R401) -/

/-- Whether a byte offset names a register: the ranges of R401 without the gaps within them (R391). -/
def regMapped (a : Nat) : Bool :=
  if a < 0x2C then true
  else if 0x100 ≤ a ∧ a < 0x140 then a == 0x100 || 0x110 ≤ a
  else if 0x1000 ≤ a ∧ a < 0x1300 then a < 0x1024 || 0x1100 ≤ a
  else if 0x2000 ≤ a ∧ a < 0x2080 then a < 0x2020 || 0x2040 ≤ a
  else if 0x3000 ≤ a ∧ a < 0x3018 then a != 0x300C
  else if 0x3100 ≤ a ∧ a < 0x3D00 then a < 0x3218 || 0x3300 ≤ a
  else if 0x4000 ≤ a ∧ a < 0x4168 then a < 0x402C || a == 0x4100 || (0x4108 ≤ a && a < 0x4134) || 0x4140 ≤ a
  else if 0x8000 ≤ a ∧ a < 0xA000 then a % 256 < 0x9C && a % 256 != 0x8C
  else if 0x10000 ≤ a ∧ a < 0x11860 then a < 0x11838 || 0x11840 ≤ a
  else if 0x20000 ≤ a ∧ a < 0x20300 then
    a < 0x20010 || (0x20020 ≤ a && a < 0x20030) || (0x20100 ≤ a && a < 0x20180) || (0x20200 ≤ a && a < 0x20280)
  else if 0x21000 ≤ a ∧ a < 0x21800 then true
  else if 0x30000 ≤ a ∧ a < 0x30024 then true
  else if 0x40000 ≤ a ∧ a < 0x40400 then a % 128 < 0x50
  else if 0x40400 ≤ a ∧ a < 0x40468 then a != 0x4042C && a != 0x4045C
  else if 0x41000 ≤ a ∧ a < 0x41400 then true
  else if 0x42000 ≤ a ∧ a < 0x43200 then true
  else if 0x44000 ≤ a ∧ a < 0x48100 then true
  else if 0x50000 ≤ a ∧ a < 0x50180 then a < 0x50020 || 0x50100 ≤ a
  else if 0x58000 ≤ a ∧ a < 0x68000 then true
  else (0x80000 ≤ a && a < 0x8000C) || (0x80100 ≤ a && a < 0x80200)

/-- The offset of a word of a domain record (R411). -/
def domAddr (d off : Nat) : Nat := 0x8000 + 256 * d + off
/-- The offset of a word of a tile record (R413). -/
def tileAddr (t off : Nat) : Nat := 0x10000 + 32 * t + off

/-! ### The answer to a write (R242, R391, R395 to R397, R423) -/

/-- No verdict yet: the registers of the image answer REFUSED (R242). -/
def State.beforeVerdict (s : State) : Bool := s.inst.verdict == 0 && !s.inst.factory

/-- A write that waits for the thaw (R423). -/
def State.holdWrite (s : State) (a w : Nat) : State := s.updHost fun h => { h with late := h.late ++ [(a, BitVec.ofNat 32 w)] }

/-- A write as the host port answers it: PRIV, REFUSED after a lockstep mismatch, before the verdict (`early`) or where the
owner rule refuses it (`bad`, with what that records), else OKAY with its effect, which a freeze may delay (`frz`). -/
def State.hostPut (s : State) (a w : Nat) (priv early frz bad : Bool) (note put : State → State) : Out :=
  if ¬ s.hostUp then .next s
  else if ¬ priv then .next (s.privFail a true)
  else if s.inst.lockstep then .next s.refuse
  else if early && s.beforeVerdict then .next s.refuse
  else if bad then .next (note s).refuse
  else if frz && s.obs.frozen then .next (s.holdWrite a w).okay
  else .next (put s).okay

/-! ### Domain records (R73, R81, R175, R412) -/

/-- DOM_VREQ written. -/
def putVreq (d w : Nat) (s : State) : State := s.updDom d fun x => { x with vreqCode := w % 4096, vreqEn := bit w 15 }
/-- Whether R73 refuses a value of DOM_VREQ; with EN clear any CODE is accepted. -/
def vreqBad (w : Nat) : Bool := bit w 15 && (w % 4096 < 900 || 2100 < w % 4096)

/-- DOM_VREQ (R73, R412). -/
def execDomVreq (d : Fin 32) (w : Word) (priv : Bool) (s : State) : Out :=
  s.hostPut (domAddr d 0x10) w.toNat priv true true (vreqBad w.toNat) (fun s => s.updDom d fun x => { x with stsVreqRef := true })
    (putVreq d w.toNat)

/-- DOM_UCAL written: POINT is selected; SET 1 sets its offset, clamped to ±100, for the next frame. -/
def putUcal (d w : Nat) (s : State) : State :=
  let k := w % 16
  let v := sext 16 (w / 65536)
  let s := s.updDom d fun x => { x with ucPoint := k }
  if bit w 15 then
    s.updDom d fun x => { x with
      ucNext := ((List.range 16).map fun j => nth 0 x.ucNext j).set k (clampI v (-100) 100)
      stsUcal := x.stsUcal || v < -100 || 100 < v }
  else s

/-- DOM_UCAL (R175, R412). -/
def execDomUcal (d : Fin 32) (w : Word) (priv : Bool) (s : State) : Out :=
  s.hostPut (domAddr d 0x1C) w.toNat priv true true false id (putUcal d w.toNat)

/-- DOM_LAW_B written: the user law is committed for the next frame. -/
def putLawB (d w : Nat) (s : State) : State :=
  s.updDom d fun x => { x with lawKd := w % 65536, lawUlim := w / 65536 % 4096, lawPend := true }
/-- Whether R412 refuses a ULIM. -/
def ulimBad (w : Nat) : Bool := w / 65536 % 4096 < 20 || 240 < w / 65536 % 4096

/-- DOM_LAW_B (R260, R412). -/
def execDomLawB (d : Fin 32) (w : Word) (priv : Bool) (s : State) : Out :=
  s.hostPut (domAddr d 0x94) w.toNat priv true true (ulimBad w.toNat) id (putLawB d w.toNat)

/-- DOM_PG written: the limits for the next frame. -/
def putPg (d w : Nat) (s : State) : State := s.updDom d fun x => { x with pgNext := some (bits w 6 0, bits w 16 7, bits w 30 17) }
/-- Whether a limit lies outside R81. -/
def pgBad (w : Nat) : Bool :=
  let (v, a, j) := (bits w 6 0, bits w 16 7, bits w 30 17)
  v < 1 || 100 < v || a < 2 || 1000 < a || j < 10 || 10000 < j

/-- DOM_PG (R81, R412). -/
def execDomPg (d : Fin 32) (w : Word) (priv : Bool) (s : State) : Out :=
  s.hostPut (domAddr d 0x98) w.toNat priv true true (pgBad w.toNat) id (putPg d w.toNat)

/-! ### Tile records and parameters (R60, R413, R414) -/

/-- TILE_CTL written: its commands are queued at the first sample of the next frame. -/
def putTileCtl (t w : Nat) (s : State) : State :=
  let s := if bits w 7 4 = 0 then s else s.sendNext t (.retirePhase (bits w 7 4))
  if bit w 0 then s.sendNext t .retireTile else s

/-- TILE_CTL with RETIRE set (R413). -/
def execTileCtlRetire (t : Fin 192) (w : Word) (priv : Bool) (s : State) : Out :=
  if bit w.toNat 0 then s.hostPut (tileAddr t 0x18) w.toNat priv true true false id (putTileCtl t w.toNat) else .next s

/-- TILE_CTL with a nonzero RPHASE (R413). -/
def execTileCtlRphase (t : Fin 192) (w : Word) (priv : Bool) (s : State) : Out :=
  if bits w.toNat 7 4 ≠ 0 then s.hostPut (tileAddr t 0x18) w.toNat priv true true false id (putTileCtl t w.toNat) else .next s

/-- The CFG words that keep a halved ks in force for the tiles of a chain after a new ks for all of them (R97). -/
def keptKs (s : State) (q : Nat) : List SpineWord :=
  ((List.range 24).map (24 * q + ·)).filterMap fun t =>
    let ks := (s.mitten (t / 6)).ksNow
    if ks = 0 then none else some (tileWord t (.cfg 7 ks))

/-- TILE_PAR[k] written: every tile of the instance gets the parameter in a CFG word queued at the first sample of the next
frame. -/
def putPar (k w : Nat) (s : State) : State :=
  let s := { s with tilePar := s.tilePar.put k (parValue k (w % 65536)) }
  forL ((List.range 8).filter fun q => tget 0 s.spine.len q != 0) (fun q s => s.updSpine fun p => { p with
    nextQ := p.nextQ ++ ({ chain := q, pos := 31, all := true, word := .cfg k (w % 65536), grp := 0 } ::
      if k = 7 then keptKs s q else []) }) s
/-- Whether a code lies outside the range of parameter k. -/
def parBad (k w : Nat) : Bool :=
  let v := parValue k (w % 65536)
  v < (parRange k).1 || (parRange k).2 < v

/-- TILE_PAR (R414); entries 14 and 15 answer DECERR. -/
def execTilePar (k : Fin 24) (w : Word) (priv : Bool) (s : State) : Out :=
  if ¬ s.hostUp then .next s
  else if ¬ parIndex k then .next (s.rsp .decerr 0)
  else s.hostPut (0x11800 + 4 * k) w.toNat priv true true (s.host.lock || parBad k w.toNat) id (putPar k w.toNat)

/-! ### Ticket unit (R112, R128, R129, R415, R416) -/

/-- TKT_QMAX written: tickets already queued keep their expiry ticks. -/
def putQmax (w : Nat) (s : State) : State := s.updTk fun t => { t with qmax := w % 2 ^ 24 }
/-- TKT_QMAX (R112). -/
def execTktQmax (w : Word) (priv : Bool) (s : State) : Out :=
  s.hostPut 0x20008 w.toNat priv true true (w.toNat % 2 ^ 24 < 1024) id (putQmax w.toNat)

/-- TKT_SG_LEAD written; on a worker without effect. -/
def putSgLead (w : Nat) (s : State) : State := if s.inst.manager then s.updTk fun t => { t with sgLead := w % 8192 } else s
/-- TKT_SG_LEAD (R129, R396). -/
def execTktSgLead (w : Word) (priv : Bool) (s : State) : Out :=
  s.hostPut 0x2000C w.toNat priv true true (s.inst.manager && (w.toNat % 8192 < 192 || 4096 < w.toNat % 8192)) id (putSgLead w.toNat)

/-- Every queued member of a group leaves (R128): each set of the group that is not committed is named to its fields and
withdrawn (log entry 29). -/
def State.dropGroup (s : State) (g : Nat) : State :=
  let s := forL (s.mgr.sgSets.filter fun x => x.group == g && !x.committed) (fun x s =>
    let k := x.setId.getD s.mgr.setCtr
    let y := { x with setId := some k }
    let s := s.updMgr fun m => { m with setCtr := if x.setId.isSome then m.setCtr else (m.setCtr + 1) % 256 }
    let s := forL y.fields (fun f s => s.unicast 0x1F 1 f (y.head + y.job * 2 ^ 75 + y.layer * 2 ^ 59 + y.oper * 2 ^ 43)) s
    s.broadcast 0x15 1 y.head) s
  let s := s.updMgr fun m => { m with sgSets := m.sgSets.filter fun x => !(x.group == g && !x.committed) }
  forL ((s.tks fun x => x.sync && x.group == g && (x.state == .queued || x.state == .requested)).map (·.1))
    (fun i s => (s.finish i .withdrawn).respond (s.ticket i).cluster 0x3 i s.time) s

/-- A word of TKT_SG_MASK written; on a worker without effect. -/
def putSgMask (g i w : Nat) (s : State) : State :=
  if s.inst.manager then (s.dropGroup g).updMgr fun m => { m with sgMask := tset none m.sgMask (8 * g + i) (some (BitVec.ofNat 32 w)) }
  else s
/-- TKT_SG_MASK (R128, R396, R416). -/
def execTktSgMask (g : Fin 64) (i : Fin 8) (w : Word) (priv : Bool) (s : State) : Out :=
  s.hostPut (0x21000 + 32 * g + 4 * i) w.toNat priv true true false id (putSgMask g i w.toNat)

/-! ### Housekeeping and telemetry (R305, R311, R407) -/

/-- HK_CTL.LP written: the mode applies at the next scan start. -/
def putHk (w : Nat) (s : State) : State := s.updHk fun h => { h with lpNext := some (bit w 0, s.time) }
/-- HK_CTL (R305): a mode in which the sequence does not fit is refused. -/
def execHkCtl (w : Word) (priv : Bool) (s : State) : Out :=
  s.hostPut 0x3000 w.toNat priv true false (!s.adcFitsIn (bit w.toNat 0)) (fun s => s.updHk fun h => { h with lpRefused := true })
    (putHk w.toNat)

/-- TLM_CTL.WIN written. -/
def putTlm (w : Nat) (s : State) : State := s.updHk fun h => { h with win := w % 8 }
/-- TLM_CTL (R311, R407). -/
def execTlmCtl (w : Word) (priv : Bool) (s : State) : Out :=
  s.hostPut 0x3010 w.toNat priv true false (w.toNat % 8 == 7) id (putTlm w.toNat)

/-! ### Budgets and the lock (R161, R162, R402 to R404) -/

/-- The values that a write of ENG_BUD2 submits: B_DL, B_FC, B_AT, B_DT, B_SV, FC_PERIOD. -/
def State.budgets (s : State) (w : Nat) : List Nat := s.eng.budW.take 4 ++ [w % 65536, bits w 23 16]
/-- Whether values break R161. -/
def State.budBad (s : State) (l : List Nat) : Bool :=
  let b := l.take 5
  !(b.all (· % 16 == 0) && b.sum == 1024 && s.eng.need ≤ nth 0 l 0 && nth 0 l 0 ≤ 640 && 16 ≤ nth 0 l 4 && [4, 8, 16].contains (nth 0 l 5))
/-- ENG_BUD2 written; COMMIT submits the values for the next frame. -/
def putBud (w : Nat) (s : State) : State :=
  s.updEng fun e => { e with budW := s.budgets w, budPend := if bit w 31 then some (s.budgets w) else e.budPend }
/-- ENG_BUD2 with COMMIT (R162, R404). -/
def execEngBudCommit (w : Word) (priv : Bool) (s : State) : Out :=
  if ¬ bit w.toNat 31 then .next s
  else s.hostPut 0x138 w.toNat priv true true (s.host.lock || s.budBad (s.budgets w.toNat))
    (fun s => if s.host.lock then s else s.updEng fun e => { e with budRefused := true }) (putBud w.toNat)

/-- CTL.LOCK (R402): once set, only RST_N clears it. -/
def execCtlLock (w : Word) (priv : Bool) (s : State) : Out :=
  s.hostPut 0x8 w.toNat priv false false false id fun s => s.updHost fun h => { h with lock := h.lock || bit w.toNat 0 }

/-! ### Table window (R421, R422) -/

/-- The start of the supervisor window of the running sample (R160). -/
def State.supWindow (s : State) : Nat := 16 * (s.time / 16) + (64 - s.eng.bSv / 16) / 4

/-- TBL_PAGE written: RDY clears, and the next two supervisor windows copy the page into the staging buffer. -/
def putPage (w : Nat) (s : State) : State :=
  let n := s.time / 16 + if s.time < s.supWindow then 2 else 3
  let pg := w % 8192
  s.updEng fun e => { e with tblPage := pg, tblBuf := writeBytes 0 [] 0 (s.pageBytes pg), tblRdyAt := some (16 * n) }

/-- TBL_STS.RDY. -/
def State.tblRdy (s : State) : Bool := s.eng.tblRdyAt.any (· ≤ s.time)

/-- TBL_PAGE (R422): it needs no privilege. -/
def execTblPage (w : Word) (s : State) : Out := s.hostPut 0x80000 w.toNat true false true false id (putPage w.toNat)

/-- Whether a commit is refused: a 129th host-modified page, a profile page that a live ticket names, or the lock (R422). -/
def State.commitBad (s : State) : Bool :=
  let pg := s.eng.tblPage
  s.host.lock || (!s.eng.hmod.contains pg && 128 ≤ s.eng.hmod.length) ||
    (0x1800 ≤ pg && !(s.tks fun x => x.profile / 2 + 0x1800 == pg && !x.state.final).isEmpty)

/-- TBL_COMMIT written: RDY clears, and the page changes at one window boundary in the following 4 samples. -/
def putCommit (s : State) : State :=
  let t := 16 * (s.time / 16 + 5)
  s.updEng fun e => { e with tblCommit := some (e.tblPage, t), tblRdyAt := some t, tblRefused := false }

/-- TBL_COMMIT (R422). -/
def execTblCommit (w : Word) (priv : Bool) (s : State) : Out :=
  if ¬ bit w.toNat 0 then s.hostPut 0x80008 w.toNat priv true false false id id
  else s.hostPut 0x80008 w.toNat priv true true s.commitBad (fun s => s.updEng fun e => { e with tblRefused := true }) putCommit

/-! ### Job table (R203, R410, R420) -/

/-- NRG_JOB_REL written: the entry of the job is freed and becomes the next one taken. -/
def putJobRel (w : Nat) (s : State) : State :=
  match s.mgr.jobs.find? fun e => e.2.valid && e.2.job == w % 65536 with
  | some (i, _) => if s.inst.manager then s.updMgr fun m => { m with jobs := tset {} m.jobs i {}, jobFree := i :: m.jobFree } else s
  | none => s
/-- NRG_JOB_REL (R203, R410). -/
def execNrgJobRel (w : Word) (priv : Bool) (s : State) : Out :=
  s.hostPut 0x4100 w.toNat priv true true false id (putJobRel w.toNat)

/-! ### Registers without behaviour of their own (R6, R391, R402 to R421) -/

/-- Whether a write lies in a block that is refused before the verdict (R242). -/
def earlyBlock (a : Nat) : Bool :=
  (0x8000 ≤ a && a < 0xA000) || (0x10000 ≤ a && a < 0x11860) || (0x4000 ≤ a && a < 0x4168) || (0x130 ≤ a && a < 0x13C) ||
    (0x21000 ≤ a && a < 0x21800)

/-- Whether a register belongs to a function that a freeze stops: domains, tiles, tickets, Skelrak, caps and the table
window (R351, R423). -/
def stoppedBlock (a : Nat) : Bool := earlyBlock a || (0x100 ≤ a && a < 0x140) || (0x20000 ≤ a && a < 0x21800) || 0x80000 ≤ a

/-- Whether the owner rule of a plain register refuses a value: `CAP_NEW`, `ENG_BUD*` and `FLT_ESC` under the lock, FLT_RETRY
and FLT_ESC outside their ranges, FLT_ESC for a class without rungs (R402, R406). -/
def State.plainBad (s : State) (a w : Nat) : Bool :=
  if a = 0x4008 ∨ a = 0x130 ∨ a = 0x134 ∨ a = 0x138 then s.host.lock
  else if a = 0x100C then w / 65536 < 16
  else if a = 0x1014 then s.host.lock || (faultEsc s.flt.escSel).2.isEmpty || w % 2 ^ 20 < 10 || 976563 < w % 2 ^ 20
  else false

/-- A plain register takes a value: RW fields take it, ones clear W1C bits, RO fields stay (R6). -/
def plainPut (a w : Nat) (s : State) : State :=
  if a = 0x28 then s.updHost fun h => { h with scr := BitVec.ofNat 32 w }
  else if a = 0x100 then s.updEng fun e => { e with budRefused := e.budRefused && !bit w 8 }
  else if a = 0x130 then s.updEng fun e => { e with budW := [w % 65536, w / 65536 % 65536] ++ e.budW.drop 2 }
  else if a = 0x134 then s.updEng fun e => { e with budW := e.budW.take 2 ++ [w % 65536, w / 65536 % 65536] ++ e.budW.drop 4 }
  else if a = 0x138 then putBud w s
  else if a = 0x100C then s.updFlt fun f => { f with retries := w % 8, gap := w / 65536 % 65536 }
  else if a = 0x1010 then s.updFlt fun f => { f with escSel := w % 256 }
  else if a = 0x1014 then s.updFlt fun f => { f with esc := tset none f.esc f.escSel (some (w % 2 ^ 20)) }
  else if a = 0x1018 then s.updFlt fun f => { f with occIdx := w % 4096 }
  else if a = 0x2004 then s.updLog fun l => { l with skip := l.skip && !bit w 2 }
  else if a = 0x3004 then s.updHk fun h => { h with lpRefused := h.lpRefused && !bit w 0 }
  else if a = 0x4008 then s.updLim fun l => { l with capNew := w % 2 ^ 31, capForce := bit w 31 }
  else if 0x8000 ≤ a ∧ a < 0xA000 ∧ a % 256 = 0x04 then s.updDom ((a - 0x8000) / 256) fun x => { x with
    stsTgtClamp := x.stsTgtClamp && !bit w 3, stsVreqRef := x.stsVreqRef && !bit w 4, stsUcal := x.stsUcal && !bit w 5 }
  else if 0x8000 ≤ a ∧ a < 0xA000 ∧ a % 256 = 0x90 then
    s.updDom ((a - 0x8000) / 256) fun x => { x with lawKp := w % 65536, lawKi := w / 65536 % 65536 }
  else if a = 0x20020 then s.updTk fun t => { t with sel := w % 65536 }
  else if a = 0x40404 then s.updObs fun o => { o with ownJob := w % 65536 }
  else if a = 0x40408 then s.updObs fun o => { o with frzCls := if s.inst.manager then w % 256 else o.frzCls, frzEn := bit w 8 }
  else if a = 0x4040C then s.updObs fun o => { o with
    late := o.late && !bit w 1, capOvf := o.capOvf && !bit w 2, timeInv := o.timeInv && !bit w 3, ended := o.ended && !bit w 4 }
  else if a = 0x40440 then s.updObs fun o => { o with dumpKind := w % 16, dumpIdx := bits w 15 8 }
  else if a = 0x40444 then s.updObs fun o => { o with dumpPg := w % 2 ^ 22 }
  else if a = 0x40448 then s.updObs fun o => { o with dumpAt := o.dumpAt / 2 ^ 32 * 2 ^ 32 + w % 2 ^ 32 }
  else if a = 0x4044C then s.updObs fun o => { o with dumpAt := o.dumpAt % 2 ^ 32 + w % 2 ^ 32 * 2 ^ 32 }
  else if a = 0x40458 then s.updObs fun o => { o with dumpRpg := w % 256 }
  else if a = 0x40460 then s.updObs fun o => { o with scanSeg := bits w 31 28, scanWord := w % 2 ^ 19 }
  else if a = 0x80004 then s.updEng fun e => { e with tblRefused := e.tblRefused && !bit w 3 }
  else if 0x80100 ≤ a ∧ a < 0x80200 then
    if s.tblRdy then s.updEng fun e => { e with tblBuf := writeLE 0 e.tblBuf (a - 0x80100) 4 w } else s
  else s

/-- What a write that waited for the thaw does then (R423). -/
def lateWrite (a w : Nat) (s : State) : State :=
  let d := (a - 0x8000) / 256
  if 0x8000 ≤ a ∧ a < 0xA000 ∧ a % 256 = 0x10 then putVreq d w s
  else if 0x8000 ≤ a ∧ a < 0xA000 ∧ a % 256 = 0x1C then putUcal d w s
  else if 0x8000 ≤ a ∧ a < 0xA000 ∧ a % 256 = 0x94 then putLawB d w s
  else if 0x8000 ≤ a ∧ a < 0xA000 ∧ a % 256 = 0x98 then putPg d w s
  else if 0x10000 ≤ a ∧ a < 0x11800 ∧ a % 32 = 0x18 then putTileCtl ((a - 0x10000) / 32) w s
  else if 0x11800 ≤ a ∧ a < 0x11860 then putPar ((a - 0x11800) / 4) w s
  else if a = 0x20008 then putQmax w s
  else if a = 0x2000C then putSgLead w s
  else if 0x21000 ≤ a ∧ a < 0x21800 then putSgMask ((a - 0x21000) / 32) ((a - 0x21000) / 4 % 8) w s
  else if a = 0x80000 then putPage w s
  else if a = 0x80008 then putCommit s
  else if a = 0x4100 then putJobRel w s
  else plainPut a w s

/-- The command rows by their code, for a write of `CMD` (R399). Whether COOL_OK had been high everywhere is not part of a
plain write: it is left open (log entry 5). -/
def State.writeCmd (s : State) (w : Nat) (priv : Bool) : Out :=
  match w % 256 with
  | 0 => execNop priv s
  | 1 => s.runAbort (fun _ => true) priv
  | 2 => execDomainOn priv s
  | 3 => if bit s.host.arg.toNat 8 then execDomainOffAll priv s else execDomainOff priv s
  | 4 => execSetMode priv s
  | 5 => execAutotune priv s
  | 6 => execFreeze priv s
  | 7 => execThaw priv s
  | 8 => execDump priv s
  | 9 => execSnapshot priv s
  | 10 => execFlushLog priv s
  | 11 => execClearFault (bit (Config.freeWord s.fresh).toNat 0) priv { s with fresh := s.fresh + 1 }
  | 12 => execSetCap priv s
  | _ => execCmdReservedCode (BitVec.ofNat 8 w) priv s

/-- REGISTER_WRITE (R6, R391, R395, R397): a write of any word of the window. One that names a register with behaviour of
its own has that behaviour; every other register takes the value under its access code; an address outside the map answers
DECERR. -/
def execRegisterWrite (addr : BitVec 20) (w : Word) (priv : Bool) (s : State) : Out :=
  let a := addr.toNat / 4 * 4
  let n := w.toNat
  let d : Fin 32 := Fin.ofNat 32 ((a - 0x8000) / 256)
  let t : Fin 192 := Fin.ofNat 192 ((a - 0x10000) / 32)
  let dom := decide (0x8000 ≤ a ∧ a < 0xA000)
  if ¬ s.hostUp then .next s
  else if ¬ regMapped a then .next (s.rsp .decerr 0)
  else if a = 0x14 then s.writeCmd n priv
  else if a = 0x18 then .next ((s.updHost fun h => { h with arg := w }).okay)
  else if a = 0x28 then .next (if s.inst.lockstep then s.refuse else (plainPut a n s).okay)
  else if a = 0x08 then execCtlLock w priv s
  else if a = 0x1004 then execFltAck w priv s
  else if a = 0x2000 then execLogCur true w priv s
  else if a = 0x2008 then execLogCur false w priv s
  else if a = 0x3000 then execHkCtl w priv s
  else if a = 0x3010 then execTlmCtl w priv s
  else if a = 0x4100 then execNrgJobRel w priv s
  else if a = 0x138 ∧ bit n 31 then execEngBudCommit w priv s
  else if a = 0x20008 then execTktQmax w priv s
  else if a = 0x2000C then execTktSgLead w priv s
  else if 0x21000 ≤ a ∧ a < 0x21800 then execTktSgMask (Fin.ofNat 64 ((a - 0x21000) / 32)) (Fin.ofNat 8 ((a - 0x21000) / 4)) w priv s
  else if 0x11800 ≤ a ∧ a < 0x11860 then execTilePar (Fin.ofNat 24 ((a - 0x11800) / 4)) w priv s
  else if dom ∧ a % 256 = 0x10 then execDomVreq d w priv s
  else if dom ∧ a % 256 = 0x1C then execDomUcal d w priv s
  else if dom ∧ a % 256 = 0x94 then execDomLawB d w priv s
  else if dom ∧ a % 256 = 0x98 then execDomPg d w priv s
  else if 0x10000 ≤ a ∧ a < 0x11800 ∧ a % 32 = 0x18 then s.hostPut a n priv true true false id (putTileCtl t n)
  else if a = 0x40400 then execObsCntClr w priv s
  else if a = 0x40420 then execObsTrcCtl w priv s
  else if a = 0x40428 then execObsTrcMark w priv s
  else if a = 0x80000 then execTblPage w s
  else if a = 0x80008 then execTblCommit w priv s
  else s.hostPut a n priv (earlyBlock a) (stoppedBlock a) (s.plainBad a n) id (plainPut a n)

end Sys2Proof.Machine
end

