-- ==== Sys2Proof/Machine/SpineRx.lean ====
section
/-!
DEFINITION. The upstream words of the spine at the field core (R61 to R65, R95): tile reports, events with their fault
classes (R278), and the tile that falls silent.
-/

namespace Sys2Proof.Machine

/-- Whether the check lane agrees with an upstream word (R56, R65). -/
def uwOk (w : BitVec 64) (chk : BitVec 4) : Bool := chk == uwCheck w

/-- A valid TREP enters the field core's view of its tile (R61, R413). -/
def viewTrep (v : TView) (w : BitVec 64) : TView :=
  let n := w.toNat
  { v with
    present := true, state := bits n 54 51, itile := sext 16 (bits n 50 35), vsns := bits n 34 23, active := bits n 22 19
    retired := bits n 18 15, ilim := bit n 14, droop := bit n 13, hold := bit n 12, sseq := bits n 3 0
    missed := 0, got := true }

/-- TREP (R61): a tile lost through CROWBAR or LATCHED that reports OFF works again (R95). The TREPs that cover the sample
of a freeze belong to its cut (R354). -/
def execTrep (q : Fin 8) (w : BitVec 64) (chk : BitVec 4) (s : State) : Out :=
  if uwOk w chk ∧ uwType w = 8 ∧ uwPos w < 24 then
    let t := 24 * q.val + uwPos w
    let s := s.updView t fun v => viewTrep v w
    let s := if s.obs.frozen ∧ s.time / 16 = s.obs.regTf / 16 + 1 then s.updObs fun o => { o with cutTreps := tset 0 o.cutTreps t w } else s
    .next (if (s.view t).state = 0 then s.returnTile t else s)
  else .next s

/-- A domain whose tile reported a soft-start short: STOP to every tile that is not latched, at the first sample of the next
frame, and the bring-up ends (R52). -/
def State.shortStart (s : State) (d : Nat) : State :=
  let s := forL ((s.dtiles d).filter fun t => (s.view t).state != 6 && !(s.view t).lost) (fun t s => s.sendNext t .stop) s
  if (s.dom d).inBring then
    s.updDom d fun x => ({ x with bring := { x.bring with
      status := .short, keepStatus := true, step := .stopping, startAt := none, winEnd := none, offAt := none } }).endRetry s.time
  else s

/-- The other mittens of a domain are crowbarred on a tile's own over-voltage detection (R49). -/
def State.crowOthers (s : State) (d m : Nat) : State :=
  forL ((s.dtiles d).filter fun t => t / 6 != m) (fun t s => s.sendTile t .crowbar) s

/-- Applies a function for the domain of a tile. -/
def State.onTileDom (s : State) (t : Nat) (f : Nat → State → State) : State :=
  match s.tileDom t with
  | some d => f d s
  | none => s

/-- Every effect of a tile event at the field core: its fault class with the event's DATA and detection tick, the record
of a loss, and what a sequence waits for (R52, R63, R75, R92, R95, R261, R278). -/
def State.tileEvent (s : State) (t code x data : Nat) : State :=
  let src := mkSrc 1 t
  let up (s : State) (cls : Nat) : State := s.raiseSevAt x cls (faultSev cls) src data
  match code with
  | 0x01 => (s.updView t fun v => { v with reported := true }).onTileDom t fun d s => s.bringProgress d
  | 0x02 => if bit data 8 then up s cPhaseMap else s
  | 0x03 => ((s.raiseSevAt x cOutShort 2 src (data % 2 ^ 31)).recordLoss t false).onTileDom t fun d s => s.shortStart d
  | 0x04 => (s.raiseSevAt x cOutShort 2 src (2 ^ 31 + data % 2 ^ 31)).recordLoss t false
  | 0x05 =>
    let s := if bit data 24 then (up s cOvCrowbar).onTileDom t fun d s => s.crowOthers d (t / 6) else s
    s.recordLoss t false
  | 0x06 => ((up s cOpenPhase).recordPhase t (data % 4)).onTileDom t fun d s => s.bringProgress d
  | 0x07 => ((up s cLWindow).recordPhase t (data % 4)).onTileDom t fun d s => s.bringProgress d
  | 0x08 => ((up s cTileLost).recordLoss t true).onTileDom t fun d s => s.bringProgress d
  | 0x09 => up s cIlimHold
  | 0x0A =>
    let s := s.updView t fun v => { v with vsnsOpen := bit data 12 }
    if bit data 12 then up s cVsnsOpen else s.endCause cVsnsOpen src
  | 0x0B => s.raiseSevAt x cVinUv (if s.lim.pwrFail then 0 else 2) src data
  | 0x0C => up s cVinOv
  | 0x0D => up s cVinRev
  | 0x0E => (up s cShedReversed).onTileDom t fun d s =>
      ((s.unshedDom d).updDom d fun y => { y with backoff := s.shedBackoff })
  | 0x0F => up s cShedRefused
  | 0x10 => ((up s cClearRefused).updView t fun v => { v with clearRef := true }).onTileDom t fun d s =>
      s.updDom d fun y => if y.retry.sent then { y with retry := { y.retry with sent := false, gapFrom := some (frameOf s.time) } } else y
  | 0x11 => (s.updView t fun v => { v with capDv := some (data % 4096) }).onTileDom t fun d s => s.bringProgress d
  | 0x12 => up s cSpineErr
  | 0x13 => s.recordLoss t false
  | _ => s

/-- Takes an EVENT word that travels on a chain out of the chain's slots. -/
def State.takeUp (s : State) (q : Nat) (w : BitVec 64) : State :=
  s.updSpine fun p => { p with up := p.up.erase (q, w) }

/-- EVENT (R62): the time is extended to the detection tick. -/
def execEvent (q : Fin 8) (w : BitVec 64) (chk : BitVec 4) (s : State) : Out :=
  let s := s.takeUp q w
  if uwOk w chk ∧ uwType w = 9 ∧ uwPos w < 24 ∧ ¬ s.inst.lockstep then
    let n := w.toNat
    .next (s.tileEvent (24 * q.val + uwPos w) (bits n 54 48) (extend16back s.time (bits n 47 32)) (bits n 31 0))
  else .next s

/-- TILE_LOST (R65). -/
def execTileLost (t : Fin 192) (s : State) : Out :=
  if 16 ≤ (s.view t).missed ∧ ¬ (s.view t).gone then
    .next ((((s.raise cTileLost (mkSrc 1 t) 3).sendTile t .retireTile).recordLoss t true).onTileDom t fun d s => s.bringProgress d)
  else .next s

end Sys2Proof.Machine
end

