-- ==== Sys2Proof/Machine/Thaw.lean ====
section
/-!
DEFINITION. The end of a freeze (R300, R353, R355, R356, R360, R361, R423): captured messages, extended limits, tickets,
held commands and writes, in that order.
-/

namespace Sys2Proof.Machine

/-- The state that an outcome leads to; an outcome without one leaves the state as it is. -/
def outState (s : State) (o : Out) : State := match o with | .next t => t | .fault _ => s | .refused _ => s

/-- A captured flit acts as it would have on arrival; TIME keeps its arrival stamp (R226, R353). -/
def runFlit (at_ : Nat) (c : Instr) (s : State) : State :=
  match c with
  | .ddMode f => outState s (execDdMode f s)
  | .ddAlloc f => outState s (execDdAlloc f s)
  | .rptClass f => outState s (execRptClass f s)
  | .rptDemand f => outState s (execRptDemand f s)
  | .rptField f => outState s (execRptField f s)
  | .jobNrg f => outState s (execJobNrg f s)
  | .freezeFlit f => outState s (execFreezeFlit f s)
  | .trace f => outState s (execTrace f s)
  | .sect f => outState s (execSect f s)
  | .verdict f => outState s (execVerdict f s)
  | .hash f => outState s (execHash f s)
  | .run f => outState s (execRun f s)
  | .pageReq f => outState s (execPageReq f s)
  | .pageData f ok => outState s (execPageData f ok s)
  | .coolLoss f => outState s (execCoolLoss f s)
  | .sgFwd f => outState s (execSgFwd f s)
  | .sgVote f => outState s (execSgVote f s)
  | .sgDrop f => outState s (execSgDrop f s)
  | .sgSet f => outState s (execSgSet f s)
  | .sgProp f => outState s (execSgProp f s)
  | .sgCommit f => outState s (execSgCommit f s)
  | .sgCancel f => outState s (execSgCancel f s)
  | .sgWd f => outState s (execSgWd f s)
  | .linkDown f => outState s (execLinkDown f s)
  | .ringUp f => outState s (execRingUp f s)
  | .train f p => outState s (execTrain f p s)
  | .time f r frac => if s.inst.manager then outState s (execTime f r frac s) else (s.passOn r f).workerTime f r (16 * at_ + frac.val)
  | _ => s

/-- A captured message of the ticket port; a request keeps its arrival tick (R102, R353, R355). -/
def runPort (at_ : Nat) (c : Instr) (s : State) : State :=
  match c with
  | .ticketRequest c w whole =>
    if (s.cluster c).full ∨ ¬ (s.cluster c).rspWait.isEmpty then
      s.updCluster c fun x => { x with reqWait := x.reqWait ++ [(at_, .ticketRequest c w whole)] }
    else s.takeRequest c w.toNat whole at_
  | .doneReport c w whole => outState s (execDoneReport c w whole s)
  | .countReport c w whole => outState s (execCountReport c w whole s)
  | _ => s

/-- A domain's gaps and bridle steps hold their place for `n` frames and `d` ticks (R300, R352). -/
def holdDom (tf n d : Nat) (x : Dom) : Dom :=
  let late (f : Nat) : Nat := if frameOf tf < f then max f (frameOf tf + n) else f + n
  let holds : Bool := match x.bring.step with
    | .bridle | .backOut | .stagesOff => true
    | .idle | .waiting | .precharge | .capTest | .ramp | .bridleWait | .gap | .up | .rampDown | .stopping => false
  { x with
    retry := { x.retry with gapFrom := x.retry.gapFrom.map late }
    bring := { x.bring with
      gapFrom := if x.bring.step = .gap then late x.bring.gapFrom else x.bring.gapFrom
      due := if holds then x.bring.due + d else x.bring.due } }

/-- What was pending at Tf is extended by the frozen span `d`: ticket expiries and identifier guards, sync-vote limits,
resend limits; escalation timers, retry gaps and run clocks do not count it (R300, R351, R355). -/
def State.extendBy (s : State) (tf n d : Nat) : State :=
  let s := s.updTk fun t => { t with
    tickets := t.tickets.map fun e => (e.1, if e.2.used then { e.2 with extra := e.2.extra + d } else e.2)
    clusters := t.clusters.map fun e => (e.1, { e.2 with runFrom := e.2.runFrom.map (· + d) }) }
  let s := s.updMgr fun m => { m with sgSets := m.sgSets.map fun x => { x with sentAt := x.sentAt + d } }
  let s := s.updTth fun t => { t with slots := t.slots.map fun x => { x with sentAt := x.sentAt + d } }
  let s := s.updFlt fun f => { f with occs := f.occs.map fun o =>
    { o with start := if frameOf tf < o.start then max o.start (frameOf tf + n) else o.start + n } }
  { s with doms := s.doms.map fun e => (e.1, holdDom tf n d e.2) }

/-- Each ticket enters the state that its times give now (R355). -/
def ticketNow (i : Nat) (s : State) : State :=
  let k : Fin 65536 := Fin.ofNat 65536 i
  let s := outState s (execTicketArm k s)
  let s := outState s (execTicketLaunch k s)
  outState s (execTicketRun k s)

/-- The captured messages of one cluster channel; those discarded count as port errors (R108, R353). -/
def thawChannel (c : Nat) (s : State) : State :=
  let y := s.cluster c
  let s := s.updCluster c fun y => { y with capReq := [], capRpt := [], capOver := 0 }
  let s := forL (y.capReq ++ y.capRpt) (fun m s => runPort m.1 m.2 s) s
  if y.capOver = 0 then s else s.portErr c y.capOver

/-- A command that the freeze held acts now (R351). -/
def State.runHeld (s : State) : State :=
  match s.host.cmd with
  | some c => if c.held then (s.updHost fun h => { h with cmd := some { c with held := false } }).cmdBody c.code else s
  | none => s

/-- The die resumes at tick `tt` (R355); `early` where a stop ends the freeze (R356). -/
def State.thawNow (s : State) (tt : Nat) (early : Bool) : State :=
  let tf := s.obs.regTf
  let flits := (s.tth.capA ++ s.tth.capB).insertionSort fun a b => a.1 ≤ b.1
  let late := s.host.late
  let held := s.obs.abortHeld
  let dump := s.obs.dumpBusy && tf < s.obs.dumpT && s.obs.dumpT < tt
  let s := s.updObs fun o => { o with frozen := false, tt := none, regTt := tt, ended := early, abortHeld := none }
  let s := (s.updTth fun t => { t with capA := [], capB := [] }).updHost fun h => { h with late := [] }
  let s := s.extendBy tf (frameOf tt - frameOf tf) (tt - (tf + 1))
  let s := match held with | some (arg, old) => s.abortNow arg old | none => s
  let s := forL flits (fun c s => runFlit c.1 c.2 s) s
  let s := forL ((s.tks fun x => !x.state.final).map (·.1)) ticketNow s
  let s := forIdx 32 thawChannel s
  let s := forL late (fun (a, w) s => lateWrite a w.toNat s) s.runHeld
  let s := if s.hk.pubDue = 0 then s else s.publish s.hk.pubDue
  let s := if dump then s.copyDump true else s
  if s.inst.manager ∧ (early ∨ s.obs.late ∨ s.obs.capOvf) then s.raiseInst cObsCutIncomplete 0 else s

/-- THAW_RESUME (R355): at Tt. -/
def execThawResume (s : State) : Out :=
  match s.obs.tt with
  | some t => if s.obs.frozen ∧ t ≤ s.time then .next (s.thawNow t false) else .next s
  | none => .next s

/-- A stop ends a freeze at the next tick, as though at Tt (R356). -/
def State.endFreeze (s : State) : State := if s.obs.frozen then s.thawNow (s.time + 1) true else s

end Sys2Proof.Machine
end

