-- ==== Sys2Proof/Machine/Stops.lean ====
section
/-!
DEFINITION. The stops that pins and the tether bring (R196, R198, R274, R356): each ends a freeze first.
-/

namespace Sys2Proof.Machine

/-- COOL_OK_DEASSERT (R198): low at 16 consecutive ticks. -/
def execCoolOkDeassert (s : State) : Out :=
  if s.inst.inReset then .next s else .next ((s.endFreeze.updLim fun l => { l with coolHigh := 0 }).stopDie 0)

/-- COOL_STOP (R198, R216): the manager's order, which passes while frozen (R351). -/
def execCoolStop (f : RxFlit) (s : State) : Out :=
  s.recv 0x05 f.ring f.flit (.coolStop f) fun s => s.endFreeze.coolActions (fbits f.flit 104 104)

/-- PWRFAIL_N (R274): low at 16 consecutive ticks. -/
def execPwrfailN (s : State) : Out :=
  if s.lim.pwrFail ∨ s.inst.inReset then .next s else .next s.endFreeze.powerActions

/-- PWRFAIL_N returns high (R274): the domains that hold their set-points go on regulating. -/
def execPwrfailNReturn (s : State) : Out :=
  if s.lim.pwrFail then .next ((s.updLim fun l => { l with pwrFail := false }).endCause cPwrFail s.srcInst) else .next s

/-- THERM_TRIP (R196): any sensor at or above 125 °C by its comparator, latched until RST_N. -/
def execThermTrip (_i : Fin 128) (code : Int) (s : State) : Out :=
  if 8000 ≤ code ∧ ¬ s.lim.thermTrip ∧ ¬ s.inst.inReset then .next s.endFreeze.tripActions else .next s

end Sys2Proof.Machine
end

