-- ==== Sys2Proof/Machine/Frame.lean ====
section
/-!
DEFINITION. The frame of the field supervisor (R15, R71, R88 to R92, R113, R119, R138, R159, R175, R176, R288, R289): what
was decided in the frame that has ended takes effect, its measurements close, and the new decisions are made.
-/

namespace Sys2Proof.Machine

/-! ### What takes effect at a frame start -/

/-- Budgets that the host wrote take effect (R160, R162, R404). -/
def State.frameBudgets (s : State) : State :=
  match s.eng.budPend with
  | none => s
  | some b => s.updEng fun e => { e with
      bDl := nth 0 b 0, bFc := nth 0 b 1, bAt := nth 0 b 2, bDt := nth 0 b 3, bSv := nth 0 b 4, fcPer := nth 0 b 5
      budHost := true, budPend := none }

/-- The pages whose reload passed its read-back are good again (R166). -/
def State.framePages (s : State) : State :=
  s.updEng fun e => { e with bad := e.bad.filter fun b => !(b.2.any fun x => x.goodAt.any (· ≤ s.time)) }

/-- The values of a domain that were written or decided in the last frame, and its voltage point (R71, R81, R175, R176,
R188, R301, R412). -/
def frameDom (d : Nat) (s : State) : State :=
  let x := s.dom d
  let s := if x.lawPend then (s.updDom d fun x => { x with lawPend := false }).putLaw d x.lawKp x.lawKi x.lawKd x.lawUlim else s
  let s := if x.critNext then (s.updDom d fun x => { x with critNext := false }).critDomain d else s
  s.updDom d fun x => { x with
    uc := x.ucNext
    pgVmax := (x.pgNext.map (·.1)).getD x.pgVmax
    pgAmax := (x.pgNext.map (·.2.1)).getD x.pgAmax
    pgJmax := (x.pgNext.map (·.2.2)).getD x.pgJmax
    pgNext := none
    spLadder := x.spLadNext, spTh := x.spThNext
    pSel := if s.dclass d = 3 ∨ ¬ s.inst.ready then s.pTop d else min x.pCap x.pTh }

/-- The target of an enabled domain, with TGT_CLAMP in the first frame of a run (R71, R424). -/
def targetDom (d : Nat) (s : State) : State :=
  let (v, c) := s.target d
  let was := (s.dom d).clampRun
  let s := s.updDom d fun x => { x with vtgt := v, clampRun := c.isSome, stsTgtClamp := x.stsTgtClamp || c.isSome }
  match c with
  | some data => if was then s else s.raise cTgtClamp (mkSrc 5 d) data
  | none => s

/-- Tickets of domains that entered IDLE or began their off ramp, of which the header stages are the first step, in the frame
that has ended are withdrawn (R113, R272). -/
def State.frameTickets (s : State) : State :=
  s.withdrawAll fun k => (s.tkDom k).any fun d => (s.dom d).loop == .idle || (s.dom d).bring.step.falling

/-- What the decisions of the last frame bring at the start of this one, but for the targets (R15). -/
def State.frameEffects (s : State) : State :=
  let s := s.frameTickets.framePages.restoreLaws.retireArrays.frameBudgets
  forIdx 32 frameDom (if s.inst.gndNext = 0 then s else s.enterGround s.inst.gndNext)

/-! ### Shedding (R88) -/

/-- N_MIN, SHED_DWELL of a mode; N_MIN 4 sheds nothing. -/
def shedPars : Mode → Nat × Nat
  | .peak | .grounded => (4, 16)
  | .balanced => (2, 16)
  | .efficient => (1, 4)

/-- The smallest level from `n` up that a current allows over `w` tiles; 4 where none below is allowed (R88). The current and
the limit count 10 mA. -/
def shedLevel (i lim w n : Nat) : Nat := ((List.range 4).filter fun k => n ≤ k && 0 < k && i ≤ lim * w * k).headD 4

/-- Whether a decision for PEAK or GROUNDED takes effect at the next frame (R88). -/
def State.modeComing (s : State) : Bool := s.decs.any fun x => x.eff ≤ nextFrame s.time && x.what.shedless

/-- The shedding decisions of a frame on a domain: the dwell, the back-off, and the return of all phases (R88, R92). -/
def shedFrame (d : Nat) (s : State) : State :=
  let s := shedOver d s
  let x := s.dom d
  let w := (s.dworking d).length
  let (nMin, dwell) := shedPars s.modeNow
  match x.shedLvl with
  | some n =>
    if s.modeComing ∨ nMin = 4 ∨ s.iUnshed * w * n < x.iFrame then s.unshedDom d else s
  | none =>
    let n := shedLevel x.iFrame s.iShed w nMin
    s.updDom d fun x => { x with
      backoff := x.backoff - 1
      dwell := if x.loop = .closed ∧ n < 4 then (n :: x.dwell).take dwell else [] }

/-- The phases that a tile keeps at a level, of those not retired (R89). -/
def keptPhases (lvl p retired : Nat) : List Nat :=
  let want : List Nat := match lvl with
    | 1 => [p % 4]
    | 2 => [0, 2]
    | 3 => (List.range 4).filter (· != (p + 3) % 4)
    | _ => List.range 4
  want.foldl (fun acc k =>
    if !bit retired k then (if acc.contains k then acc else acc ++ [k])
    else match (List.range 4).find? fun j => !bit retired j && !acc.contains j && !want.contains j with
      | some j => acc ++ [j]
      | none => acc) []

/-- The phases that SHED names for a tile: those not kept; a retired phase counts as shed (R89). -/
def State.shedMask (s : State) (lvl t : Nat) : Nat :=
  let kept := keptPhases lvl (t % 6) (s.view t).phLost
  listMask ((List.range 4).filter fun k => !kept.contains k)

/-- Whether a domain may be shed at the boundary that follows (R88, R92); not in a frame that recorded a loss (R98). -/
def State.mayShed (s : State) (d : Nat) : Bool :=
  let x := s.dom d
  let (nMin, dwell) := shedPars s.modeNow
  x.loop == .closed && x.shedLvl.isNone && nMin != 4 && dwell ≤ x.dwell.length && x.backoff == 0 &&
    (s.dworking d).all (fun t => (s.view t).state == 3) && !s.modeComing && s.inst.gndNext == 0 &&
    (s.dmittens d).all fun m => (s.mitten m).lossTicks.all fun t => frameOf t != frameOf s.time

/-- The grants of a domain whose slot lies close behind a boundary (R90). -/
def State.nearGrants (s : State) (d b : Nat) : List (Nat × Ticket) :=
  s.domTks d fun k => (k.state == .granted || k.state == .armed) && decide (b ≤ k.slot) && decide (k.slot < b + 8 * s.shedGuard)

/-- Sends the SHED words of a domain for a level (R88, R89). -/
def State.shedTo (s : State) (d lvl : Nat) : State :=
  forL (s.dworking d) (fun t s => let m := s.shedMask lvl t; (s.updView t fun v => { v with shedSent := m }).sendTile t (.shed m))
    (s.updDom d fun x => { x with shedLvl := some lvl, unshedAt := 0, dwell := [] })

/-- DOMAIN_SHED (R88 to R90): in the frame's last sample, so that the words apply at the first boundary of the next frame. A
grant close behind that boundary stops it and restarts the dwell; an armed or launched ticket holds it back. -/
def execDomainShed (d : Fin 32) (s : State) : Out :=
  if s.time % 256 / 16 ≠ 15 ∨ s.obs.frozen ∨ s.inst.lockstep ∨ s.inst.inReset ∨ ¬ s.enabled d ∨ ¬ s.mayShed d then .next s
  else if ¬ (s.nearGrants d (nextFrame s.time)).isEmpty then
    .next ((s.updDom d fun x => { x with dwell := [] }).raise cShedBlocked (mkSrc 5 d) 0)
  else if ¬ (s.domTks d fun k => k.state == .armed || k.state == .launched).isEmpty then .next s
  else .next (s.shedTo d ((s.dom d).dwell.foldl max 0))

/-! ### The rest of the supervisor's frame -/

/-- The mean of the input ledger over the frame that has ended (R119). -/
def State.frameLedger (s : State) : State :=
  let v := s.tk.slotVals
  s.updTk fun t => { t with iinMean := if v.isEmpty then t.iinMean else v.sum / v.length, slotVals := [] }

/-- The frame's part of the counts and the attribution programs (R138, R159). -/
def State.frameEngine (s : State) : State :=
  let s := s.updEng fun e => { e with cntPrev := e.cntNow, cntNow := [] }
  if s.engineRuns then
    forIdx 4 (fun l s => s.updEng fun e => e.setLane l { e.lane l with leftAt := (s.progsOf l 2).map fun p => (p.idx, 0) }) s
  else s

/-- The weights that a hold has kept back (R96). -/
def State.frameShares (s : State) : State :=
  forIdx 32 (fun m s => if (s.mitten m).dirty ∧ (s.mitten m).holdTo ≤ s.time then s.queueShares m else s) s

/-- The count of used retries of a domain starts again once no short or crowbar occurrence of it is open (R290). -/
def frameRetry (d : Nat) (s : State) : State :=
  if s.flt.occs.any fun o => (o.cls == cOutShort || o.cls == cOvCrowbar) && s.srcDom o.src == some d then s
  else s.updDom d fun x => { x with retry := {} }

/-- The rungs decided in the last frame act: a die-off rung stops the die, and the others act per domain (R288, R289). -/
def State.frameRungs (s : State) : State :=
  let rs := s.flt.rungs
  let s := s.updFlt fun f => { f with rungs := [] }
  let s := forL s.doms_ (rungDom rs) s
  let s := if rs.any (·.1 == 4) then
      (forL s.doms_ (fun d s => s.markOff d fun o => rs.contains (4, o.cls, o.src)) s).stopDie 1
    else s
  forL s.doms_ (fun d s => heldOff d (derateDom d s)) s

/-- What closes at this frame, and then the targets: a rung of rank 3 and the end of a coolant loss come ahead of them (R9, R71,
R199). -/
def State.frameTargets (s : State) : State :=
  let s := s.clearFrame.coolFrame
  forL s.doms_ targetDom s

/-- The decisions of the frame's supervisor on what it measured. -/
def State.frameDecide (s : State) : State :=
  let s := s.limitFrame.vinFrame.startFrame.tetherFrame.raiseLost
  let s := forL s.doms_ (fun d s => (retryAnswers d (frameRetry d s)).admitWaiting d) s
  let s := forL s.doms_ shedFrame s.frameShares
  s.updLim fun l => { l with framesEver := l.framesEver + b2n s.inst.ready }

/-- FRAME (R15), at a frame start. The ticket unit's ledgers go on after a lockstep mismatch (R293, R295). While frozen only the measurements close, unless a die-off rung ends the freeze (R351,
R356). After a lockstep mismatch the sequencer keeps the measurements, the rungs and GROUNDED; the supervisor decides nothing
(R292, R293). -/
def execFrame (s : State) : Out :=
  if s.time % 256 ≠ 0 ∨ (s.inst.unitAt = s.time ∧ s.time ≠ 0) ∨ s.inst.inReset ∨ ¬ s.inst.pll then .next s
  else
    let s := s.updInst fun n => { n with unitAt := s.time }
    let s := if s.obs.frozen ∧ s.flt.rungs.any (·.1 == 4) then s.endFreeze else s
    if s.obs.frozen then .next s.closeFrame
    else
      let s := (if s.inst.lockstep then (if s.inst.gndNext = 0 then s.frameTickets else s.frameTickets.enterGround s.inst.gndNext)
        else s.frameEffects).closeFrame
      let s := s.frameLedger.frameRungs
      if s.inst.lockstep then .next s else .next (s.frameTargets.frameDecide.frameEngine)

end Sys2Proof.Machine
end

