-- ==== Sys2Proof/Machine/Tile.lean ====
section
/-!
DEFINITION. The tile agent (R32 to R55, R66): its switching period, its local loop, its protection, its sample boundary
and the state changes of R43. The commands of the spine that reach it are in Machine/TileCmd.lean.
-/

namespace Sys2Proof.Machine

/-! ### Shared operations of a tile -/

/-- PRECHARGE, SOFTSTART, REGULATE or SHED: the states that a protection turns off (R43). -/
def TileState.live : TileState → Bool
  | .precharge | .softstart | .regulate | .shed => true
  | .off | .crowbar | .latched | .retired => false

/-- SOFTSTART, REGULATE or SHED: the states in which the local loop runs (R37). -/
def TileState.runs : TileState → Bool
  | .softstart | .regulate | .shed => true
  | .off | .precharge | .crowbar | .latched | .retired => false

/-- REGULATE or SHED (R41, R47). -/
def TileState.regulates : TileState → Bool
  | .regulate | .shed => true
  | .off | .precharge | .softstart | .crowbar | .latched | .retired => false

/-- Adds a pending event: at most 4 are held, a fifth is dropped with EVT_LOST (R64). -/
def Tile.pushEv (x : Tile) (now code data : Nat) : Tile :=
  if x.events.length < 4 then { x with events := x.events ++ [{ code := code, tick := now, data := data % 2 ^ 32 }] }
  else { x with evtLost := true }

/-- Whether a phase switches in the state the tile is in (R42, R45, R53). -/
def Tile.activePh (x : Tile) (p : Phase) : Bool := x.state.runs && !p.retired && !p.shed

/-- ACTIVE: the switching phases (R61). -/
def Tile.activeMask (x : Tile) : Nat := x.phMask x.activePh

/-- How many phases switch. -/
def Tile.activeCount (x : Tile) : Nat := x.phCount x.activePh

/-- RETIRED: the retired phases (R61). -/
def Tile.retiredMask (x : Tile) : Nat := x.phMask Phase.retired

/-- The phases that are shed and not retired. -/
def Tile.shedMask (x : Tile) : Nat := x.phMask fun p => p.shed && !p.retired

/-- The CS channel that senses a phase: the sense map of the start checks (R54). -/
def Tile.chanOf (x : Tile) (k : Nat) : Nat := (k + (x.ph k).csChan) % 4

/-- The phase that a CS channel senses; the map is a permutation (R54). -/
def Tile.phaseAt (x : Tile) (ch : Nat) : Nat := ((List.range 4).find? fun k => x.chanOf k == ch).getD ch

/-- The trips of active phases in the period that has just ended (R47, R51). -/
def Tile.tripMask (x : Tile) : Nat := x.phMask fun p => x.activePh p && p.trip

/-- The relative over-voltage threshold, set-point code: the highest VREF of the last 16 samples plus OV_REL (R47). The
running sample counts among the 16 (log entry 13). -/
def Tile.ovThr (x : Tile) : Nat := (x.vrefHist.take 16).foldl max x.vref + 2 * x.par.ovRel

/-- VIN as the 16-bit DATA of the VIN events (R63). -/
def Tile.vinData (x : Tile) : Nat := uext 16 x.vin

/-- Ticks since T0, saturating (R63). -/
def Tile.sinceT0 (x : Tile) (now : Nat) : Nat := min 0xFFFF (now - x.t0)

/-- Enters a state: what was counted towards a change of the old state is dropped, a net the tile pulled is released with
the state that pulls it, and shedding and holds end where the tile stops (R43, R47, R49, R51). -/
def Tile.enter (x : Tile) (now : Nat) (st : TileState) : Tile :=
  let go := x.state.live && st.live
  let x := { x with
    state := st, enteredAt := now, ovCnt := if go then x.ovCnt else 0, shortHist := if go then x.shortHist else []
    lowCnt := if go then x.lowCnt else 0, latchAt := 0, crowOkCnt := 0,
    crbDrv := x.crbDrv && st == .crowbar, fltDrv := x.fltDrv && st == .latched }
  let x := if st.runs then x else
    { x with boost := false, holdLeft := 0, capLeft := if st == .precharge then x.capLeft else 0 }
  if st.regulates || st == .softstart then x
  else x.allPh fun _ p => { p with
    shed := false, retAt := 0, duty := 0, openCnt := 0, overCnt := 0, underCnt := 0, holdCont := false, holdTrans := false,
    dutyCap := 511 }

/-- Enters CROWBAR: the threshold is frozen and CROWBAR is reported (R49, R50, R63). -/
def Tile.goCrowbar (x : Tile) (now : Nat) (own : Bool) : Tile :=
  let thr := x.ovThr % 4096
  let y := (x.pushEv now 0x05 (x.vsns + thr * 4096 + b2n own * 2 ^ 24)).enter now .crowbar
  { y with crowThr := thr, crbDrv := own }

/-- Enters RETIRED and reports TILE_RETIRED with its cause (R43, R63). -/
def Tile.goRetired (x : Tile) (now cause : Nat) : Tile :=
  if x.state = .retired then x else (x.pushEv now 0x08 cause).enter now .retired

/-- Retires the phases of a mask; the second retired phase retires the tile (R53). -/
def Tile.retirePhases (x : Tile) (now mask cause : Nat) : Tile :=
  let y := x.allPh fun k p => if bit mask k then { p with retired := true, shed := false, retAt := 0, duty := 0 } else p
  if 2 ≤ y.phCount Phase.retired then y.goRetired now cause
  else if y.state = .shed ∧ y.shedMask = 0 then y.enter now .regulate
  else y

/-- Leaves the frozen voltage loop and reports the exit (R47). -/
def Tile.unfreezeLoop (x : Tile) (now : Nat) : Tile :=
  if x.loopFrozen then ({ x with loopFrozen := false, plausCnt := 0, lowCnt := 0 }).pushEv now 0x0A x.vsns else x

/-- Enters PRECHARGE (R43): the loop leaves VSNS_OPEN and PRECHARGE_DONE is awaited. -/
def Tile.goPrecharge (x : Tile) (now : Nat) : Tile :=
  { (x.unfreezeLoop now).enter now .precharge with precharged := false, capLeft := 0 }

/-- Enters SOFTSTART: i, s and every b[k] are 0 (R37, R51). -/
def Tile.goSoftstart (x : Tile) (now len : Nat) : Tile :=
  let y := { x.enter now .softstart with t0 := now, rampL := len, integ := 0, loopBase := 0, share := 0 }
  y.allPh fun _ p => { p with bal := 0 }

/-- Sets the ticks from which the phases of a mask switch again: the lowest at `first`, each further one a switching
period later, in ascending order (R45, R46). -/
def Tile.schedReturn (x : Tile) (mask first : Nat) : Tile :=
  x.allPh fun k p =>
    if bit mask k then { p with retAt := first + 2 * ((List.range k).filter (bit mask)).length } else p

/-- The phases whose return is due switch again; with none left shed the tile is in REGULATE (R43, R45). -/
def Tile.returnDue (x : Tile) (now : Nat) : Tile :=
  let y := x.allPh fun _ p => if p.shed && p.retAt != 0 && p.retAt ≤ now then { p with shed := false } else p
  if y.state = .shed ∧ y.shedMask = 0 then y.enter now .regulate else y

/-- The shed phases that are not returning. -/
def Tile.stillShed (x : Tile) : Nat := x.phMask fun p => p.shed && !p.retired && p.retAt == 0

/-- The shed phases of a tile in SHED return by themselves, from tick `first`, and SHED_REVERSED is reported with the
reason, 0 droop or 1 current rise (R46). -/
def Tile.reverseShed (x : Tile) (now first why : Nat) : Tile :=
  let m := x.stillShed
  if x.state = .shed ∧ m ≠ 0 then (x.schedReturn m first).pushEv now 0x0E (m + 16 * why) else x

/-- A duty with DROOP_BOOST on top, never past D_MAX (R41; log entry 14). -/
def Tile.boosted (x : Tile) (d : Nat) : Nat := min (d + x.par.droopBoost) (max d x.par.dMax)

/-- One phase as a droop input asserts `pos` steps into the period (R41): an on-pulse in progress is extended, and a phase that
has spent at least 32 steps off starts an on-pulse at once. A phase whose high side ILIM_PK has turned off stays off. -/
def Tile.droopPulse (x : Tile) (ofs pos k : Nat) (p : Phase) : Phase :=
  let since := (pos + 1024 - (128 * k + ofs) % 512) % 512
  if !x.activePh p || p.trip then p
  else if since < p.duty then { p with duty := x.boosted p.duty }
  else if 32 ≤ since - p.duty then { p with kick := some pos }
  else p

/-- A droop input of the mitten asserts at the tile (R41, R46): in REGULATE and SHED the pulses of the active phases are
extended or started, and the shed phases return from the next period start. `ofs` is the tile's placement offset. -/
def Tile.droopOn (x : Tile) (now ofs : Nat) : Tile :=
  let x := { x with droopIn := true, droopSeen := true, holdLeft := 0 }
  if !x.state.regulates then x
  else
    let y := if x.boost then x else ({ x with boost := true }).allPh (x.droopPulse ofs (256 * (now % 2)))
    y.reverseShed now (2 * (now / 2) + 2) 0

/-! ### The local loop (R37) -/

/-- `dff`: the feed-forward duty, rounded to the nearest step. -/
def Tile.dff (x : Tile) : Int :=
  if x.vin = 0 then Config.divByZero (256 * x.vref) else openNearest ((256 * (x.vref : Rat)) / (x.vin : Rat))

/-- The voltage loop of one period: the integrator moves unless it is held (every phase shed, or VSNS open). -/
def Tile.integrate (x : Tile) : Tile :=
  if x.loopFrozen || x.activeCount == 0 then x
  else
    let e : Rat := ((x.vref : Rat) - (x.vsns : Rat)) / 2
    { x with integ := clampQ (x.integ + (x.par.ki : Rat) / 256 * e) (-(x.par.intLim : Rat)) x.par.intLim }

/-- `d`: the common duty before the phases' terms (R37); a frozen loop gives dff + ff + s (R47). -/
def Tile.commonDuty (x : Tile) : Rat :=
  let e : Rat := ((x.vref : Rat) - (x.vsns : Rat)) / 2
  let c := clampQ ((x.par.kp : Rat) / 16 * e + x.integ) (-(x.par.corrLim : Rat)) x.par.corrLim
  (x.dff : Rat) + (x.ff : Rat) + (if x.loopFrozen then 0 else c) + x.share

/-- The duty of one phase for the coming period: balance, boost, the trim of a hold, then the clamp (R33, R37, R47). -/
def Tile.phaseDuty (x : Tile) (d : Rat) (p : Phase) : Nat :=
  if !x.activePh p then 0
  else
    let dk := min (d + p.bal + (if x.boost then (x.par.droopBoost : Rat) else 0)) (p.dutyCap : Rat)
    if dk ≤ 0 then 0 else (openRound (clampQ dk x.par.dMin x.par.dMax)).toNat

/-- The duties of the coming period; an aborted tile issues no pulse (R51). -/
def Tile.setDuties (x : Tile) : Tile :=
  let d := x.commonDuty
  x.allPh fun _ p => { p with duty := if x.latchAt != 0 then 0 else x.phaseDuty d p }

/-- The loop of the period that starts now: integrator, then duties. -/
def Tile.runLoop (x : Tile) (now : Nat) : Tile :=
  if x.state.runs then ({ ({ x with loopBase := x.integ }).integrate with loopAt := now + 1 }).setDuties
  else x.allPh fun _ p => { p with duty := 0 }

/-- The loop of this period runs again on what the sample boundary changed: MREF applies at the first switching period of
the sample (R15, R37). -/
def Tile.rerunLoop (x : Tile) (now : Nat) : Tile :=
  if x.loopAt = now + 1 then ({ x with integ := x.loopBase }).runLoop now else x.runLoop now

/-! ### The switching period (R37, R47, R66) -/

/-- Takes over what was measured over the period that has just ended; a phase's current is that of the CS channel that senses
it (R32, R54). -/
def Tile.measure (x : Tile) (m : PeriodMeas) : Tile :=
  let v := min m.vsns 4095
  let x := { x with
    vsns := v, vin := m.vin, vsnsSum := x.vsnsSum + v, nPer := x.nPer + 1, droopSeen := x.droopSeen || m.droop }
  x.allPh fun k p =>
    let i := match x.chanOf k with | 0 => m.i0 | 1 => m.i1 | 2 => m.i2 | _ => m.i3
    { p with iNow := i, iSum := p.iSum + i }

/-- Item 1 of R66: VIN reversed (R47, R48). -/
def Tile.checkReversed (x : Tile) (now : Nat) : Tile :=
  if x.vin < -100 then
    let x := if x.vinOkCnt != 0 then x.pushEv now 0x0D x.vinData else x
    let x := { x with vinOkCnt := 0 }
    if x.state.live then x.enter now .off else if x.state = .crowbar then x.enter now .latched else x
  else { x with vinOkCnt := min 64 (x.vinOkCnt + 1) }

/-- Item 2 of R66: own over-voltage detection in 2 consecutive periods (R47, R49), and the release count of R50. -/
def Tile.checkOver (x : Tile) (now : Nat) : Tile :=
  if x.state.live then
    if x.ovThr < x.vsns || 2300 < x.vsns then
      if 1 ≤ x.ovCnt then x.goCrowbar now true else { x with ovCnt := x.ovCnt + 1 }
    else { x with ovCnt := 0 }
  else if x.state = .crowbar then
    { x with crowOkCnt := if x.vsns + 100 < x.crowThr && x.vsns < 2200 then min 64 (x.crowOkCnt + 1) else 0 }
  else x

/-- Item 2 of R66: a CROWBAR command that waits for the sample boundary which this period starts at goes ahead of items 3 to 8,
and leaves the words that wait (R43, R49). -/
def Tile.takeCrowbar (x : Tile) (now : Nat) : Tile :=
  if now % 16 = 0 ∧ x.cmdQ.contains .crowbar then
    let y := if x.state.live then x.goCrowbar now false else x
    { y with cmdQ := y.cmdQ.filter (· != .crowbar) }
  else x

/-- The first switching-period start at or after a tick. -/
def evenUp (t : Nat) : Nat := 2 * ((t + 1) / 2)

/-- Item 3 of R66: the soft-start checkpoint (R51) and a short in operation (R47). An aborted tile pulls its mitten's
short net and enters LATCHED at the next period start. -/
def Tile.checkShort (x : Tile) (now : Nat) : Tile :=
  if x.latchAt != 0 then (if x.latchAt ≤ now then x.enter now .latched else x)
  else if x.state = .softstart then
    if evenUp (x.t0 + (x.rampL + 3) / 4) ≤ now && now < x.t0 + x.rampL && x.vsns < x.target / 5 && x.tripMask != 0 then
      { x.pushEv now 0x03 (x.vsns + x.tripMask * 4096 + x.sinceT0 now * 65536) with latchAt := now + 2, fltDrv := true }
    else x
  else if x.state.regulates then
    let h := ((decide (2 * x.vsns < x.vref) && x.tripMask != 0) :: x.shortHist).take 16
    let x := { x with shortHist := h }
    if 8 ≤ h.countP id then (x.pushEv now 0x04 (x.vsns + x.tripMask * 4096)).enter now .latched else x
  else x

/-- The lockouts of VIN (R47). A soft-start abort that waits for its latch keeps its way to LATCHED (R16, R51). -/
def Tile.checkLockout (x : Tile) (now : Nat) : Tile :=
  let x := { x with vinOvCnt := if 2150 < x.vin then min 2 (x.vinOvCnt + 1) else 0 }
  let off (x : Tile) : Tile := if x.latchAt = 0 then x.enter now .off else x
  if !x.state.live then x
  else if x.vin < 1500 then off (x.pushEv now 0x0B x.vinData)
  else if 2 ≤ x.vinOvCnt then off (x.pushEv now 0x0C x.vinData)
  else x

/-- The counts of VSNS open, of its exit and of an open phase over the period that has just ended (R47, R53). -/
def Tile.countOpen (x : Tile) : Tile :=
  let i := x.p0.iNow + x.p1.iNow + x.p2.iNow + x.p3.iNow
  let low := x.state.runs && !x.loopFrozen && decide (4 * x.vsns < x.vref) && x.tripMask == 0 && decide (500 ≤ i)
  let ok := x.loopFrozen && decide (3 * x.vref ≤ 4 * x.vsns) && decide (x.vsns ≤ x.vref + 2 * x.par.ovRel)
  let x := { x with lowCnt := if low then min 64 (x.lowCnt + 1) else 0, plausCnt := if ok then min 1024 (x.plausCnt + 1) else 0 }
  x.allPh fun _ p =>
    { p with openCnt := if x.activePh p && 32 ≤ p.duty && p.iNow.natAbs < 10 * x.par.openTh then min 16 (p.openCnt + 1) else 0 }

/-- The droop inputs as the period's measurement shows them: an assertion boosts, also where the tile has come to REGULATE with
an input asserted (R41); the last deassertion starts DROOP_HOLD periods of boost. -/
def Tile.followDroop (x : Tile) (now ofs : Nat) (droop : Bool) : Tile :=
  if droop then (if x.droopIn && (x.boost || !x.state.regulates) then { x with droopSeen := true } else x.droopOn now ofs)
  else if x.droopIn then { x with droopIn := false, holdLeft := x.par.droopHold }
  else if x.boost then { x with holdLeft := x.holdLeft - 1 }
  else x

/-- One switching period of a tile at its start: the checks of R66 over the period that has just ended, then the loop and
the duties of the period that starts. -/
def Tile.period (x : Tile) (now ofs : Nat) (m : PeriodMeas) : Tile :=
  let x := (((x.measure m).checkReversed now).checkOver now).takeCrowbar now
  let x := ((x.checkShort now).checkLockout now).countOpen
  let x := ((x.allPh fun _ p => { p with kick := none }).followDroop now ofs m.droop).returnDue now
  (x.runLoop now).allPh fun _ p => { p with trip := false, negTrip := false }

/-! ### Phase placement (R34, R38, R42) -/

/-- OFS of a tile: SET_OFS's, or (16p + 4m + f) mod 128 (R34). -/
def State.ofsOf (s : State) (t : Nat) : Nat := (s.tile t).ofs.getD ((16 * (t % 6) + 4 * (t / 6) + s.inst.fieldId) % 128)
/-- The step at which phase `k` turns its high side on (R34). -/
def State.onStep (s : State) (t k : Nat) : Nat := (128 * k + s.ofsOf t) % 512
/-- The step at which it turns it off; past 511 it lands in the next period (R34). -/
def State.offStep (s : State) (t k : Nat) : Nat := (s.onStep t k + ((s.tile t).ph k).duty) % 512
/-- The steps from and until which the low side is on, when it conducts (R34). -/
def State.lowSteps (s : State) (t k : Nat) : Nat × Nat :=
  ((s.offStep t k + (s.tile t).par.dt) % 512, (s.onStep t k + 512 - (s.tile t).par.dt) % 512)

/-- Whether a step of the period lies in the window that runs from one step to another, past 511 into the next period. -/
def inWindow (lo hi step : Nat) : Bool := if lo ≤ hi then lo ≤ step && step < hi else lo ≤ step || step < hi

/-- What a low side does in a period: off, on, on between two steps, or on between them only while the phase's current has not
reached 0 mA (R34, R38, R42, R51). -/
inductive LowSide where
  | off
  | on
  | within (a b : Nat)
  | flowing (a b : Nat)
  deriving DecidableEq, Repr

/-- Whether the low side conducts at a step; `zero` says whether the phase's current has reached 0 mA in the period. -/
def LowSide.at (l : LowSide) (step : Nat) (zero : Bool) : Bool :=
  match l with
  | .off => false
  | .on => true
  | .within a b => inWindow a b step
  | .flowing a b => inWindow a b step && !zero

/-- The low side of a phase (R38, R42): diode emulation in PRECHARGE and SOFTSTART, forced conduction in REGULATE and SHED but
for a shed phase and after ILIM_NEG, on in CROWBAR, off elsewhere; a retired phase is off in every state. A tile that has
aborted its soft start opens each low side as its current reaches zero, within 2 periods (R51). -/
def State.lowSide (s : State) (t k : Nat) : LowSide :=
  let x := s.tile t
  let p := x.ph k
  let (a, b) := s.lowSteps t k
  if p.retired then .off
  else match x.state with
    | .off | .retired => .off
    | .latched => if x.fltDrv && s.time < x.enteredAt + 2 then .flowing a b else .off
    | .crowbar => .on
    | .precharge | .softstart => .flowing a b
    | .regulate | .shed => if p.shed || p.negTrip then .off else .within a b

/-- The high side of a phase at a step (R34, R41, R42, R47): its pulse, and one that a droop has started; off after ILIM_PK and in
every state but SOFTSTART, REGULATE and SHED. -/
def State.highSide (s : State) (t k step : Nat) : Bool :=
  let x := s.tile t
  let p := x.ph k
  x.activePh p && !p.trip && x.latchAt == 0 &&
    ((step + 512 - s.onStep t k) % 512 < p.duty ||
      match p.kick with
      | some a => decide (a ≤ step ∧ step < a + x.boosted p.duty)
      | none => false)

/-- SWITCHING_PERIOD (R33 to R38, R47 to R51). The period in which RST_N was asserted ends in OFF (R243). -/
def execSwitchingPeriod (t : Fin 192) (x : PeriodMeas) (s : State) : Out :=
  if (s.tile t).rst then .next (s.updTile t fun _ => {})
  else if s.time % 2 ≠ 0 ∨ s.inst.inReset then .next s
  else .next (s.updTile t fun y => y.period s.time (s.ofsOf t) x)

/-! ### The sample boundary (R37, R40, R43, R46, R47, R57 to R65) -/

/-- Closes the averages of the sample that ends (R32, R45, R61). -/
def Tile.closeSample (x : Tile) : Tile :=
  let avg (v : Int) : Int := if x.nPer = 0 then 0 else openRound ((v : Rat) / (x.nPer : Rat))
  let y := x.allPh fun _ p => { p with iAvg := avg p.iSum, iSum := 0 }
  let tot := x.p0.iSum + x.p1.iSum + x.p2.iSum + x.p3.iSum
  { y with
    itilePrev := x.itile
    itile := if x.state.runs && x.activeCount == 0 then 0 else avg tot
    vsnsAvg := (avg x.vsnsSum).toNat, vsnsSum := 0, nPer := 0 }

/-- The TREP of the sample that ends at `now` (R61). -/
def Tile.makeTrep (x : Tile) (now pos : Nat) : Tile :=
  { x with
    trep := trepWord pos (tileCode x.state) (clampI x.itile (-32768) 32767) x.vsnsAvg x.activeMask x.retiredMask x.ilimSeen
      x.droopSeen (x.phMask (fun p => p.holdCont || p.holdTrans) != 0) x.evtLost ((now / 16 + 15) % 16)
    ilimSeen := false, droopSeen := x.droopIn, evtLost := false }

/-- The SYNC watch of R65 and the SPINE_ERR report of discarded words (R63; log entry 15). -/
def Tile.closeSpine (x : Tile) (now : Nat) : Tile :=
  let x := { x with syncMiss := if x.syncOk then 0 else min 16 (x.syncMiss + 1), syncOk := false }
  if x.spineErr != 0 && !(x.events.any fun e => e.code == 0x12) then
    { x.pushEv now 0x12 (min x.spineErr 65535) with spineErr := 0 }
  else x

/-- The counts towards ILIM_TRANS and ILIM_CONT holds over the sample that ends (R47); the trim to ILIM_TRANS ends with the first
sample whose average does not exceed it (log entry 70). -/
def Tile.countHolds (x : Tile) : Tile :=
  x.allPh fun _ p =>
    let on := x.activePh p
    { p with
      holdTrans := on && decide ((10 * x.par.ilimTrans : Nat) < p.iAvg)
      overCnt := if on && !p.holdCont && decide ((10 * x.par.ilimCont : Nat) < p.iAvg) then min 255 (p.overCnt + 1) else 0
      underCnt := if p.holdCont && decide (p.iAvg < (9 * x.par.ilimCont : Nat)) then min 16 (p.underCnt + 1) else 0 }

/-- The duty ceilings of held phases for the coming sample: an open value for each held phase (R47; log entry 10). -/
def Tile.capDuties (x : Tile) (n : Nat) : Tile :=
  x.allPh fun k p => { p with dutyCap := if p.holdCont || p.holdTrans then (Config.holdDuty (4 * n + k)).toNat else 511 }

/-- A current rise above SHED_RISE returns the shed phases from the boundary (R46). -/
def Tile.checkRise (x : Tile) (now : Nat) : Tile :=
  if (10 * x.par.shedRise : Nat) < x.itile - x.itilePrev then x.reverseShed now now 1 else x

/-- MREF and MSUM of the sample apply; without an MREF VREF holds and FF is 0 (R58, R65). -/
def Tile.applyRef (x : Tile) : Tile :=
  let x := match x.mrefNext with
    | some (v, f) => { x with vref := v, ff := f, mrefNext := none }
    | none => { x with ff := 0 }
  match x.msumNext with
  | some (i, m) => { x with imit := i, msumMargin := some m }
  | none => { x with msumMargin := none }

/-- The share and balance trims (R37); without an MSUM they stay (R65). itile and i_phase are the averages over the sample that
has ended (log entry 70). -/
def Tile.trims (x : Tile) : Tile :=
  if !x.state.runs || x.msumNext.isNone then x
  else
    let ishare : Rat := (x.w : Rat) * (x.imit : Rat) / 25600
    let sh := clampQ (x.share + (x.par.ks : Rat) / 16 * (ishare - (x.itile : Rat) / 1000)) (-(x.par.sLim : Rat)) x.par.sLim
    let n := x.activeCount
    let tot : Int := (if x.activePh x.p0 then x.p0.iAvg else 0) + (if x.activePh x.p1 then x.p1.iAvg else 0) +
      (if x.activePh x.p2 then x.p2.iAvg else 0) + (if x.activePh x.p3 then x.p3.iAvg else 0)
    let mean : Rat := if n = 0 then 0 else (tot : Rat) / (n : Rat)
    ({ x with share := sh }).allPh fun _ p =>
      if x.activePh p then
        { p with bal := clampQ (p.bal + (x.par.kb : Rat) / 16 * ((mean - (p.iAvg : Rat)) / 1000)) (-(x.par.bLim : Rat)) x.par.bLim }
      else p

/-- SHED at a boundary: refused, with the commanded mask, when a shed return or an UNSHED falls at the same boundary (R46, R63,
R98). In SHED it sheds the further phases it names (log entry 70). -/
def Tile.doShed (x : Tile) (now mask : Nat) (refuse : Bool) : Tile :=
  let named := listMask ((List.range 4).filter fun k => bit mask k && !(x.ph k).retired)
  let m := listMask ((maskList 4 named).filter fun k => !(x.ph k).shed)
  if !x.state.regulates || named = 0 then x
  else if refuse then x.pushEv now 0x0F (mask % 16)
  else if m = 0 then x
  else
    let y := x.allPh fun k p => if bit m k then { p with shed := true, retAt := 0, duty := 0 } else p
    if y.state = .regulate then { y with state := .shed, enteredAt := now } else y

/-- UNSHED at a boundary: the named shed phases return one per period (R45). -/
def Tile.doUnshed (x : Tile) (now mask : Nat) : Tile :=
  let m := listMask ((List.range 4).filter fun k => bit mask k && bit x.stillShed k)
  if x.state = .shed then (x.schedReturn m now).returnDue now else x

/-- CLEAR at a boundary: CROWBAR and LATCHED return to OFF when their cause has cleared, else CLEAR_REFUSED (R50). -/
def Tile.doClear (x : Tile) (now : Nat) : Tile :=
  let ok := match x.state with
    | .crowbar => some (decide (64 ≤ x.crowOkCnt))
    | .latched => some (decide (64 ≤ x.vinOkCnt))
    | .off | .precharge | .softstart | .regulate | .shed | .retired => none
  match ok with
  | none => x
  | some true => x.enter now .off
  | some false => x.pushEv now 0x10 x.vsns

/-- One waiting word takes effect (R43, R59, R60). A tile in RETIRED takes nothing but what stays until RST_N (R44), and STOP
takes no soft-start abort back that waits for its latch (R16, R51). -/
def Tile.apply (x : Tile) (now : Nat) (refuse : Bool) : TileWord → Tile
  | .nop => x
  | .start => if x.state = .off ∧ 1530 ≤ x.vin then x.goPrecharge now else x
  | .ssTarget c => { x with target := c % 4096 }
  | .ssGo l => if x.state = .precharge ∧ x.precharged ∧ 16 ≤ l then x.goSoftstart now l else x
  | .stop => if x.state.live ∧ x.latchAt = 0 then x.enter now .off else x
  | .shed m => x.doShed now m refuse
  | .unshed m => x.doUnshed now m
  | .retirePhase m => if x.state = .retired then x else x.retirePhases now (m % 16) 2
  | .retireTile => x.goRetired now 1
  | .crowbar => if x.state.live then x.goCrowbar now false else x
  | .clear => x.doClear now
  | .setOfs o => { x with ofs := some (o % 128) }
  | .setShare w => { x with w := w % 256 }
  | .capTest d => if x.state = .precharge ∧ 1 ≤ d then { x with capLeft := d, capStart := x.vsns, capT0 := now } else x
  | .cfg k c => { x with par := x.par.cfg k c }

/-- Whether a word is an UNSHED of some phase. -/
def TileWord.isUnshed : TileWord → Bool
  | .unshed m => m != 0
  | .nop | .start | .ssTarget _ | .ssGo _ | .stop | .shed _ | .retirePhase _ | .retireTile | .crowbar | .clear
  | .setOfs _ | .setShare _ | .capTest _ | .cfg _ _ => false

/-- The waiting words take effect: CROWBAR first (R66), the others oldest first. -/
def Tile.applyAll (x : Tile) (now : Nat) : Tile :=
  let refuse := x.phMask (fun p => p.retAt != 0 && now ≤ p.retAt) != 0 || x.cmdQ.any TileWord.isUnshed ||
    x.events.any (fun e => e.code == 0x0E && e.tick == now)
  let q := x.cmdQ.filter (· == .crowbar) ++ x.cmdQ.filter (· != .crowbar)
  { q.foldl (fun y w => y.apply now refuse w) x with cmdQ := [] }

/-- One sample boundary of a tile, protection before commands (R66). The trims run on the averages of the sample that has ended,
with the share weight and parameters in force in it, before the words of the boundary apply (log entry 70). -/
def Tile.boundary (x : Tile) (now pos fresh : Nat) : Tile :=
  let x := ((x.closeSample.makeTrep now pos).closeSpine now).countHolds.capDuties fresh
  let x := ((x.checkRise now).returnDue now).applyRef
  let x := { (x.trims.applyAll now) with msumNext := none }
  ({ x with vrefHist := (x.vref :: x.vrefHist).take 16 }).rerunLoop now

/-- Whether a tile can drive MTHR: it works (R20, R95), and is in no state that has it off or clamped for good. A tile that has
become RETIRED at this very boundary still counts, so that the next position takes over at the following one (R40). -/
def State.drives (s : State) (t : Nat) : Bool :=
  match (s.tile t).state with
  | .crowbar | .latched => false
  | .retired => (s.tile t).enteredAt == s.time && s.time != 0
  | .off | .precharge | .softstart | .regulate | .shed => s.working t

/-- The lowest working position of a mitten drives MTHR (R40). -/
def State.thrDriver (s : State) (m : Nat) : Option Nat := ((List.range 6).map (6 * m + ·)).find? s.drives

/-- DROOP_MARGIN in force at a tile: the MSUM's in a sample that had one, else the CFG value (R60). -/
def Tile.margin (x : Tile) : Nat := x.msumMargin.getD x.par.droopMargin

/-- The mitten's droop threshold follows the tile that drives it (R40). -/
def State.driveThr (s : State) (t : Nat) : State :=
  if s.thrDriver (t / 6) = some t ∧ (s.tile t).state ≠ .retired then s.updMitten (t / 6) fun m => { m with thr := (s.tile t).vref - 2 * (s.tile t).margin }
  else s

/-- TILE_SAMPLE_BOUNDARY (R37, R40, R43, R46, R47, R57, R61, R64, R65). -/
def execTileSampleBoundary (t : Fin 192) (s : State) : Out :=
  if s.time % 16 ≠ 0 ∨ s.inst.inReset then .next s
  else
    let s := { s with fresh := s.fresh + 1 }
    .next ((s.updTile t fun y => y.boundary s.time (t % 24) s.fresh).driveThr t)

/-! ### Events of a tile -/

/-- DROOP_ASSERT (R41, R46). -/
def execDroopAssert (m : Fin 32) (s : State) : Out :=
  .next (forIdx 6 (fun p s => s.updTile (6 * m + p) fun x => x.droopOn s.time (s.ofsOf (6 * m + p))) s)

/-- DROOP_HOLD_EXPIRY (R41): the boost ends and the duties are computed without it. -/
def execDroopHoldExpiry (t : Fin 192) (s : State) : Out :=
  .next (s.updTile t fun x =>
    if x.boost && !x.droopIn && x.holdLeft == 0 then
      let y := { x with boost := false }
      if x.state.runs then y.setDuties else y
    else x)

/-- ILIM_PK (R47): the comparator on CSk trips, and the high side of the phase that k senses is off for the rest of the
period. -/
def execIlimPk (t : Fin 192) (k : Fin 4) (s : State) : Out :=
  .next (s.updTile t fun x =>
    let j := x.phaseAt k
    if x.activePh (x.ph j) then { x.updPh j fun p => { p with trip := true } with ilimSeen := true } else x)

/-- ILIM_NEG (R47): the low side of the phase that CSk senses is off for the rest of the period. -/
def execIlimNeg (t : Fin 192) (k : Fin 4) (s : State) : Out :=
  .next (s.updTile t fun x =>
    let j := x.phaseAt k
    if x.activePh (x.ph j) then x.updPh j fun p => { p with negTrip := true } else x)

/-- The hold of a phase to ILIM_CONT changes at the boundary: its ceiling stands from the sample that starts, the loop runs again
on it, and ILIM_HOLD names the phases held after the change (R47, R63; log entries 10 and 70). -/
def Tile.setHold (x : Tile) (now fresh k : Nat) (on : Bool) : Tile :=
  let y := x.updPh k fun p => { p with
    holdCont := on, overCnt := 0, underCnt := 0
    dutyCap := if on || p.holdTrans then (Config.holdDuty (4 * fresh + k)).toNat else 511 }
  let y := if y.loopAt = now + 1 then y.rerunLoop now else y
  y.pushEv now 0x09 (y.phMask Phase.holdCont + 16 * b2n on)

/-- ILIM_HOLD (R47): the hold to ILIM_CONT is entered or left, from the sample that starts, and reported. -/
def execIlimHold (t : Fin 192) (k : Fin 4) (s : State) : Out :=
  let s := { s with fresh := s.fresh + 1 }
  let p := (s.tile t).ph k
  if !p.holdCont && (s.tile t).par.tlim ≤ p.overCnt then .next (s.updTile t fun x => x.setHold s.time s.fresh k true)
  else if p.holdCont && 16 ≤ p.underCnt then .next (s.updTile t fun x => x.setHold s.time s.fresh k false)
  else .next s

/-- MCRB_N (R49): every tile of the mitten in PRECHARGE to SHED enters CROWBAR; the others ignore the net. -/
def execMcrbN (m : Fin 32) (s : State) : Out :=
  .next (forIdx 6 (fun p s => s.updTile (6 * m + p) fun x => if x.state.live then x.goCrowbar s.time false else x) s)

/-- MFLT_N (R52): a tile in SOFTSTART latches and reports MFLT_LATCH; one that has aborted on its own goes on to its own
LATCHED; the others ignore the net. -/
def execMfltN (m : Fin 32) (s : State) : Out :=
  .next (forIdx 6 (fun p s => s.updTile (6 * m + p) fun x =>
    if x.state = .softstart ∧ x.latchAt = 0 then
      (x.pushEv s.time 0x13 (x.vsns + x.sinceT0 s.time * 65536)).enter s.time .latched
    else x) s)

/-- VSNS_OPEN (R47): after 64 periods the voltage loop freezes. -/
def execVsnsOpen (t : Fin 192) (s : State) : Out :=
  .next (s.updTile t fun x =>
    if x.state.runs && !x.loopFrozen && 64 ≤ x.lowCnt then
      ({ x with loopFrozen := true, plausCnt := 0 }).pushEv s.time 0x0A (x.vsns + 4096)
    else x)

/-- VSNS_OPEN_EXIT (R47): after 1,024 plausible periods the loop runs again from the held integrator. -/
def execVsnsOpenExit (t : Fin 192) (s : State) : Out :=
  .next (s.updTile t fun x => if x.loopFrozen && 1024 ≤ x.plausCnt then x.unfreezeLoop s.time else x)

/-- OPEN_PHASE (R53): the phase is retired and reported; a second one retires the tile. -/
def execOpenPhase (t : Fin 192) (k : Fin 4) (s : State) : Out :=
  .next (s.updTile t fun x =>
    if !(x.ph k).retired && 16 ≤ (x.ph k).openCnt then (x.pushEv s.time 0x06 k).retirePhases s.time (2 ^ k.val) 2 else x)

/-! ### Start checks (R54, R55) -/

/-- Pulse `k`. -/
def pulseOf (x : StartPulses) (k : Nat) : Pulse := match k with | 0 => x.k0 | 1 => x.k1 | 2 => x.k2 | _ => x.k3

/-- The channel on which the rise of pulse `k` appeared. -/
def pulseChan (x : StartPulses) (k : Nat) : Option Nat := ((pulseOf x k).chans.head?).map Fin.val

/-- Whether another pulse appeared on the channel of pulse `k`. -/
def pulseShared (x : StartPulses) (k : Nat) : Bool :=
  (pulseChan x k).isSome && (List.range 4).any fun j => j != k && pulseChan x j == pulseChan x k

/-- L of pulse `k` in units of 0.1 nH, exact: (VIN − VSNS) × 1 ns / ΔI. -/
def pulseL (t : Tile) (x : StartPulses) (k : Nat) : Rat :=
  let r := (pulseOf x k).rise
  if r = 0 then 0 else 10 * ((t.vin : Rat) - (t.vsns : Rat) / 2) / (r : Rat)

/-- DATA of PHASE_MAP (R63). -/
def phaseMapData (x : StartPulses) : Nat :=
  let chan k := (pulseChan x k).getD 0
  let ident := (List.range 4).all fun k => pulseChan x k == some k
  chan 0 + 4 * chan 1 + 16 * chan 2 + 64 * chan 3 + 256 * b2n (!ident) +
    512 * b2n ((List.range 4).any (pulseShared x)) + 1024 * listMask ((List.range 4).filter fun k => (pulseChan x k).isNone)

/-- The L code of pulse `k`, saturating at 0xFE; 0xFF where the pulse was measured on no channel of its own. -/
def pulseCode (t : Tile) (x : StartPulses) (k : Nat) : Nat :=
  if (pulseChan x k).isNone || pulseShared x k then 0xFF else (clampI (openRound (pulseL t x k)) 0 0xFE).toNat

/-- Whether the L of pulse `k` lies outside 4.7 nH to 12.0 nH. -/
def pulseOutside (t : Tile) (x : StartPulses) (k : Nat) : Bool :=
  (pulseChan x k).isSome && !pulseShared x k && (decide (pulseL t x k < 47) || decide (120 < pulseL t x k))

/-- The start checks of the first PRECHARGE after RST_N: the map and L of each phase, the events in the order of R54, and
the phases that are retired; cause 4 where these checks retire two or more. -/
def Tile.startChecks (t : Tile) (now : Nat) (x : StartPulses) : Tile :=
  let whole := (List.range 4).all fun k => (pulseChan x k).isSome && !pulseShared x k
  let y := ({ t with checked := true, mapData := phaseMapData x }).allPh fun k p =>
    { p with lCode := pulseCode t x k, csChan := if whole then ((pulseChan x k).getD k + 4 - k) % 4 else p.csChan }
  let y := y.pushEv now 0x02 y.mapData
  let y := (List.range 4).foldl (fun y k =>
    if (pulseChan x k).isNone then y.pushEv now 0x06 k
    else if pulseOutside t x k then y.pushEv now 0x07 (k + 256 * pulseCode t x k) else y) y
  let bad := (List.range 4).filter fun k => (pulseChan x k).isNone || pulseShared x k || pulseOutside t x k
  y.retirePhases now (listMask bad) (if 2 ≤ bad.length then 4 else 2)

/-- PRECHARGE_DONE (R43, R54): the start checks on the first PRECHARGE after RST_N, then the report. -/
def execPrechargeDone (t : Fin 192) (x : StartPulses) (s : State) : Out :=
  .next (s.updTile t fun y =>
    if y.state = .precharge ∧ ¬ y.precharged then
      let y := if y.checked then y else y.startChecks s.time x
      if y.state = .precharge then { y.pushEv s.time 0x01 (lWord y) with precharged := true } else y
    else y)

/-- CAP_DONE (R55): the test's duration is over and the rise of VSNS is reported. -/
def execCapDone (t : Fin 192) (s : State) : Out :=
  .next (s.updTile t fun x =>
    if x.state = .precharge ∧ x.capLeft ≠ 0 ∧ x.capT0 + x.capLeft ≤ s.time then
      { x.pushEv s.time 0x11 ((x.vsns - x.capStart) % 4096 + x.capLeft * 65536) with capLeft := 0 }
    else x)

/-- RAMP_END (R43): at the ramp end, rounded up to a switching period, SOFTSTART becomes REGULATE; a droop input that is asserted
acts there (R41). -/
def execRampEnd (t : Fin 192) (s : State) : Out :=
  .next (s.updTile t fun x =>
    if x.state = .softstart ∧ x.latchAt = 0 ∧ evenUp (x.t0 + x.rampL) ≤ s.time then
      let y := x.enter s.time .regulate
      if y.droopIn then y.droopOn s.time (s.ofsOf t) else y
    else x)

/-- SPINE_LOSS (R65): 16 samples without a valid SYNC retire the tile. -/
def execSpineLoss (t : Fin 192) (s : State) : Out :=
  .next (s.updTile t fun x => if 16 ≤ x.syncMiss then x.goRetired s.time 3 else x)

/-- PENDING_EVENT_EXPIRY (R64): events unsent 64,000 ticks after detection are dropped with EVT_LOST. -/
def execPendingEventExpiry (t : Fin 192) (s : State) : Out :=
  .next (s.updTile t fun x =>
    let keep := x.events.filter fun e => s.time < e.tick + 64000
    if keep.length = x.events.length then x else { x with events := keep, evtLost := true })

end Sys2Proof.Machine
end

