-- ==== Sys2Proof/Machine/HostRead.lean ====
section
/-!
DEFINITION. Reads of host registers (R6, R391 to R396, R401 to R423): every register of the map with its defined bits, the
64-bit values with their latch, the fields that a read clears, and the reads that need privilege. Undefined bits read a free
value (log entry 5).
-/

namespace Sys2Proof.Machine

/-- A word as it reads: its value and the mask of its defined bits. -/
abbrev RegWord := Nat × Nat

/-- Every bit of a word. -/
def allBits : Nat := 2 ^ 32 - 1
/-- A signed value in a field of 16 bits, saturating. -/
def sat16 (x : Int) : Nat := uext 16 (clampI x (-32768) 32767)
/-- Two halves of a word. -/
def pair16 (lo hi : Nat) : Nat := lo % 65536 + hi % 65536 * 65536
/-- A word that only the manager shows (R396). -/
def State.mgrOnly (s : State) (x : RegWord) : RegWord := if s.inst.manager then x else (0, allBits)
/-- The number of a set of flags, the first lowest. -/
def flags (l : List Bool) : Nat := (l.zipIdx.map fun (b, i) => b2n b * 2 ^ i).sum

/-! ### Global, engine and fault registers (R402 to R406, R285, R286) -/

/-- The words of the global block (R402). -/
def State.globalWord (s : State) (a : Nat) : RegWord :=
  let n := s.inst
  match a with
  | 0x00 => (0x275 * 65536 + 0x0821, 0x07FFFFFF)
  | 0x04 => (n.fwVer % 65536 + (if n.manager && s.tth.trained then verMax else s.tth.version) % 16 * 2 ^ 16 + n.fmtVer % 16 * 2 ^ 20, 0xFFFFFF)
  | 0x08 => (b2n s.host.lock, 1)
  | 0x0C =>
    let cause := ((List.range 7).filter (bit n.gndMask)).foldl max 0
    (flags [n.ready, s.grounded, n.manager, s.tth.timeValid] + n.verdict % 4 * 16 + b2n n.lockstep * 64 + b2n n.holdover * 128 +
      n.imgRc % 256 * 2 ^ 8 + cause * 2 ^ 16 + n.fieldId % 8 * 2 ^ 20 + b2n s.faultNLow * 2 ^ 23 + n.gndMask % 128 * 2 ^ 24, 0x7FFFFFFF)
  | 0x10 =>
    let pend := s.decs.any fun x => match x.what with
      | .mode _ => true
      | .alloc _ _ | .ringUp _ | .offAll | .run _ _ => false
    (modeCode s.modeNow + 4 * b2n pend, 7)
  | 0x14 => (0, 0)
  | 0x18 => (s.host.arg.toNat, allBits)
  | 0x1C => (b2n s.host.cmd.isSome + b2n s.host.ignored * 8 + s.host.result % 16 * 16 + s.host.code % 256 * 256 + s.host.seq % 65536 * 65536,
      0xFFFFFFF9)
  | _ => (s.host.scr.toNat, allBits)

/-- Whether two lanes are paired on one array (R168). -/
def State.pairedAt (s : State) (l : Nat) : Bool := (placement s.eng.retired).any fun p => p.2.contains l && p.2.length == 2

/-- The words of the engine block (R403). -/
def State.engineWord (s : State) (a : Nat) : RegWord :=
  let e := s.eng
  let b (k : Nat) : Nat := nth 0 e.budW k
  if a = 0x100 then (e.retired % 16 + b2n (s.pairedAt 0) * 16 + b2n (s.pairedAt 2) * 32 + b2n e.budRefused * 256 + min 65535 e.bad.length * 65536,
      0xFFFF013F)
  else if a < 0x130 then
    let x := e.lane ((a - 0x110) / 8)
    if a % 8 = 0 then (x.status % 2 ^ 32, allBits)
    else (x.status / 2 ^ 32 % 256 + x.desc % 256 * 256 + x.prog % 64 * 65536, 0x3FFFFF)
  else if a = 0x130 then (pair16 (b 0) (b 1), allBits)
  else if a = 0x134 then (pair16 (b 2) (b 3), allBits)
  else if a = 0x138 then (b 4 % 65536 + b 5 % 256 * 65536, 0xFFFFFF)
  else (e.need % 65536, 0xFFFF)

/-- The frames to an occurrence's next rung, saturating; 0 when none is due (R405). -/
def State.rungLeft (s : State) (o : Occ) : Nat :=
  if o.ack ∨ (faultEsc o.cls).2.length ≤ o.rungIdx then 0 else min 65535 (o.start + o.timer - frameOf s.time)

/-- The words of the fault block (R281, R285, R286, R405, R406). -/
def State.faultWord (s : State) (a : Nat) : RegWord :=
  let f := s.flt
  let o := f.occs[f.occIdx]?
  if 0x1100 ≤ a then
    let h := tget {} f.hist ((a - 0x1100) / 32)
    match (a - 0x1100) / 4 % 8 with
    | 0 => (h.time % 2 ^ 32, allBits)
    | 1 => (h.time / 2 ^ 32 % 2 ^ 32, allBits)
    | 2 => (h.cls % 256 + h.sev % 4 * 2 ^ 8 + h.repeats % 64 * 2 ^ 10 + h.seq % 65536 * 2 ^ 16, allBits)
    | 3 => (h.src, allBits)
    | 4 => (h.data, allBits)
    | 5 => (h.last, allBits)
    | _ => (0, 0)
  else match a with
    | 0x1000 => (f.head % 65536 + b2n f.any * 65536, 0x1FFFF)
    | 0x1004 => (0, 0)
    | 0x1008 => (f.occs.length % 8192 + (f.occs.filter fun o => 2 ≤ o.sev).length % 8192 * 65536, 0x1FFF1FFF)
    | 0x100C => (f.retries % 8 + f.gap % 65536 * 65536, 0xFFFF0007)
    | 0x1010 => (f.escSel % 256, 0xFF)
    | 0x1014 => (if (faultEsc f.escSel).2.isEmpty then 0 else s.escTimer f.escSel, 0xFFFFF)
    | 0x1018 => (f.occIdx, 0xFFF)
    | 0x101C => match o with
      | some o => (o.cls % 256 + o.sev % 4 * 256 + o.rung % 8 * 1024 + b2n o.ack * 2 ^ 13 + 2 ^ 14 + s.rungLeft o * 2 ^ 16, 0xFFFF7FFF)
      | none => (0, 0xFFFF7FFF)
    | _ => ((o.map (·.src)).getD 0, allBits)

/-! ### Recorder, housekeeping, telemetry, PMBus (R312 to R314, R337, R407, R408) -/

/-- The words of the recorder (R337). -/
def State.logWord (s : State) (a : Nat) : RegWord :=
  let l := s.log
  if 0x2040 ≤ a then (if s.logRdy then (nth 0 l.win ((a - 0x2040) / 4)).toNat else 0, allBits)
  else match a with
    | 0x2000 => (b2n l.src, 1)
    | 0x2004 => (flags [s.logRdy, l.stEnd, l.skip, l.crcBad, l.winOpen, l.noLog, l.flushing, l.pfDone], 0xFF)
    | 0x2008 => (l.cur, allBits)
    | 0x200C =>
      let free := if s.inst.manager && l.info.found && l.usable && !l.noLog then min 65535 (s.erasedSlots / 2) else 0
      ((l.buf.filter fun r => !r.gone).length % 2048 + free * 65536, 0xFFFF07FF)
    | 0x2010 => (l.lost % 2 ^ 32, allBits)
    | 0x2014 => s.mgrOnly (l.pfGuar % 256, 0xFF)
    | 0x2018 => s.mgrOnly (s.opMin s.time % 2 ^ 32, allBits)
    | _ => s.mgrOnly (l.pwrCyc % 2 ^ 24, 0xFFFFFF)

/-- The words of a domain's telemetry record (R312). -/
def DomTlm.word (x : DomTlm) (k : Nat) : RegWord :=
  match k with
  | 0 => (x.pAvg, allBits)
  | 1 => (x.iAvg % 65536 + x.vminAvg % 4096 * 65536, 0x0FFFFFFF)
  | 2 => (uext 16 x.tMax + x.vset % 4096 * 65536, 0x0FFFFFFF)
  | 3 => (uext 8 (clampI x.fff (-128) 127) + x.clm % 16 * 256 + x.vminSrc % 4096 * 65536, 0x0FFF0FFF)
  | 4 => (x.pPk, allBits)
  | 5 => (x.iPk, 0xFFFF)
  | 6 => (x.vLo, 0xFFF)
  | _ => (uext 16 x.tPk, 0xFFFF)

/-- The words of the housekeeping and telemetry block (R407, R408). -/
def State.hkWord (s : State) (a : Nat) : RegWord :=
  let h := s.hk
  if a < 0x3100 then
    match a with
    | 0x3000 => (b2n ((h.lpNext.map (·.1)).getD h.lp), 1)
    | 0x3004 => (flags [h.lpRefused, h.on], 3)
    | 0x3008 => s.mgrOnly (min 65535 s.pmb.late, 0xFFFF)
    | 0x3010 => (h.win % 8, 7)
    | _ => (h.tlmSeq % 65536, 0xFFFF)
  else if a < 0x3200 then
    let e := s.adc ((a - 0x3100) / 16)
    match a / 4 % 4 with
    | 0 => (sat16 e.avg, 0xFFFF)
    | 1 => (pair16 (sat16 e.mn) (sat16 e.mx), allBits)
    | 2 => (e.last, 0xFFFF)
    | _ => (flags [e.valid, e.sat, e.range, e.rev], 0xF)
  else if a < 0x3300 then
    match a with
    | 0x3200 => (h.vinAvg, 0xFFFF)
    | 0x3204 => (h.iinAvg, allBits)
    | 0x3208 => (h.pFld, allBits)
    | 0x320C => (h.vinLo, 0xFFFF)
    | 0x3210 => (h.iinPk, allBits)
    | _ => (h.pPk, allBits)
  else if a < 0x3400 then
    let c := s.cluster ((a - 0x3300) / 8)
    if a % 8 = 0 then (c.clStr % 2 ^ 32, allBits) else (c.clMin, 0xF)
  else if a < 0x3800 then (s.dom ((a - 0x3400) / 32)).tlm.word (a / 4 % 8)
  else if a < 0x3C00 then ((tget 0 s.eng.slots ((a - 0x3800) / 4)).toNat, allBits)
  else
    let p := s.pdev ((a - 0x3C00) / 16)
    s.mgrOnly (match a / 4 % 4 with
      | 0 => (pair16 p.vin p.vout, allBits)
      | 1 => (pair16 p.iout (sat16 p.temp), allBits)
      | 2 => (p.status, 0xFFFF)
      | _ => (flags [p.present, p.stale, p.clash, p.nolin], 0xF))

/-! ### Caps and energy (R190, R409) -/

/-- CAP_HINT (R190). -/
def State.capHint (s : State) : Nat := min 15 s.lim.ladM.stack.length + min 15 s.lim.ladL.stack.length * 16

/-- The words of the caps and energy block (R409). -/
def State.capWord (s : State) (a : Nat) : RegWord :=
  let l := s.lim
  let n (k : Nat) : Nat := (l.ladder k).stack.length
  match a with
  | 0x4000 => s.mgrOnly (s.mgr.capW1, allBits)
  | 0x4004 => s.mgrOnly (s.mgr.capW2, allBits)
  | 0x4008 => (l.capNew % 2 ^ 31 + b2n l.capForce * 2 ^ 31, allBits)
  | 0x400C => (s.capHint, 0xFF)
  | 0x4010 => (s.iinLim, allBits)
  | 0x4014 => (l.ladC.alloc.getD 0, allBits)
  | 0x4018 => (l.ladM.alloc.getD 0, allBits)
  | 0x401C => (l.ladL.alloc.getD 0, allBits)
  | 0x4020 => (min 255 (n 0) + min 255 (n 1) * 256 + min 255 (n 2) * 65536, 0xFFFFFF)
  | 0x4024 =>
    let m := s.inst.manager
    (flags [l.ladC.atFloor, l.ladM.atFloor, l.ladL.atFloor, l.iinEp, m && s.mgr.capFloor, m && s.mgr.over1, m && s.mgr.over2], 0x7F)
  | 0x4028 => s.mgrOnly (s.mgr.allow, allBits)
  | 0x4100 => (0, 0)
  | _ => (s.mgr.residPct % 65536, 0xFFFF)

/-! ### Domain and tile records (R411, R413, R414) -/

/-- Whether the instance has its verdict: before it the registers of its configuration read their reset values (R242). -/
def State.judged (s : State) : Bool := s.inst.verdict != 0 || s.inst.factory

/-- The words of a domain record (R411). -/
def State.domWord (s : State) (d off : Nat) : RegWord :=
  let x := s.dom d
  if 0x20 ≤ off ∧ off < 0x40 then (s.vt d (2 * ((off - 0x20) / 4)) % 4096 + s.vt d (2 * ((off - 0x20) / 4) + 1) % 4096 * 65536, 0x0FFF0FFF)
  else if 0x40 ≤ off ∧ off < 0x60 then
    (s.veff d (2 * ((off - 0x40) / 4)) % 4096 + s.veff d (2 * ((off - 0x40) / 4) + 1) % 4096 * 65536, 0x0FFF0FFF)
  else match off with
    | 0x00 => (s.dclass d % 4 + b2n (s.enabled d) * 4 + b2n (s.commitSpare d) * 8 + b2n (s.startOn d) * 16 +
        (if s.judged then s.dieDom d % 256 * 256 else 0), 0xFF1F)
    | 0x04 =>
      let dark := (s.dmittens d).any fun m => (s.mitten m).dark
      (loopCode x.loop % 8 + 8 * flags [x.stsTgtClamp, x.stsVreqRef, x.stsUcal, x.shedIn s.time, x.tileLocal, x.fallback, x.balSup, x.derate, dark],
        0xFFF)
    | 0x08 => (x.vset % 4096 + x.vtgt % 4096 * 65536, 0x0FFF0FFF)
    | 0x0C => (x.vref % 4096 + uext 10 x.ff * 65536, 0x03FF0FFF)
    | 0x10 => (x.vreqCode % 4096 + b2n x.vreqEn * 32768, 0x8FFF)
    | 0x14 => (x.pSel % 16 + x.pCap % 16 * 16 + x.pTh % 16 * 256 + s.pTop d % 16 * 4096 + min 255 x.notches * 65536, 0xFFFFFF)
    | 0x18 => (pair16 x.icap x.ceil, allBits)
    | 0x1C => (x.ucPoint % 16 + uext 16 (nth 0 x.ucNext x.ucPoint) * 65536, 0xFFFF000F)
    | 0x60 => (s.vsafe d % 4096 + s.vret d % 4096 * 65536, 0x0FFF0FFF)
    | 0x64 => (bringCode x.bring.status, 0xF)
    | 0x68 => (x.tuneRes % 16 + x.tuneCyc % 256 * 256, 0xFF0F)
    | 0x6C => (x.tuneKu, 0xFFFF)
    | 0x70 => (x.tuneTu, 0xFFFF)
    | 0x74 => (x.tuneKp, 0xFFFF)
    | 0x78 => (x.tuneKi, 0xFFFF)
    | 0x7C => (x.tuneKd, 0xFFFF)
    | 0x80 => (x.vmin % 4096 + x.vminSrc % 4096 * 65536, 0x0FFF0FFF)
    | 0x90 => (pair16 x.lawKp x.lawKi, allBits)
    | 0x94 => (x.lawKd % 65536 + x.lawUlim % 4096 * 65536, 0x0FFFFFFF)
    | _ =>
      let (v, a, j) := x.pgNext.getD (x.pgVmax, x.pgAmax, x.pgJmax)
      (v % 128 + a % 1024 * 128 + j % 16384 * 2 ^ 17, 0x7FFFFFFF)

/-- The words of a tile record (R413). -/
def State.tileWordAt (s : State) (t off : Nat) : RegWord :=
  let v := s.view t
  let x := s.tile t
  match off with
  | 0x00 => (v.state % 16 + v.active % 16 * 16 + v.retired % 16 * 256 + v.shedSent % 16 * 4096 +
      flags [v.ilim, v.hold, v.present, v.vsnsOpen] * 65536, 0xFFFFF)
  | 0x04 => (sat16 v.itile + v.vsns % 4096 * 65536, 0x0FFFFFFF)
  | 0x08 => (pair16 (sat16 x.p0.iAvg) (sat16 x.p1.iAvg), allBits)
  | 0x0C => (pair16 (sat16 x.p2.iAvg) (sat16 x.p3.iAvg), allBits)
  | 0x10 => (lWord x, allBits)
  | 0x14 => (x.mapData % 512 + s.ofsOf t % 128 * 65536 + x.w % 256 * 2 ^ 24, 0xFF7F01FF)
  | 0x18 => (0, 0)
  | _ => (sat16 x.vin, 0xFFFF)

/-! ### Ticket unit and tether (R415 to R417) -/

/-- The words of the ticket unit (R415, R416). Where no ticket is live TKT_INFO shows state 0xF alone (log entry 5), and its reset
value before the verdict (R242). -/
def State.tkWord (s : State) (a : Nat) : RegWord :=
  let x := s.ticket s.tk.sel
  let live := x.used && !x.state.final
  if 0x21000 ≤ a then s.mgrOnly (s.sgWord ((a - 0x21000) / 4), allBits)
  else if 0x20200 ≤ a then
    let d := (a - 0x20200) / 4
    let y := s.dom d
    (s.tktSp d % 128 + y.spLadder % 128 * 2 ^ 8 + y.spInst % 128 * 2 ^ 16 + y.spTh % 128 * 2 ^ 24, 0x7F7F7F7F)
  else if 0x20100 ≤ a then (min 65535 (s.cluster ((a - 0x20100) / 4)).perr, 0xFFFF)
  else match a with
    | 0x20000 => (flags ((List.range 32).map fun c => (s.cluster c).disabled), allBits)
    | 0x20004 => ((s.tks fun y => !y.state.final).length, 0x1FFFF)
    | 0x20008 => (s.tk.qmax, 0xFFFFFF)
    | 0x2000C => s.mgrOnly (s.tk.sgLead, 0x1FFF)
    | 0x20020 => (s.tk.sel, 0xFFFF)
    | _ => if live then
        (tkCode x.state + s.dieCluster x.cluster % 256 * 16 + x.profile % 4096 * 4096 + b2n x.ballast * 2 ^ 24 + b2n x.sync * 2 ^ 25, 0x3FFFFFF)
      else (if s.judged then 0xF else 0, 0x3FFFFFF)

/-- H_k as TTH_H0 and TTH_H1 show it: its own seam's measurement, a seam that no flit tells of left open (log entry 24). -/
def State.hopByte (s : State) (k : Nat) : Nat :=
  let h := tget 0 s.tth.hop k
  if h ≠ 0 ∨ ¬ s.tth.trained ∨ s.tth.n ≤ k ∨ k = s.tth.pos then min 255 h else Config.hopDelay k % 256

/-- The words of the tether block (R417). -/
def State.tthWord (s : State) (a : Nat) : RegWord :=
  let t := s.tth
  match a with
  | 0x30000 => (flags [t.timeValid, t.ring1Down, t.ring2Down, s.lineMode, t.mgrLost.isSome] + t.pos % 8 * 2 ^ 5 + t.n % 16 * 2 ^ 8 +
      t.version % 16 * 2 ^ 12 + b2n t.trained * 2 ^ 16 + b2n (s.inst.manager && s.xtRole != 0) * 2 ^ 17, 0x3FFFF)
  | 0x30004 => (sat16 t.off, 0xFFFF)
  | 0x30008 => (min 65535 t.crcA + min 65535 t.crcB * 65536, allBits)
  | 0x3000C => (min 65535 t.undel, 0xFFFF)
  | 0x30010 => (((List.range 4).map fun k => s.hopByte k * 2 ^ (8 * k)).sum, allBits)
  | 0x30014 => (((List.range 4).map fun k => s.hopByte (4 + k) * 2 ^ (8 * k)).sum, allBits)
  | 0x30018 => (min 255 t.rev1 + min 255 t.rev2 * 256, 0xFFFF)
  | 0x3001C => (min 255 t.d1 + min 255 t.d2 * 256, 0xFFFF)
  | _ => (min 65535 t.late, 0xFFFF)

/-! ### Observation (R343, R344, R357, R358, R361, R362, R418) -/

/-- The defined bits of a word of the snapshot window (R357, R358). -/
def snapMask (w : Nat) : Nat :=
  if w = 0 then 0x7F3
  else if w = 1 then 0
  else if w < 5 then allBits
  else if w = 5 then 0xF
  else if w = 6 then 0xFFFF01FF
  else if w = 7 then 0
  else if w < 16 then 0xFFFF001F
  else if w < 32 then (match w % 4 with | 0 => 0xFF07FFFF | 3 => 0 | _ => allBits)
  else if w < 48 then (match w % 8 with | 0 => 0xFFFFFF07 | 1 | 2 | 3 => allBits | _ => 0)
  else if w = 48 then 0xFF03
  else if w = 49 then allBits
  else if w < 64 then 0
  else if w < 192 then (if w % 4 = 2 then 0x7FFFFFFF else allBits)
  else allBits

/-- The words of a ticket snapshot record (R344). -/
def SnapRec.word (r : SnapRec) (k : Nat) : RegWord :=
  if 12 ≤ k ∧ k < 28 then (tget 0 r.cnt (k - 12), allBits)
  else match k with
    | 0 => (pair16 r.ticket r.job, allBits)
    | 1 => (r.profile, 0x1FFF)
    | 4 => (pair16 r.vsLift r.iDom, allBits)
    | 5 => (uext 16 r.ffb + r.clm % 256 * 2 ^ 16 + r.mode % 4 * 2 ^ 24, 0x3FFFFFF)
    | 8 => (r.state % 256 + r.flags % 4 * 256, 0x3FF)
    | 9 => (r.stretch, allBits)
    | _ => (0, 0)

/-- The snapshot record that an offset names. -/
def State.snapRec (s : State) (a : Nat) : SnapRec := tget {} (s.cluster ((a - 0x44000) / 512)).snaps (a / 128 % 4)

/-- The words of the observation block (R343, R344, R354, R357, R361, R362, R418). -/
def State.obsWord (s : State) (a : Nat) : RegWord :=
  let o := s.obs
  if 0x48000 ≤ a then (readLE 0 o.dumpArea (256 * o.dumpRpg + (a - 0x48000)) 4, allBits)
  else if 0x44000 ≤ a then (s.snapRec a).word (a / 4 % 32)
  else if 0x43000 ≤ a then
    let c := s.cluster ((a - 0x43000) / 16)
    if a % 16 = 0 then (min allBits c.runStretch, allBits) else (c.runTicket, 0xFFFF)
  else if 0x41000 ≤ a ∧ a < 0x42000 then (readLE 0 o.snapMem (a - 0x41000) 4, snapMask ((a - 0x41000) / 4))
  else if 0x40430 ≤ a ∧ a < 0x40440 then (s.trcWord ((a - 0x40430) / 4), allBits)
  else match a with
    | 0x40404 => (o.ownJob, 0xFFFF)
    | 0x40408 => (o.frzCls % 256 + b2n o.frzEn * 256, 0x1FF)
    | 0x4040C => (flags [o.frozen, o.late, o.capOvf, o.timeInv, o.ended] + min 255 o.capt * 256, 0xFF1F)
    | 0x40420 => (flags [o.trcEn, o.trcDest, o.trcWrap, o.trcEng, o.trcBr], 0x1F)
    | 0x40424 => (flags [o.trcFull, o.trc.isEmpty] + min 65535 o.trc.length * 65536, 0xFFFF0003)
    | 0x40440 => (o.dumpKind % 16 + o.dumpIdx % 256 * 256, 0xFF0F)
    | 0x40444 => (o.dumpPg, 0x3FFFFF)
    | 0x40450 => (flags [o.dumpBusy, o.dumpValid, o.dumpFrozen, o.dumpAborted] + o.dumpBad % 256 * 256, 0xFF0F)
    | 0x40454 => (o.dumpLen, 0x1FFFF)
    | 0x40458 => (o.dumpRpg, 0xFF)
    | 0x40460 => (o.scanWord % 2 ^ 19 + o.scanSeg % 16 * 2 ^ 28, 0xF007FFFF)
    | 0x40464 => (if o.frozen then s.scanWordAt o.scanSeg o.scanWord else 0, allBits)
    | _ => (0, 0)

/-! ### Die-wide registers, job table, table window (R419 to R422) -/

/-- The words of the die-wide block and of the job table (R419, R420). -/
def State.dieWord (s : State) (a : Nat) : RegWord :=
  let m := s.mgr
  let fl (f : Nat → Bool) : Nat := flags ((List.range 8).map f)
  let lost (f : Nat) : Bool := tget false m.lostF f
  if 0x58000 ≤ a then
    let e := tget {} m.jobs ((a - 0x58000) / 16)
    if a % 16 = 0 then (e.job % 65536 + b2n e.valid * 65536, 0x1FFFF) else (0, 0)
  else if 0x50100 ≤ a then
    let r := s.report ((a - 0x50100) / 16)
    match a / 4 % 4 with
    | 3 => (r.aPow, allBits)
    | k => (nth 0 r.inForce k, allBits)
  else match a with
    | 0x50000 => (fl m.roster.contains + fl s.fldGrounded * 256 + fl lost * 65536, 0xFFFFFF)
    | 0x50004 => (((List.range 8).map fun f => (if f = s.inst.fieldId ∧ m.dupOwn then 1 else if lost f then 5 else tget 0 m.held f % 16) * 2 ^ (4 * f)).sum, allBits)
    | 0x50008 => ((m.roster.take 8).zipIdx.map (fun (f, p) => (f % 8 + 8) * 2 ^ (4 * p))).sum |> fun v => (v, allBits)
    | 0x5000C => (m.diePlim, allBits)
    | 0x50010 => (flags [m.xtUp, m.xtValid] + s.xtRole % 4 * 4 + sat16 m.xtOfs * 65536, 0xFFFF000F)
    | 0x50014 => (m.xtLevel % 256 + m.xtRound % 65536 * 65536, 0xFFFF00FF)
    | 0x50018 => (m.diePwr, allBits)
    | _ => (roundOf s.time % 2 ^ 32, allBits)

/-- The words of the table window (R421, R422). -/
def State.tblWord (s : State) (a : Nat) : RegWord :=
  let e := s.eng
  match a with
  | 0x80000 => (e.tblPage, 0x1FFF)
  | 0x80004 => (flags [s.tblRdy, (tget none e.bad e.tblPage).isSome, e.hmod.contains e.tblPage, e.tblRefused] + min 255 e.hmod.length * 65536, 0xFF000F)
  | 0x80008 => (0, 0)
  | _ => (if s.tblRdy then readLE 0 e.tblBuf (a - 0x80100) 4 else 0, allBits)

/-- A word of the map that is no half of a 64-bit value (R401). -/
def State.regWord (s : State) (a : Nat) : RegWord :=
  if a < 0x100 then s.globalWord a
  else if a < 0x1000 then s.engineWord a
  else if a < 0x2000 then s.faultWord a
  else if a < 0x3000 then s.logWord a
  else if a < 0x4000 then s.hkWord a
  else if a < 0x8000 then s.capWord a
  else if a < 0x10000 then s.domWord ((a - 0x8000) / 256) (a % 256)
  else if a < 0x11800 then s.tileWordAt ((a - 0x10000) / 32) (a % 32)
  else if a < 0x20000 then (uext 16 (s.tilePar.get ((a - 0x11800) / 4)), 0xFFFF)
  else if a < 0x30000 then s.tkWord a
  else if a < 0x40000 then s.tthWord a
  else if a < 0x50000 then s.obsWord a
  else if a < 0x80000 then s.mgrOnly (s.dieWord a)
  else s.tblWord a

/-! ### 64-bit values (R393) -/

/-- The sense points of a domain that are trusted, member mitten by member mitten (R411). -/
def State.trustBits (s : State) (d : Nat) : Nat :=
  ((s.dmittens d).take 4).zipIdx.map (fun (m, k) => ((List.range 16).map fun j => b2n (s.point (16 * m + j)).trusted * 2 ^ (16 * k + j)).sum) |>.sum

/-- The clock that run counters see: it stands while frozen (R351). -/
def State.runClock (s : State) : Nat := if s.obs.frozen then s.obs.regTf + 1 else s.time

/-- The 64-bit value whose low word an offset names (R393). -/
def State.wide (s : State) (a : Nat) : Option Nat :=
  let m (v : Nat) : Nat := if s.inst.manager then v else 0
  if a % 8 = 0 ∧ 0x4110 ≤ a ∧ a < 0x4130 then some (m (uext 64 (tget 0 s.mgr.resid ((a - 0x4110) / 8))))
  else if 0x4148 ≤ a ∧ a < 0x4160 ∧ a % 8 = 0 then
    let k := (a - 0x4148) / 8
    some ((if k = 2 then s.lim.nrgA else (s.lim.ladder (k + 1)).nrg) / 15625)
  else if 0x8000 ≤ a ∧ a < 0xA000 ∧ a % 256 = 0x84 then some (s.trustBits ((a - 0x8000) / 256))
  else if 0x40000 ≤ a ∧ a < 0x40400 ∧ a % 8 = 0 ∧ a % 128 < 0x50 then some (s.engCtr ((a - 0x40000) / 128) (a % 128 / 8))
  else if 0x42000 ≤ a ∧ a < 0x43000 ∧ a % 8 = 0 then some (tget 0 (s.cluster ((a - 0x42000) / 128)).runCnt (a % 128 / 8))
  else if 0x43000 ≤ a ∧ a < 0x43200 ∧ a % 16 = 8 then
    some (((s.cluster ((a - 0x43000) / 16)).runFrom.map fun f => s.runClock - f).getD 0)
  else if 0x44000 ≤ a ∧ a < 0x48000 ∧ (a % 128 = 0x08 ∨ a % 128 = 0x18 ∨ a % 128 = 0x28) then
    let r := s.snapRec a
    some (if a % 128 = 0x08 then r.slot else if a % 128 = 0x18 then r.tEnd else r.nrg)
  else if 0x58000 ≤ a ∧ a < 0x68000 ∧ a % 16 = 8 then some (m (tget {} s.mgr.jobs ((a - 0x58000) / 16)).uj)
  else match a with
    | 0x20 => some s.time
    | 0x4108 => some (m s.mgr.jobOvf)
    | 0x4140 => some (s.lim.idle / 1000000)
    | 0x4160 => some (s.lim.meas / 15625)
    | 0x20028 =>
      let x := s.ticket s.tk.sel
      some (if x.used && !x.state.final then x.slot else 0)
    | 0x40410 => some s.obs.regTf
    | 0x40418 => some s.obs.regTt
    | 0x40448 => some s.obs.dumpAt
    | 0x41008 => some (readLE 0 s.obs.snapMem 8 8)
    | _ => none

/-! ### The answer to a read (R345, R391, R395) -/

/-- Whether the ticket of a record belongs to another job than `OBS_OWN_JOB` (R345). -/
def State.otherJob (s : State) (used : Bool) (job : Nat) : Bool := used && job != s.obs.ownJob

/-- Whether a read needs the privilege bit (R337, R345, R395). -/
def State.readNeedsPriv (s : State) (a : Nat) : Bool :=
  if 0x50000 ≤ a ∧ a < 0x68000 then true
  else if a = 0x4108 ∨ a = 0x410C then true
  else if 0x42000 ≤ a ∧ a < 0x43200 then
    let c := s.cluster (if a < 0x43000 then (a - 0x42000) / 128 else (a - 0x43000) / 16)
    s.otherJob c.runFrom.isSome (s.ticket c.runTicket).job
  else if 0x44000 ≤ a ∧ a < 0x48000 then s.otherJob ((s.snapRec a).slot != 0) (s.snapRec a).job
  else if a = 0x20024 then
    let x := s.ticket s.tk.sel
    s.otherJob (x.used && !x.state.final) x.job
  else 0x2040 ≤ a && a < 0x2080 && s.log.src

/-- Answers a word: its defined bits, and a free value in the others (R6, R7, R394). -/
def State.rspWordOf (s : State) (x : RegWord) : State :=
  if x.2 = allBits then s.rsp .okay (x.1 % 2 ^ 32)
  else ({ s with fresh := s.fresh + 1 }).rsp .okay ((x.1 &&& x.2) + ((Config.freeWord s.fresh).toNat &&& (allBits - x.2)))

/-- Answers the low word of a 64-bit value and latches its high word (R393). -/
def State.readLow (s : State) (a v : Nat) : State :=
  (s.updHost fun h => { h with latch := tset none h.latch (a + 4) (some (BitVec.ofNat 32 (v / 2 ^ 32))) }).rsp .okay (v % 2 ^ 32)

/-- Answers the high word: the latched one where a read of the low word came before (R393). -/
def State.readHigh (s : State) (a v : Nat) : State :=
  match tget none s.host.latch a with
  | some w => (s.updHost fun h => { h with latch := tset none h.latch a none }).rsp .okay w.toNat
  | none => s.rsp .okay (v / 2 ^ 32 % 2 ^ 32)

/-- The peak-hold fields that a read clears (R312, R313, R408), and what the read leaves. -/
def State.clearPeak (s : State) (a : Nat) : Option State :=
  if 0x3100 ≤ a ∧ a < 0x3200 ∧ a % 16 = 4 then some (s.updAdc ((a - 0x3100) / 16) fun e => { e with mn := 32767, mx := -32768 })
  else if a = 0x320C then some (s.updHk fun h => { h with vinLo := 65535 })
  else if a = 0x3210 then some (s.updHk fun h => { h with iinPk := 0 })
  else if a = 0x3214 then some (s.updHk fun h => { h with pPk := 0 })
  else if 0x3400 ≤ a ∧ a < 0x3800 ∧ 16 ≤ a % 32 then
    some (s.updDom ((a - 0x3400) / 32) fun x => { x with tlm := match a / 4 % 4 with
      | 0 => { x.tlm with pPk := 0 }
      | 1 => { x.tlm with iPk := 0 }
      | 2 => { x.tlm with vLo := 4095 }
      | _ => { x.tlm with tPk := -32768 } })
  else none

/-- TLM_PEAK_READ (R313): the value, and the field takes its reset value in the same access. -/
def execTlmPeakRead (addr : BitVec 20) (s : State) : Out :=
  let a := addr.toNat / 4 * 4
  match s.clearPeak a with
  | some t => if s.hostUp then .next (t.rspWordOf (s.regWord a)) else .next s
  | none => .next s

/-- TTH_ERR (R417): a read returns and clears both counts. -/
def execTthErr (s : State) : Out :=
  if s.hostUp then .next ((s.updTth fun t => { t with crcA := 0, crcB := 0 }).rspWordOf (s.tthWord 0x30008)) else .next s
/-- TTH_UNDEL (R417). -/
def execTthUndel (s : State) : Out :=
  if s.hostUp then .next ((s.updTth fun t => { t with undel := 0 }).rspWordOf (s.tthWord 0x3000C)) else .next s
/-- TTH_LATE (R417). -/
def execTthLate (s : State) : Out :=
  if s.hostUp then .next ((s.updTth fun t => { t with late := 0 }).rspWordOf (s.tthWord 0x30020)) else .next s
/-- TKT_PERR (R415). -/
def execTktPerr (c : Fin 32) (s : State) : Out :=
  if s.hostUp then .next ((s.updCluster c fun y => { y with perr := 0 }).rspWordOf (s.tkWord (0x20100 + 4 * c))) else .next s
/-- HK_PMB_LATE (R321, R407). -/
def execHkPmbLate (s : State) : Out :=
  if s.hostUp then .next ((s.updPmb fun p => { p with late := 0 }).rspWordOf (s.hkWord 0x3008)) else .next s

/-- LOW_WORD_READ (R342, R345, R393): a read of the low word of a 64-bit value. -/
def execLowWordRead (addr : BitVec 20) (priv : Bool) (s : State) : Out :=
  let a := addr.toNat / 4 * 4
  if ¬ s.hostUp then .next s
  else match s.wide a with
    | none => .next s
    | some v => if s.readNeedsPriv a && !priv then .next (s.privFail a false) else .next (s.readLow a v)

/-- HOST_PRIV (R345, R391, R395): a read that lacks the privilege it needs answers PRIV. One that has it, or needs none, is
answered with the register, and a read that clears or advances its register does so. -/
def execHostPriv (addr : BitVec 20) (priv : Bool) (s : State) : Out :=
  let a := addr.toNat / 4 * 4
  if ¬ s.hostUp then .next s
  else if ¬ regMapped a then .next (s.rsp .decerr 0)
  else if s.readNeedsPriv a && !priv then .next (s.readPriv a)
  else if a = 0x2010 then execLogLostcnt s
  else if a = 0x207C then execLogWin priv s
  else if a = 0x3008 then execHkPmbLate s
  else if 0x20100 ≤ a ∧ a < 0x20180 then execTktPerr (Fin.ofNat 32 ((a - 0x20100) / 4)) s
  else if a = 0x30008 then execTthErr s
  else if a = 0x3000C then execTthUndel s
  else if a = 0x30020 then execTthLate s
  else if a = 0x4043C then execObsTrcWin s
  else if a = 0x40464 then execObsScanData s
  else if 0x40430 ≤ a ∧ a < 0x4043C then .next (if s.trcAllowed then s.trcRsp (s.trcWord ((a - 0x40430) / 4)) else s)
  else match s.wide a, s.wide (a - 4), s.clearPeak a with
    | some v, _, _ => .next (s.readLow a v)
    | none, some v, _ => .next (s.readHigh a v)
    | none, none, some t => .next (t.rspWordOf (s.regWord a))
    | none, none, none => .next (s.rspWordOf (s.regWord a))

end Sys2Proof.Machine
end

