-- ==== Sys2Proof/Machine/Jtag.lean ====
section
/-!
DEFINITION. The IEEE 1149.1 TAP and the IEEE 1500 wrapper behind it (R354, R387 to R389).
-/

namespace Sys2Proof.Machine

/-- The TAP controller's next state at a rising edge of TCK (R387, IEEE 1149.1). -/
def TapState.next (tms : Bool) : TapState → TapState
  | .testLogicReset => if tms then .testLogicReset else .runTestIdle
  | .runTestIdle => if tms then .selectDr else .runTestIdle
  | .selectDr => if tms then .selectIr else .captureDr
  | .captureDr => if tms then .exit1Dr else .shiftDr
  | .shiftDr => if tms then .exit1Dr else .shiftDr
  | .exit1Dr => if tms then .updateDr else .pauseDr
  | .pauseDr => if tms then .exit2Dr else .pauseDr
  | .exit2Dr => if tms then .updateDr else .shiftDr
  | .updateDr => if tms then .selectDr else .runTestIdle
  | .selectIr => if tms then .testLogicReset else .captureIr
  | .captureIr => if tms then .exit1Ir else .shiftIr
  | .shiftIr => if tms then .exit1Ir else .shiftIr
  | .exit1Ir => if tms then .updateIr else .pauseIr
  | .pauseIr => if tms then .exit2Ir else .pauseIr
  | .exit2Ir => if tms then .updateIr else .shiftIr
  | .updateIr => if tms then .selectDr else .runTestIdle

/-- The device identification code (R388). -/
def idcode : Nat := 0x208214EB

/-- What the instruction register selects (R388). Every other opcode is BYPASS. -/
inductive TapReg where
  | idcode
  | frzScan
  | wir
  | wdr
  | bypass
  deriving DecidableEq, Repr

/-- The data register that an opcode selects (R388). -/
def tapReg (ir : BitVec 8) : TapReg :=
  if ir = 0x01 then .idcode else if ir = 0x20 then .frzScan else if ir = 0x30 then .wir
  else if ir = 0x31 then .wdr else .bypass

/-- The length of the data register in force; none for the wrapper boundary register, whose length the spec does not give
(R388, R389; log entry 9). -/
def Tap.drLen (t : Tap) : Option Nat :=
  match tapReg t.ir with
  | .idcode => some 32
  | .frzScan => some 55
  | .wir => some 4
  | .bypass => some 1
  | .wdr => match t.wir.toNat with
    | 4 => some 32
    | 1 | 2 | 3 => none
    | _ => some 1

/-- `n` open bits of the wrapper (log entry 9). -/
def openBits (k n : Nat) : Nat := (List.range n).foldl (fun a i => a + b2n (Config.wrapperBit (k + i)) * 2 ^ i) 0

/-- What Capture-DR loads (R354, R388, R389): the word that the last Update-DR named, 0 outside a freeze. What the wrapper's
registers capture is open, as is the outcome of the self-test. -/
def State.captureDr (s : State) : Nat :=
  match tapReg s.tap.ir with
  | .idcode => idcode
  | .frzScan => (if s.obs.frozen then s.scanWordAt s.tap.seg s.tap.word % 2 ^ 32 else 0) + s.tap.word % 2 ^ 19 * 2 ^ 32 + s.tap.seg % 16 * 2 ^ 51
  | .bypass => 0
  | .wir => openBits s.fresh 4
  | .wdr => openBits s.fresh 32

/-- One shift of a register of `n` bits: TDI enters at the top (R387, IEEE 1149.1). -/
def shiftIn (n v : Nat) (tdi : Bool) : Nat := v / 2 % 2 ^ (n - 1) + b2n tdi * 2 ^ (n - 1)

/-- The rising edge: captures and shifts in the state that it leaves, then the controller moves (R387). -/
def State.tapRise (s : State) (tms tdi : Bool) : State :=
  let t := s.tap
  let s := match t.state with
    | .captureDr => { s with tap := { t with dr := BitVec.ofNat 64 s.captureDr }, fresh := s.fresh + 32 }
    | .shiftDr => match t.drLen with
      | some n => { s with tap := { t with dr := BitVec.ofNat 64 (shiftIn n t.dr.toNat tdi) } }
      | none => { s with tap := { t with dr := BitVec.ofNat 64 (openBits s.fresh 1) }, fresh := s.fresh + 1 }
    | .captureIr => { s with tap := { t with irSh := Config.freeWord s.fresh |>.truncate 8 |>.and 0xFC |>.or 0x01 }, fresh := s.fresh + 1 }
    | .shiftIr => { s with tap := { t with irSh := BitVec.ofNat 8 (shiftIn 8 t.irSh.toNat tdi) } }
    | .testLogicReset | .runTestIdle | .selectDr | .exit1Dr | .pauseDr | .exit2Dr | .updateDr | .selectIr | .exit1Ir
    | .pauseIr | .exit2Ir | .updateIr => s
  s.updTap fun t => { t with state := t.state.next tms }

/-- The wrapper instruction that a code selects: EXTEST, INTEST and BIST act only when loaded under RST_N, and act as
WS_BYPASS otherwise (R389). -/
def State.loadWir (s : State) (w : Nat) : BitVec 4 := if s.inst.inReset ∨ w < 2 then BitVec.ofNat 4 w else if w < 5 then 0 else BitVec.ofNat 4 w

/-- The falling edge: updates, and TDO (R387). -/
def State.tapFall (s : State) : State :=
  s.updTap fun t =>
    let t := match t.state with
      | .updateIr => { t with ir := t.irSh }
      | .testLogicReset => { t with ir := 0x01 }
      | .updateDr => match tapReg t.ir with
        | .frzScan => { t with seg := bits t.dr.toNat 54 51, word := bits t.dr.toNat 50 32 }
        | .wir => { t with wir := s.loadWir (t.dr.toNat % 16) }
        | .idcode | .wdr | .bypass => t
      | .runTestIdle | .selectDr | .captureDr | .shiftDr | .exit1Dr | .pauseDr | .exit2Dr | .selectIr | .captureIr | .shiftIr
      | .exit1Ir | .pauseIr | .exit2Ir => t
    { t with tdo := match t.state with
      | .shiftDr => some (bit t.dr.toNat 0)
      | .shiftIr => some (bit t.irSh.toNat 0)
      | .testLogicReset | .runTestIdle | .selectDr | .captureDr | .exit1Dr | .pauseDr | .exit2Dr | .updateDr | .selectIr
      | .captureIr | .exit1Ir | .pauseIr | .exit2Ir | .updateIr => none }

/-- TCK (R387 to R389): one period, with TMS and TDI as sampled at its rising edge. -/
def execTck (tms tdi : Bool) (s : State) : Out := .next (s.tapRise tms tdi).tapFall

/-- TRST_N (R387): Test-Logic-Reset at once, with IDCODE selected and TDO released. -/
def execTrstN (s : State) : Out := .next (s.updTap fun t => { t with state := .testLogicReset, ir := 0x01, tdo := none })

end Sys2Proof.Machine
end

