-- ==== Sys2Proof/Machine/Round.lean ====
section
/-!
DEFINITION. The housekeeping round (R166, R167, R185, R194 to R197, R203, R204, R231, R238, R301, R309, R314, R336): the data
of a round closes at its end tick, and frame 0 of the next round evaluates it.
-/

namespace Sys2Proof.Machine

/-- A page whose reload failed its read-back is reloaded again, once per round (R166). -/
def State.retryPages (s : State) : State :=
  forL (s.eng.bad.filter fun e => e.2.any (·.failed)) (fun (pg, _) s => (s.updBad pg fun b => { b with failed := false }).reloadPage pg) s

/-- What the supervisor does with the round just completed: temperatures, the flash write window, the residual, the reports,
the pages, and the sums that start again. -/
def State.evalRound (s : State) : State :=
  let rnd := roundOf s.time - 1
  let s := s.thermRound.nvmWindow.ownResid
  let s := ((s.sendReport rnd).sendJobs rnd).newRound
  (s.updEng fun e => { e with charges := [] }).retryPages.sendThr

/-- HOUSEKEEPING_ROUND (R301), at the first tick of a round, after the frame's start. While frozen the accumulators
close and the round's sums start again (R185, R324, R351); after a lockstep mismatch the sequencer sends RPT_FIELD alone (R293). Downed links retrain (R231). -/
def execHousekeepingRound (s : State) : Out :=
  if s.time % 262144 ≠ 0 ∨ s.time = 0 ∨ s.inst.unitAt ≠ s.time ∨ s.hk.roundAt = s.time + 1 ∨ s.inst.inReset ∨
      ¬ (s.inst.committed ∨ s.inst.factory) then .next s
  else
    let t := (if s.obs.frozen then s else s.retrain).closeRound (!s.obs.frozen && !s.inst.lockstep)
    if s.obs.frozen then .next t.newSums
    else if s.inst.lockstep then .next (t.sendReport (roundOf t.time - 1)).newRound
    else .next t.evalRound

end Sys2Proof.Machine
end

