-- ==== Sys2Proof/Machine/TileCmd.lean ====
section
/-!
DEFINITION. The spine words as a tile receives them (R58 to R60, R65). A command or CFG word waits for the next sample
boundary (R43, R59); SYNC, MREF and MSUM are held for it.
-/

namespace Sys2Proof.Machine

/-- A word that has arrived waits for the next sample boundary (R43, R59). -/
def Tile.hold (x : Tile) (w : TileWord) : Tile := { x with cmdQ := x.cmdQ ++ [w] }

/-- A word whose check lane disagrees is discarded and counted (R65). -/
def Tile.discard (x : Tile) : Tile := { x with spineErr := min 65535 (x.spineErr + 1) }

/-- Whether the check lane agrees with a downstream word (R56, R65). -/
def dwOk (w : Word) (chk : BitVec 4) : Bool := chk == dwCheck w

/-- A CMD word reaches a tile (R58, R59, R65): one that names the tile, or every tile of the chain, and carries a command waits
for the boundary; a reserved command is ignored. -/
def Tile.takeCmd (x : Tile) (t : Nat) (w : RxWord) : Tile :=
  if !dwOk w.word w.chk then x.discard
  else if dwType w.word = 3 ∧ dwFor t w.word then
    match cmdOf w.word with
    | some c => x.hold c
    | none => x
  else x

/-- TILE_NOP (R59); a reserved command code is ignored as well. -/
def execTileNop (c : TileRx) (s : State) : Out := .next (s.updTile c.tile fun x => x.takeCmd c.tile c.rx)
/-- START (R43). -/
def execStart (c : TileRx) (s : State) : Out := .next (s.updTile c.tile fun x => x.takeCmd c.tile c.rx)
/-- SS_TARGET (R59). -/
def execSsTarget (t : Fin 192) (w : RxWord) (s : State) : Out := .next (s.updTile t fun x => x.takeCmd t w)
/-- SS_GO (R51, R59). -/
def execSsGo (t : Fin 192) (w : RxWord) (s : State) : Out := .next (s.updTile t fun x => x.takeCmd t w)
/-- STOP (R43). -/
def execStop (c : TileRx) (s : State) : Out := .next (s.updTile c.tile fun x => x.takeCmd c.tile c.rx)
/-- SHED (R45). -/
def execShed (t : Fin 192) (w : RxWord) (s : State) : Out := .next (s.updTile t fun x => x.takeCmd t w)
/-- UNSHED (R45). -/
def execUnshed (t : Fin 192) (w : RxWord) (s : State) : Out := .next (s.updTile t fun x => x.takeCmd t w)
/-- RETIRE_PHASE (R59). -/
def execRetirePhase (t : Fin 192) (w : RxWord) (s : State) : Out := .next (s.updTile t fun x => x.takeCmd t w)
/-- RETIRE_TILE (R43). -/
def execRetireTile (c : TileRx) (s : State) : Out := .next (s.updTile c.tile fun x => x.takeCmd c.tile c.rx)
/-- CROWBAR (R49). -/
def execCrowbar (c : TileRx) (s : State) : Out := .next (s.updTile c.tile fun x => x.takeCmd c.tile c.rx)
/-- CLEAR (R50). -/
def execClear (c : TileRx) (s : State) : Out := .next (s.updTile c.tile fun x => x.takeCmd c.tile c.rx)
/-- SET_OFS (R34). -/
def execSetOfs (t : Fin 192) (w : RxWord) (s : State) : Out := .next (s.updTile t fun x => x.takeCmd t w)
/-- SET_SHARE (R95). -/
def execSetShare (t : Fin 192) (w : RxWord) (s : State) : Out := .next (s.updTile t fun x => x.takeCmd t w)
/-- CAP_TEST (R55). -/
def execCapTest (t : Fin 192) (w : RxWord) (s : State) : Out := .next (s.updTile t fun x => x.takeCmd t w)

/-- SYNC (R58, R65): extended with the high-order TETHER_TIME that was loaded at enumeration. -/
def execSync (t : Fin 192) (w : Word) (chk : BitVec 4) (s : State) : Out :=
  .next (s.updTile t fun x =>
    if !dwOk w chk then x.discard
    else if dwType w = 0 then { x with syncOk := true, syncTime := x.timeHigh * 2 ^ 32 + 16 * bits w.toNat 27 0 }
    else x)

/-- Whether an MREF or MSUM names the mitten of a tile and the running sample (R58). -/
def refFor (t : Nat) (w : Word) (now : Nat) : Bool :=
  bits w.toNat 27 26 == t / 6 % 4 && bits w.toNat 3 0 == now / 16 % 16

/-- MREF (R58, R65): VREF and FF for the next sample; one of another sample is discarded, and no discarded word but one that fails
its check lane counts towards SPINE_ERR (log entry 70). -/
def execMref (t : Fin 192) (w : Word) (chk : BitVec 4) (s : State) : Out :=
  .next (s.updTile t fun x =>
    if !dwOk w chk then x.discard
    else if dwType w = 1 ∧ refFor t w s.time then
      { x with mrefNext := some (bits w.toNat 25 14, sext 10 (bits w.toNat 13 4)) }
    else x)

/-- MSUM (R58, R65): the mitten current and DROOP_MARGIN for the next sample. -/
def execMsum (t : Fin 192) (w : Word) (chk : BitVec 4) (s : State) : Out :=
  .next (s.updTile t fun x =>
    if !dwOk w chk then x.discard
    else if dwType w = 2 ∧ refFor t w s.time then
      { x with msumNext := some (bits w.toNat 25 10, bits w.toNat 9 4) }
    else x)

/-- CFG (R60): a parameter for the tile at its chain position, or for every tile of the chain. -/
def execCfg (t : Fin 192) (w : Word) (chk : BitVec 4) (s : State) : Out :=
  .next (s.updTile t fun x =>
    if !dwOk w chk then x.discard
    else if dwType w = 4 ∧ dwFor t w then x.hold (.cfg (dwIndex w) (bits w.toNat 17 2))
    else x)

end Sys2Proof.Machine
end

