-- ==== Sys2Proof/Machine/Dispatch.lean ====
section
/-!
DEFINITION. The dispatch: one arm per command of the table of operations and events.
-/

namespace Sys2Proof.Machine

def exec (i : Instr) (s : State) : Host.Outcome State Fault Refusal :=
  match i with
  | .switchingPeriod t x => Sys2Proof.Machine.execSwitchingPeriod t x s
  | .tileSampleBoundary t => Sys2Proof.Machine.execTileSampleBoundary t s
  | .droopAssert m => Sys2Proof.Machine.execDroopAssert m s
  | .droopHoldExpiry t => Sys2Proof.Machine.execDroopHoldExpiry t s
  | .ilimPk t k => Sys2Proof.Machine.execIlimPk t k s
  | .ilimNeg t k => Sys2Proof.Machine.execIlimNeg t k s
  | .ilimHold t k => Sys2Proof.Machine.execIlimHold t k s
  | .mcrbN m => Sys2Proof.Machine.execMcrbN m s
  | .mfltN m => Sys2Proof.Machine.execMfltN m s
  | .vsnsOpen t => Sys2Proof.Machine.execVsnsOpen t s
  | .vsnsOpenExit t => Sys2Proof.Machine.execVsnsOpenExit t s
  | .openPhase t k => Sys2Proof.Machine.execOpenPhase t k s
  | .prechargeDone t x => Sys2Proof.Machine.execPrechargeDone t x s
  | .capDone t => Sys2Proof.Machine.execCapDone t s
  | .rampEnd t => Sys2Proof.Machine.execRampEnd t s
  | .spineLoss t => Sys2Proof.Machine.execSpineLoss t s
  | .tileNop c => Sys2Proof.Machine.execTileNop c s
  | .start c => Sys2Proof.Machine.execStart c s
  | .ssTarget t w => Sys2Proof.Machine.execSsTarget t w s
  | .ssGo t w => Sys2Proof.Machine.execSsGo t w s
  | .stop c => Sys2Proof.Machine.execStop c s
  | .shed t w => Sys2Proof.Machine.execShed t w s
  | .unshed t w => Sys2Proof.Machine.execUnshed t w s
  | .retirePhase t w => Sys2Proof.Machine.execRetirePhase t w s
  | .retireTile c => Sys2Proof.Machine.execRetireTile c s
  | .crowbar c => Sys2Proof.Machine.execCrowbar c s
  | .clear c => Sys2Proof.Machine.execClear c s
  | .setOfs t w => Sys2Proof.Machine.execSetOfs t w s
  | .setShare t w => Sys2Proof.Machine.execSetShare t w s
  | .capTest t w => Sys2Proof.Machine.execCapTest t w s
  | .sync t w chk => Sys2Proof.Machine.execSync t w chk s
  | .mref t w chk => Sys2Proof.Machine.execMref t w chk s
  | .msum t w chk => Sys2Proof.Machine.execMsum t w chk s
  | .cfg t w chk => Sys2Proof.Machine.execCfg t w chk s
  | .trep q w chk => Sys2Proof.Machine.execTrep q w chk s
  | .event q w chk => Sys2Proof.Machine.execEvent q w chk s
  | .pendingEventExpiry t => Sys2Proof.Machine.execPendingEventExpiry t s
  | .tileLost t => Sys2Proof.Machine.execTileLost t s
  | .domainSample x => Sys2Proof.Machine.execDomainSample x s
  | .senseTrust p => Sys2Proof.Machine.execSenseTrust p s
  | .trustRegain p => Sys2Proof.Machine.execTrustRegain p s
  | .domSat d => Sys2Proof.Machine.execDomSat d s
  | .domSatPersist d => Sys2Proof.Machine.execDomSatPersist d s
  | .ballastMismatch d => Sys2Proof.Machine.execBallastMismatch d s
  | .redistSlow m => Sys2Proof.Machine.execRedistSlow m s
  | .shareOsc t => Sys2Proof.Machine.execShareOsc t s
  | .frame => Sys2Proof.Machine.execFrame s
  | .domainShed d => Sys2Proof.Machine.execDomainShed d s
  | .ladderNotchDown k => Sys2Proof.Machine.execLadderNotchDown k s
  | .ladderNotchUp k => Sys2Proof.Machine.execLadderNotchUp k s
  | .housekeepingRound => Sys2Proof.Machine.execHousekeepingRound s
  | .managerAllocation => Sys2Proof.Machine.execManagerAllocation s
  | .capFloorEnd => Sys2Proof.Machine.execCapFloorEnd s
  | .attrResidual => Sys2Proof.Machine.execAttrResidual s
  | .tempConversion j code => Sys2Proof.Machine.execTempConversion j code s
  | .thermCrit j code => Sys2Proof.Machine.execThermCrit j code s
  | .thermTrip j code => Sys2Proof.Machine.execThermTrip j code s
  | .coolOkDeassert => Sys2Proof.Machine.execCoolOkDeassert s
  | .clStretch c => Sys2Proof.Machine.execClStretch c s
  | .forecasterPeriod => Sys2Proof.Machine.execForecasterPeriod s
  | .windowPreempt a l => Sys2Proof.Machine.execWindowPreempt a l s
  | .pageRecheck pg ok => Sys2Proof.Machine.execPageRecheck pg ok s
  | .engArrayRetired a => Sys2Proof.Machine.execEngArrayRetired a s
  | .pageReq f => Sys2Proof.Machine.execPageReq f s
  | .pageData f ok => Sys2Proof.Machine.execPageData f ok s
  | .ticketRequest c w whole => Sys2Proof.Machine.execTicketRequest c w whole s
  | .doneReport c w whole => Sys2Proof.Machine.execDoneReport c w whole s
  | .countReport c w whole => Sys2Proof.Machine.execCountReport c w whole s
  | .grantPass => Sys2Proof.Machine.execGrantPass s
  | .ticketResponse c => Sys2Proof.Machine.execTicketResponse c s
  | .ticketArm j => Sys2Proof.Machine.execTicketArm j s
  | .ticketLaunch j => Sys2Proof.Machine.execTicketLaunch j s
  | .ticketRun j => Sys2Proof.Machine.execTicketRun j s
  | .ticketExpiry j => Sys2Proof.Machine.execTicketExpiry j s
  | .sgFwd f => Sys2Proof.Machine.execSgFwd f s
  | .sgSet f => Sys2Proof.Machine.execSgSet f s
  | .sgProp f => Sys2Proof.Machine.execSgProp f s
  | .sgVote f => Sys2Proof.Machine.execSgVote f s
  | .sgCommit f => Sys2Proof.Machine.execSgCommit f s
  | .sgCancel f => Sys2Proof.Machine.execSgCancel f s
  | .sgDrop f => Sys2Proof.Machine.execSgDrop f s
  | .sgWd f => Sys2Proof.Machine.execSgWd f s
  | .sgVoteTimeout g => Sys2Proof.Machine.execSgVoteTimeout g s
  | .sgFail g => Sys2Proof.Machine.execSgFail g s
  | .train f p => Sys2Proof.Machine.execTrain f p s
  | .echo back => Sys2Proof.Machine.execEcho back s
  | .time f r frac => Sys2Proof.Machine.execTime f r frac s
  | .timeValidSet => Sys2Proof.Machine.execTimeValidSet s
  | .tthTimeStep => Sys2Proof.Machine.execTthTimeStep s
  | .ddMode f => Sys2Proof.Machine.execDdMode f s
  | .ddAlloc f => Sys2Proof.Machine.execDdAlloc f s
  | .dieDecisionApply => Sys2Proof.Machine.execDieDecisionApply s
  | .coolStop f => Sys2Proof.Machine.execCoolStop f s
  | .coolLoss f => Sys2Proof.Machine.execCoolLoss f s
  | .freezeFlit f => Sys2Proof.Machine.execFreezeFlit f s
  | .thawFlit f => Sys2Proof.Machine.execThawFlit f s
  | .ringUp f => Sys2Proof.Machine.execRingUp f s
  | .linkDown f => Sys2Proof.Machine.execLinkDown f s
  | .tthLinkDown r crc => Sys2Proof.Machine.execTthLinkDown r crc s
  | .flitResend q => Sys2Proof.Machine.execFlitResend q s
  | .hash f => Sys2Proof.Machine.execHash f s
  | .hashTimeout fld => Sys2Proof.Machine.execHashTimeout fld s
  | .rptClass f => Sys2Proof.Machine.execRptClass f s
  | .rptDemand f => Sys2Proof.Machine.execRptDemand f s
  | .rptField f => Sys2Proof.Machine.execRptField f s
  | .jobNrg f => Sys2Proof.Machine.execJobNrg f s
  | .trace f => Sys2Proof.Machine.execTrace f s
  | .recAssemblyTimeout fld => Sys2Proof.Machine.execRecAssemblyTimeout fld s
  | .sect f => Sys2Proof.Machine.execSect f s
  | .verdict f => Sys2Proof.Machine.execVerdict f s
  | .run f => Sys2Proof.Machine.execRun f s
  | .xtExchange => Sys2Proof.Machine.execXtExchange s
  | .xtReq f frac => Sys2Proof.Machine.execXtReq f frac s
  | .xtRsp f frac => Sys2Proof.Machine.execXtRsp f frac s
  | .xtThr f => Sys2Proof.Machine.execXtThr f s
  | .xtLinkDown clock => Sys2Proof.Machine.execXtLinkDown clock s
  | .tthMgrLost => Sys2Proof.Machine.execTthMgrLost s
  | .mgrLostGrounded => Sys2Proof.Machine.execMgrLostGrounded s
  | .tthWorkerLost fld => Sys2Proof.Machine.execTthWorkerLost fld s
  | .rstNAssert => Sys2Proof.Machine.execRstNAssert s
  | .rstNRelease x => Sys2Proof.Machine.execRstNRelease x s
  | .pllLock => Sys2Proof.Machine.execPllLock s
  | .fuseRead x => Sys2Proof.Machine.execFuseRead x s
  | .ringTraining ring1 ring2 => Sys2Proof.Machine.execRingTraining ring1 ring2 s
  | .nvmDiscovery x => Sys2Proof.Machine.execNvmDiscovery x s
  | .imageVerify => Sys2Proof.Machine.execImageVerify s
  | .noVerdict => Sys2Proof.Machine.execNoVerdict s
  | .logScan => Sys2Proof.Machine.execLogScan s
  | .bringUpStart d => Sys2Proof.Machine.execBringUpStart d s
  | .bringWindow d => Sys2Proof.Machine.execBringWindow d s
  | .bridleStart d => Sys2Proof.Machine.execBridleStart d s
  | .bridleStage d => Sys2Proof.Machine.execBridleStage d s
  | .bridleHold d => Sys2Proof.Machine.execBridleHold d s
  | .bridleRetry d => Sys2Proof.Machine.execBridleRetry d s
  | .ready => Sys2Proof.Machine.execReady s
  | .offSequenceStart d => Sys2Proof.Machine.execOffSequenceStart d s
  | .pwrfailN => Sys2Proof.Machine.execPwrfailN s
  | .pwrfailNReturn => Sys2Proof.Machine.execPwrfailNReturn s
  | .escRung j => Sys2Proof.Machine.execEscRung j s
  | .groundedExit => Sys2Proof.Machine.execGroundedExit s
  | .retryGap d => Sys2Proof.Machine.execRetryGap d s
  | .lockstep => Sys2Proof.Machine.execLockstep s
  | .pllHoldover => Sys2Proof.Machine.execPllHoldover s
  | .pllRelock => Sys2Proof.Machine.execPllRelock s
  | .vinRange => Sys2Proof.Machine.execVinRange s
  | .adcScan uv => Sys2Proof.Machine.execAdcScan uv s
  | .hkThermRev j => Sys2Proof.Machine.execHkThermRev j s
  | .hkRange j => Sys2Proof.Machine.execHkRange j s
  | .tlmPublish => Sys2Proof.Machine.execTlmPublish s
  | .pmbDiscovery x => Sys2Proof.Machine.execPmbDiscovery x s
  | .pmbPoll x => Sys2Proof.Machine.execPmbPoll x s
  | .pmbRetry n x => Sys2Proof.Machine.execPmbRetry n x s
  | .pmbAlertN x => Sys2Proof.Machine.execPmbAlertN x s
  | .logForward => Sys2Proof.Machine.execLogForward s
  | .logFlushStart => Sys2Proof.Machine.execLogFlushStart s
  | .pageProgramDone ok => Sys2Proof.Machine.execPageProgramDone ok s
  | .sectorEraseDone ok => Sys2Proof.Machine.execSectorEraseDone ok s
  | .pfFlush => Sys2Proof.Machine.execPfFlush s
  | .freezeCut => Sys2Proof.Machine.execFreezeCut s
  | .thawResume => Sys2Proof.Machine.execThawResume s
  | .snapshotLatch => Sys2Proof.Machine.execSnapshotLatch s
  | .dumpCopy => Sys2Proof.Machine.execDumpCopy s
  | .nop priv => Sys2Proof.Machine.execNop priv s
  | .abortBusyCommand priv => Sys2Proof.Machine.execAbortBusyCommand priv s
  | .abortDomainRamp priv => Sys2Proof.Machine.execAbortDomainRamp priv s
  | .abortBridle priv => Sys2Proof.Machine.execAbortBridle priv s
  | .abortAutotune priv => Sys2Proof.Machine.execAbortAutotune priv s
  | .abortLogFlush priv => Sys2Proof.Machine.execAbortLogFlush priv s
  | .abortDump priv => Sys2Proof.Machine.execAbortDump priv s
  | .abortTrace priv => Sys2Proof.Machine.execAbortTrace priv s
  | .abortSnapshot priv => Sys2Proof.Machine.execAbortSnapshot priv s
  | .domainOn priv => Sys2Proof.Machine.execDomainOn priv s
  | .domainOff priv => Sys2Proof.Machine.execDomainOff priv s
  | .domainOffAll priv => Sys2Proof.Machine.execDomainOffAll priv s
  | .setMode priv => Sys2Proof.Machine.execSetMode priv s
  | .autotune priv => Sys2Proof.Machine.execAutotune priv s
  | .tuneEnd => Sys2Proof.Machine.execTuneEnd s
  | .freeze priv => Sys2Proof.Machine.execFreeze priv s
  | .thaw priv => Sys2Proof.Machine.execThaw priv s
  | .dump priv => Sys2Proof.Machine.execDump priv s
  | .snapshot priv => Sys2Proof.Machine.execSnapshot priv s
  | .flushLog priv => Sys2Proof.Machine.execFlushLog priv s
  | .clearFault coolHigh priv => Sys2Proof.Machine.execClearFault coolHigh priv s
  | .setCap priv => Sys2Proof.Machine.execSetCap priv s
  | .cmdReservedCode code priv => Sys2Proof.Machine.execCmdReservedCode code priv s
  | .fltAck w priv => Sys2Proof.Machine.execFltAck w priv s
  | .domVreq d w priv => Sys2Proof.Machine.execDomVreq d w priv s
  | .domUcal d w priv => Sys2Proof.Machine.execDomUcal d w priv s
  | .domLawB d w priv => Sys2Proof.Machine.execDomLawB d w priv s
  | .domPg d w priv => Sys2Proof.Machine.execDomPg d w priv s
  | .tileCtlRetire t w priv => Sys2Proof.Machine.execTileCtlRetire t w priv s
  | .tileCtlRphase t w priv => Sys2Proof.Machine.execTileCtlRphase t w priv s
  | .tilePar k w priv => Sys2Proof.Machine.execTilePar k w priv s
  | .tktQmax w priv => Sys2Proof.Machine.execTktQmax w priv s
  | .tktSgLead w priv => Sys2Proof.Machine.execTktSgLead w priv s
  | .tktSgMask g j w priv => Sys2Proof.Machine.execTktSgMask g j w priv s
  | .hkCtl w priv => Sys2Proof.Machine.execHkCtl w priv s
  | .tlmCtl w priv => Sys2Proof.Machine.execTlmCtl w priv s
  | .engBudCommit w priv => Sys2Proof.Machine.execEngBudCommit w priv s
  | .ctlLock w priv => Sys2Proof.Machine.execCtlLock w priv s
  | .obsCntClr w priv => Sys2Proof.Machine.execObsCntClr w priv s
  | .obsTrcCtl w priv => Sys2Proof.Machine.execObsTrcCtl w priv s
  | .obsTrcMark w priv => Sys2Proof.Machine.execObsTrcMark w priv s
  | .obsTrcWin => Sys2Proof.Machine.execObsTrcWin s
  | .obsScanData => Sys2Proof.Machine.execObsScanData s
  | .logCur ctl w priv => Sys2Proof.Machine.execLogCur ctl w priv s
  | .logWin priv => Sys2Proof.Machine.execLogWin priv s
  | .tblPage w => Sys2Proof.Machine.execTblPage w s
  | .tblCommit w priv => Sys2Proof.Machine.execTblCommit w priv s
  | .nrgJobRel w priv => Sys2Proof.Machine.execNrgJobRel w priv s
  | .lowWordRead addr priv => Sys2Proof.Machine.execLowWordRead addr priv s
  | .tlmPeakRead addr => Sys2Proof.Machine.execTlmPeakRead addr s
  | .logLostcnt => Sys2Proof.Machine.execLogLostcnt s
  | .tthErr => Sys2Proof.Machine.execTthErr s
  | .tthUndel => Sys2Proof.Machine.execTthUndel s
  | .tthLate => Sys2Proof.Machine.execTthLate s
  | .tktPerr c => Sys2Proof.Machine.execTktPerr c s
  | .hkPmbLate => Sys2Proof.Machine.execHkPmbLate s
  | .registerWrite addr w priv => Sys2Proof.Machine.execRegisterWrite addr w priv s
  | .spineEnumeration x => Sys2Proof.Machine.execSpineEnumeration x s
  | .flitCrcFail r => Sys2Proof.Machine.execFlitCrcFail r s
  | .flitReturn f r => Sys2Proof.Machine.execFlitReturn f r s
  | .clMargin c gray => Sys2Proof.Machine.execClMargin c gray s
  | .hostPriv addr priv => Sys2Proof.Machine.execHostPriv addr priv s
  | .tck tms tdi => Sys2Proof.Machine.execTck tms tdi s
  | .trstN => Sys2Proof.Machine.execTrstN s
  | .flashBusyTimeout => Sys2Proof.Machine.execFlashBusyTimeout s

end Sys2Proof.Machine
end

