-- ==== Sys2Proof/Machine/Tick.lean ====
section
/-!
DEFINITION. One tick of the tether clock (R3, R29, R226): what the passing of time alone does, taken on an empty queue (log
entry 12).
-/

namespace Sys2Proof.Machine

/-- The count of ticks with COOL_OK not lost (R199). -/
def State.tickCool (s : State) : State := s.updLim fun l => { l with coolHigh := min 250000000 (l.coolHigh + 1) }

/-- The tick passes: TETHER_TIME counts, and the counters, the command with a completion time, the trace and a waiting flit
follow. Events of a sample are arbitrated after its tick 8 (R64). -/
def State.tick (s : State) : State :=
  let s := s.linkTick
  let s := { s with time := (s.time + 1) % 2 ^ 64 }
  let s := s.tickDoms.tickCool.clearCtrs.tickCtrs.cmdTick.pollCmd.traceTick
  let s := if s.time % 16 = 9 then s.arbitrate else s
  s.hashTick.drainOne

/-- The step of an empty queue. Without a locked PLL there is no tick (R240). -/
def idleTick (s : State) : Out := if s.inst.pll ∧ ¬ s.inst.inReset then .next s.tick else .next s

end Sys2Proof.Machine
end

