-- ==== Sys2Proof/Safety.lean ====
section
/-!
DEFINITION. What counts as a sound state and a safe step, in the terms that statements use.
-/

namespace Sys2Proof.Machine

/-- The byte memories of the block, each with what an unlisted byte of it reads as: 0xFF in the NVM device, 0 elsewhere. -/
structure Mems where
  cfg : List Host.Cell
  pend : List Host.Cell
  table : List Host.Cell
  copies : List Host.Cell
  staging : List Host.Cell
  reload : List Host.Cell
  nvm : List Host.Cell
  dump : List Host.Cell
  snap : List Host.Cell
  deriving DecidableEq, Repr

/-- The byte memories of a state. -/
def State.mems (s : State) : Mems :=
  { cfg := s.cfg, pend := s.pend, table := s.eng.mem, copies := s.eng.copies, staging := s.eng.tblBuf
    reload := s.eng.reload, nvm := s.log.nvm, dump := s.obs.dumpArea, snap := s.obs.snapMem }

/-- Every byte memory is in its one canonical form: addresses rising, no entry equal to what an unlisted byte reads as. -/
def Mems.wf (m : Mems) : Prop :=
  Memory.wf 0 m.cfg = true ∧ Memory.wf 0 m.pend = true ∧ Memory.wf 0 m.table = true ∧ Memory.wf 0 m.copies = true ∧
  Memory.wf 0 m.staging = true ∧ Memory.wf 0 m.reload = true ∧ Memory.wf 0xFF m.nvm = true ∧
  Memory.wf 0 m.dump = true ∧ Memory.wf 0 m.snap = true

/-- What almost no command may change: the byte memories, the fuses, TETHER_TIME, the straps, the TAP, and the queue of
waiting commands. -/
structure Kept where
  mems : Mems
  fuses : Fuses
  time : Nat
  fieldId : Nat
  manager : Bool
  nvmEn : Bool
  tap : Tap
  pending : List Instr
  deriving DecidableEq, Repr

/-- That part of a state. -/
def State.kept (s : State) : Kept :=
  { mems := s.mems, fuses := s.fuses, time := s.time, fieldId := s.inst.fieldId, manager := s.inst.manager
    nvmEn := s.inst.nvmEn, tap := s.tap, pending := s.pending }

/-- The invariant of the block, on the part of the state it speaks of: the byte memories are canonical, TETHER_TIME fits its
64 bits (R3) and FIELD_ID its three (R17). -/
def Kept.Inv (k : Kept) : Prop := k.mems.wf ∧ k.time < 2 ^ 64 ∧ k.fieldId < 8

/-- The invariant of the block. -/
def State.Inv (s : State) : Prop := s.kept.Inv

/-- Whatever next state an outcome leads to has a property. -/
def Leads (o : Host.Outcome State Fault Refusal) (P : State → Prop) : Prop := ∀ t, o = .next t → P t

/-- An outcome that is a next state with a property. -/
def Answers (o : Host.Outcome State Fault Refusal) (P : State → Prop) : Prop := ∃ t, o = .next t ∧ P t

/-- Whether a flit that a ring brings is one this instance acts on, once it has passed it on as the ring asks (R214, R217). -/
def State.takes (s : State) (kind : Nat) (r : Ring) (f : Flit) : Bool := (s.passOn r f).accepts kind f

/-- The instance once it has passed such a flit on and noted its sequence number. -/
def State.taken (s : State) (r : Ring) (f : Flit) : State := (s.passOn r f).noteFlit f

/-- A step that ends in no fault. -/
def Safe (o : Host.Outcome State Fault Refusal) : Prop := ∀ f, o ≠ .fault f

end Sys2Proof.Machine

namespace Sys2Proof

/-- Whether a command may write a byte memory, the fuses, TETHER_TIME, a strap or the TAP. -/
def Instr.writes : Instr → Bool
  | .domainSample _ | .frame | .tthTimeStep | .time _ _ _ | .sect _ | .verdict _ | .imageVerify | .pageData _ _
  | .pageRecheck _ _ | .rstNAssert | .rstNRelease _ | .fuseRead _ | .ringTraining _ _ | .noVerdict | .xtRsp _ _
  | .thawResume | .thermTrip _ _ | .coolOkDeassert | .coolStop _ | .pwrfailN | .pageProgramDone _
  | .sectorEraseDone _ | .flashBusyTimeout | .snapshotLatch | .dumpCopy | .abortBusyCommand _ | .abortDomainRamp _
  | .abortBridle _ | .abortAutotune _ | .abortLogFlush _ | .abortDump _ | .abortTrace _ | .abortSnapshot _
  | .snapshot _ | .tblPage _ | .registerWrite _ _ _ | .housekeepingRound | .lockstep | .tck _ _ | .trstN => true
  | _ => false

/-- The tile whose own agent a row belongs to, for the rows that reach one tile agent and nothing else. -/
def Instr.ownTile : Instr → Option Nat
  | .switchingPeriod t _ | .droopHoldExpiry t | .ilimPk t _ | .ilimNeg t _ | .ilimHold t _ | .vsnsOpen t
  | .vsnsOpenExit t | .openPhase t _ | .prechargeDone t _ | .capDone t | .rampEnd t | .spineLoss t | .tileNop ⟨t, _⟩
  | .start ⟨t, _⟩ | .ssTarget t _ | .ssGo t _ | .stop ⟨t, _⟩ | .shed t _ | .unshed t _ | .retirePhase t _
  | .retireTile ⟨t, _⟩ | .crowbar ⟨t, _⟩ | .clear ⟨t, _⟩ | .setOfs t _ | .setShare t _ | .capTest t _ | .sync t _ _
  | .mref t _ _ | .msum t _ _ | .cfg t _ _ | .pendingEventExpiry t => some t.val
  | _ => none

end Sys2Proof
end

