-- ==== Sys2Proof/WellFormed.lean ====
section
/-!
DEFINITION. Which operands a command can bring: codes within their formats, lists without repeats, words and flits of the
type or KIND that the row names. The meanings are total and do not consult it; statements about measured values do.
-/

namespace Sys2Proof

/-- Whether a list of numbers has no repeats. -/
def distinct (l : List Nat) : Bool := decide l.Nodup

/-- Whether a number fits 16 bits in two's complement (R5). -/
def int16 (x : Int) : Bool := decide (-32768 ≤ x ∧ x ≤ 32767)

/-- A register address is a multiple of 4 (R392). -/
def aligned (a : BitVec 20) : Bool := decide (a.toNat % 4 = 0)

/-- The TYPE of a downstream spine word (R58). -/
def dwKind (w : Word) (k : Nat) : Bool := decide (w.toNat / 2 ^ 28 = k)

/-- The command bits of a CMD word (R58, R59); the row TILE_NOP also brings the reserved commands, which a tile ignores. -/
def dwCommand (w : Word) : Nat := w.toNat / 2 ^ 18 % 32

/-- The KIND of a flit (R214). -/
def flitKind (f : Flit) (k : Nat) : Bool := decide (f.toNat / 2 ^ 123 = k)

/-- What a tile can have measured: VSNS a 12-bit set-point code, the others 16-bit codes (R32). -/
def PeriodMeas.wf (x : PeriodMeas) : Bool :=
  decide (x.vsns < 4096) && int16 x.vin && int16 x.i0 && int16 x.i1 && int16 x.i2 && int16 x.i3

/-- A pulse names each CS channel at most once (R54). -/
def Pulse.wf (p : Pulse) : Bool := distinct (p.chans.map (·.val)) && decide (p.rise < 65536)

/-- The four pulses. -/
def StartPulses.wf (x : StartPulses) : Bool := x.k0.wf && x.k1.wf && x.k2.wf && x.k3.wf

/-- A sense word: an 11-bit mean and an 11-bit minimum that is not above it (R383). -/
def SenseWord.wf (w : SenseWord) : Bool := decide (w.mean < 2048 ∧ w.min ≤ w.mean)

/-- At most one word for each point, and at most one upset for each array and page. -/
def SampleIn.wf (x : SampleIn) : Bool :=
  x.sense.all (·.wf) && distinct (x.sense.map (·.point.val)) && decide x.upsets.Nodup

/-- The fuse tables have their lengths and their entries fit (R244, R373). -/
def FuseRead.wf (x : FuseRead) : Bool :=
  decide (x.vt.length = 512 ∧ x.vsafe.length = 32 ∧ x.safeMitten.length = 32 ∧ x.safeCluster.length = 32 ∧
    x.safeClass.length = 32 ∧ x.tkVer.length = 32) &&
  x.vt.all (· < 4096) && x.vsafe.all (· < 4096) && x.safeMitten.all (· < 64) && x.safeCluster.all (· < 64) &&
  x.safeClass.all (· < 8) && x.tkVer.all (fun v => v.1 < 16 && v.2 < 16)

/-- The size of the device fits 32 bits, and each read mode has its opcode and its clocks (R247). -/
def Sfdp.wf (x : Sfdp) : Bool :=
  decide (x.size < 2 ^ 32 ∧ x.reads.length = 4) && x.reads.all fun r => decide (r.1 < 256 ∧ r.2.1 < 8 ∧ r.2.2 < 32)

/-- Eight chains of at most 24 tiles (R20). -/
def Enumerated.wf (x : Enumerated) : Bool :=
  decide (x.len.length = 8 ∧ x.hop.length = 8) && x.len.all (· ≤ 24) && distinct (x.silent.map (·.val))

/-- Whether the operands of a command are ones that its row can bring. -/
def Instr.wf : Instr → Bool
  | .switchingPeriod _ x => x.wf
  | .prechargeDone _ x => x.wf
  | .tileNop c => dwKind c.rx.word 3 && (dwCommand c.rx.word == 0 || decide (14 ≤ dwCommand c.rx.word))
  | .start c => dwKind c.rx.word 3 && dwCommand c.rx.word == 1
  | .ssTarget _ w => dwKind w.word 3 && dwCommand w.word == 2
  | .ssGo _ w => dwKind w.word 3 && dwCommand w.word == 3
  | .stop c => dwKind c.rx.word 3 && dwCommand c.rx.word == 4
  | .shed _ w => dwKind w.word 3 && dwCommand w.word == 5
  | .unshed _ w => dwKind w.word 3 && dwCommand w.word == 6
  | .retirePhase _ w => dwKind w.word 3 && dwCommand w.word == 7
  | .retireTile c => dwKind c.rx.word 3 && dwCommand c.rx.word == 8
  | .crowbar c => dwKind c.rx.word 3 && dwCommand c.rx.word == 9
  | .clear c => dwKind c.rx.word 3 && dwCommand c.rx.word == 10
  | .setOfs _ w => dwKind w.word 3 && dwCommand w.word == 11
  | .setShare _ w => dwKind w.word 3 && dwCommand w.word == 12
  | .capTest _ w => dwKind w.word 3 && dwCommand w.word == 13
  | .sync _ w _ => dwKind w 0
  | .mref _ w _ => dwKind w 1
  | .msum _ w _ => dwKind w 2
  | .cfg _ w _ => dwKind w 4
  | .trep _ w _ => decide (w.toNat / 2 ^ 60 = 8)
  | .event _ w _ => decide (w.toNat / 2 ^ 60 = 9)
  | .domainSample x => x.wf
  | .tempConversion _ code => int16 code
  | .thermCrit _ code => int16 code
  | .thermTrip _ code => int16 code
  | .pageReq f => flitKind f.flit 0x11
  | .pageData f _ => flitKind f.flit 0x1A
  | .sgFwd f => flitKind f.flit 0x12
  | .sgSet f => flitKind f.flit 0x1F
  | .sgProp f => flitKind f.flit 0x16
  | .sgVote f => flitKind f.flit 0x14
  | .sgCommit f => flitKind f.flit 0x17
  | .sgCancel f => flitKind f.flit 0x18
  | .sgDrop f => flitKind f.flit 0x13
  | .sgWd f => flitKind f.flit 0x15
  | .train f _ => flitKind f 0x01
  | .time f _ _ => flitKind f 0x02
  | .ddMode f => flitKind f.flit 0x03
  | .ddAlloc f => flitKind f.flit 0x04
  | .coolStop f => flitKind f.flit 0x05
  | .coolLoss f => flitKind f.flit 0x0B
  | .freezeFlit f => flitKind f.flit 0x06
  | .thawFlit f => flitKind f.flit 0x07
  | .ringUp f => flitKind f.flit 0x08
  | .linkDown f => flitKind f.flit 0x0A
  | .hash f => flitKind f.flit 0x0C
  | .rptClass f => flitKind f.flit 0x0D
  | .rptDemand f => flitKind f.flit 0x0E
  | .rptField f => flitKind f.flit 0x0F
  | .jobNrg f => flitKind f.flit 0x10
  | .trace f => flitKind f.flit 0x1B
  | .sect f => flitKind f.flit 0x19
  | .verdict f => flitKind f.flit 0x19
  | .run f => flitKind f.flit 0x19
  | .xtReq f _ => flitKind f 0x1C
  | .xtRsp f _ => flitKind f 0x1D
  | .xtThr f => flitKind f 0x1E
  | .fuseRead x => x.wf
  | .nvmDiscovery x => x.wf
  | .adcScan uv => decide (uv.length ≤ 16)
  | .pmbDiscovery x => distinct (x.map (·.index.val))
  | .pmbPoll x => distinct (x.map (·.index.val))
  | .pmbAlertN x => distinct (x.status.map (·.1.val))
  | .cmdReservedCode code _ => decide (13 ≤ code.toNat)
  | .lowWordRead addr _ => aligned addr
  | .tlmPeakRead addr => aligned addr
  | .registerWrite addr _ _ => aligned addr
  | .spineEnumeration x => x.wf
  | .hostPriv addr _ => aligned addr
  | .tileSampleBoundary _ | .droopAssert _ | .droopHoldExpiry _ | .ilimPk _ _ | .ilimNeg _ _ | .ilimHold _ _
  | .mcrbN _ | .mfltN _ | .vsnsOpen _ | .vsnsOpenExit _ | .openPhase _ _ | .capDone _ | .rampEnd _ | .spineLoss _
  | .pendingEventExpiry _
  | .tileLost _ | .senseTrust _ | .trustRegain _ | .domSat _ | .domSatPersist _ | .ballastMismatch _ | .redistSlow _
  | .shareOsc _ | .frame | .domainShed _ | .ladderNotchDown _ | .ladderNotchUp _ | .housekeepingRound
  | .managerAllocation | .capFloorEnd | .attrResidual | .coolOkDeassert | .clStretch _ | .forecasterPeriod
  | .windowPreempt _ _ | .pageRecheck _ _ | .engArrayRetired _ | .ticketRequest _ _ _ | .doneReport _ _ _
  | .countReport _ _ _ | .grantPass | .ticketResponse _ | .ticketArm _ | .ticketLaunch _ | .ticketRun _
  | .ticketExpiry _ | .sgVoteTimeout _ | .sgFail _ | .echo _ | .timeValidSet | .tthTimeStep | .dieDecisionApply
  | .tthLinkDown _ _ | .flitResend _ | .hashTimeout _ | .recAssemblyTimeout _ | .xtExchange | .xtLinkDown _
  | .tthMgrLost | .mgrLostGrounded | .tthWorkerLost _ | .rstNAssert | .rstNRelease _ | .pllLock | .ringTraining _ _
  | .imageVerify | .noVerdict | .logScan | .bringUpStart _ | .bringWindow _ | .bridleStart _ | .bridleStage _
  | .bridleHold _ | .bridleRetry _ | .ready | .offSequenceStart _ | .pwrfailN | .pwrfailNReturn | .escRung _
  | .groundedExit | .retryGap _ | .lockstep | .pllHoldover | .pllRelock | .vinRange | .hkThermRev _ | .hkRange _
  | .tlmPublish | .pmbRetry _ _ | .logForward | .logFlushStart | .pageProgramDone _ | .sectorEraseDone _ | .pfFlush
  | .freezeCut | .thawResume | .snapshotLatch | .dumpCopy | .nop _ | .abortBusyCommand _ | .abortDomainRamp _
  | .abortBridle _ | .abortAutotune _ | .abortLogFlush _ | .abortDump _ | .abortTrace _ | .abortSnapshot _
  | .domainOn _ | .domainOff _ | .domainOffAll _ | .setMode _ | .autotune _ | .tuneEnd | .freeze _ | .thaw _ | .dump _
  | .snapshot _ | .flushLog _ | .clearFault _ _ | .setCap _ | .fltAck _ _ | .domVreq _ _ _ | .domUcal _ _ _
  | .domLawB _ _ _ | .domPg _ _ _ | .tileCtlRetire _ _ _ | .tileCtlRphase _ _ _ | .tilePar _ _ _ | .tktQmax _ _
  | .tktSgLead _ _ | .tktSgMask _ _ _ _ | .hkCtl _ _ | .tlmCtl _ _ | .engBudCommit _ _ | .ctlLock _ _ | .obsCntClr _ _
  | .obsTrcCtl _ _ | .obsTrcMark _ _ | .obsTrcWin | .obsScanData | .logCur _ _ _ | .logWin _ | .tblPage _
  | .tblCommit _ _ | .nrgJobRel _ _ | .logLostcnt | .tthErr | .tthUndel | .tthLate | .tktPerr _ | .hkPmbLate
  | .flitCrcFail _ | .flitReturn _ _ | .clMargin _ _ | .tck _ _ | .trstN | .flashBusyTimeout => true

end Sys2Proof
end

