-- ==== Sys2Proof/Certificates/Slice0/Obligations.lean ====
section
/-!
DEFINITION. The statements for the provers, family by family. Where a statement names an operation of the machine, that
operation's docstring cites the rule it follows.
-/

open Sys2Proof Sys2Proof.Machine

/-! ### The step -/

/-- A step with a command waiting takes the one at the front of the queue and runs it with the rest waiting. -/
def Obligations.StepRunsFrontCommand : Prop :=
  ∀ (c : Instr) (rest : List Instr) (s : State), step { s with pending := c :: rest } = exec c { s with pending := rest }

/-- With no command waiting one tick passes, where the PLL has locked and RST_N is released; otherwise nothing changes. The
tick on an empty queue is the model's own choice (log entry 12). -/
def Obligations.IdleStepPassesOneTick : Prop :=
  ∀ s : State, s.pending = [] →
    (s.inst.pll = true → s.inst.inReset = false → Answers (step s) fun t => t.time = (s.time + 1) % 2 ^ 64 ∧ t.pending = []) ∧
    (s.inst.pll = false ∨ s.inst.inReset = true → step s = .next s)

/-- What holds right after reset: no command waits, TETHER_TIME is 0, every tile agent is OFF, every domain loop is IDLE, no fault has
been raised and no occurrence is open, no byte memory lists anything, and the host port has no command. RST_N resets all state:
every part stands as at reset, but for the bytes of the flash, the TAP, the counter of the model's free values and the queue of
waiting commands, which are not the die's, and for the tiles, each of which ends the switching period it is in and is OFF from then. -/
def Obligations.ResetLeavesTheBlockOff : Prop :=
  (State.reset.pending = [] ∧ State.reset.time = 0 ∧ (∀ t : Nat, (State.reset.tile t).state = .off) ∧
  (∀ d : Nat, (State.reset.dom d).loop = .idle) ∧ State.reset.flt.hist = [] ∧ State.reset.flt.occs = [] ∧
  State.reset.eng.mem = [] ∧ State.reset.log.nvm = [] ∧ State.reset.cfg = [] ∧ State.reset.host.cmd = none ∧
  State.reset.inst.ready = false ∧ State.reset.inst.lockstep = false ∧ State.reset.inst.gndMask = 0 ∧
  State.reset.obs.frozen = false ∧ State.reset.log.buf = []) ∧
  ((∀ s : State, s.inst.inReset = false → Answers (exec .rstNAssert s) fun t =>
    t = { State.reset with
      inst := { State.reset.inst with inReset := true }, tiles := s.tiles.map fun e => (e.1, { e.2 with rst := true }), log := { State.reset.log with nvm := t.log.nvm }, tap := s.tap
      fresh := t.fresh, pending := s.pending } ∧ s.fresh < t.fresh ∧ t.log.nvm = s.cutFlash) ∧
  (∀ s : State, s.inst.inReset = true → exec .rstNAssert s = .next s))

/-- The invariant holds at reset. -/
def Obligations.InvHoldsAtReset : Prop := State.reset.Inv

/-- Every step keeps the invariant: the byte memories stay in canonical form, TETHER_TIME stays within its 64 bits and
FIELD_ID within its three. -/
def Obligations.EveryStepKeepsInv : Prop := ∀ s t : State, s.Inv → step s = .next t → t.Inv

/-- A command leaves the queue of waiting commands as it stands. -/
def Obligations.NoCommandTouchesTheQueue : Prop := ∀ (c : Instr) (s t : State), s.Inv → exec c s = .next t → t.pending = s.pending

/-- A command that Instr.writes does not name leaves every byte memory, the fuses, TETHER_TIME, the straps and the TAP as
they are. -/
def Obligations.QuietCommandsKeepMemories : Prop :=
  ∀ (c : Instr) (s t : State), c.writes = false → exec c s = .next t → t.kept = s.kept

/-- The straps change at RST_N only: its assertion and its release. The release takes ROLE, FIELD_ID and NVM_EN from the pins,
with a high ROLE the manager's. -/
def Obligations.StrapsAreSampledAtReleaseOnly : Prop :=
  (∀ (c : Instr) (s t : State), (∀ x, c ≠ .rstNRelease x) → c ≠ .rstNAssert → exec c s = .next t →
    t.inst.manager = s.inst.manager ∧ t.inst.fieldId = s.inst.fieldId ∧ t.inst.nvmEn = s.inst.nvmEn) ∧
  (∀ (x : Straps) (s : State), s.inst.inReset = true ∨ s.inst.strapped = false → Answers (exec (.rstNRelease x) s) fun t =>
    t.inst.manager = x.manager ∧ t.inst.fieldId = x.fieldId.val ∧ t.inst.nvmEn = x.nvmEn ∧ t.inst.inReset = false ∧
    t.inst.strapped = true)

/-- No command ends a run: every command answers a next state in every state. The spec names no behaviour it leaves without any
effect, and a supply outside the absolute range of a pin has the effect of the range it is measured in (log entry 11). -/
def Obligations.EveryCommandAnswersANextState : Prop :=
  (∀ (c : Instr) (s : State), ∃ t, exec c s = .next t) ∧ ∀ s : State, ∃ t, step s = .next t

/-! ### Tile agents -/

/-- The rows that belong to tile agents change tiles and nothing else: neither another tile than the one named, nor any other
part of the state but the counter of the model's free values, which never falls. -/
def Obligations.TileRowsChangeTheirTileOnly : Prop :=
  ∀ (c : Instr) (k : Nat) (s t : State), c.ownTile = some k → exec c s = .next t →
    t = { s with tiles := t.tiles, fresh := t.fresh } ∧ s.fresh ≤ t.fresh ∧ ∀ j : Nat, j ≠ k → t.tile j = s.tile j

/-- A command word whose check lane agrees and that names the tile, or every tile of its chain, is held in the tile as it arrives, in
order, and takes effect at no other moment than the next domain-sample boundary; until then nothing else of the tile changes. Its
argument is cut to the bits its command has. A word whose check disagrees is discarded and counted, and one for another tile, of
another type or with a reserved command code changes nothing. -/
def Obligations.TileCommandsAreHeldToTheBoundary : Prop :=
  (∀ (t : Fin 192) (w : Word) (chk : BitVec 4) (s : State),
    let held (o : Host.Outcome State Fault Refusal) : Prop :=
      (∀ c, chk = dwCheck w → dwType w = 3 → dwPos w = 31 ∨ dwPos w = t.val % 24 → cmdOf w = some c →
        o = .next (s.setTile t ((s.tile t).hold c))) ∧
      (chk ≠ dwCheck w → o = .next (s.setTile t (s.tile t).discard)) ∧
      (chk = dwCheck w → dwType w ≠ 3 ∨ (dwPos w ≠ 31 ∧ dwPos w ≠ t.val % 24) ∨ cmdOf w = none → o = .next (s.setTile t (s.tile t)))
    held (exec (.tileNop ⟨t, w, chk⟩) s) ∧ held (exec (.start ⟨t, w, chk⟩) s) ∧ held (exec (.ssTarget t ⟨w, chk⟩) s) ∧
    held (exec (.ssGo t ⟨w, chk⟩) s) ∧ held (exec (.stop ⟨t, w, chk⟩) s) ∧ held (exec (.shed t ⟨w, chk⟩) s) ∧
    held (exec (.unshed t ⟨w, chk⟩) s) ∧ held (exec (.retirePhase t ⟨w, chk⟩) s) ∧ held (exec (.retireTile ⟨t, w, chk⟩) s) ∧
    held (exec (.crowbar ⟨t, w, chk⟩) s) ∧ held (exec (.clear ⟨t, w, chk⟩) s) ∧ held (exec (.setOfs t ⟨w, chk⟩) s) ∧
    held (exec (.setShare t ⟨w, chk⟩) s) ∧ held (exec (.capTest t ⟨w, chk⟩) s)) ∧
  (∀ (x : Tile) (c : TileWord), x.hold c = { x with cmdQ := x.cmdQ ++ [c] }) ∧
  (∀ w : Word,
    let a := w.toNat
    (dwCode w = 0 → cmdOf w = some .nop) ∧ (dwCode w = 1 → cmdOf w = some .start) ∧
    (dwCode w = 2 → cmdOf w = some (.ssTarget (a % 4096))) ∧ (dwCode w = 3 → cmdOf w = some (.ssGo (a % 262144))) ∧
    (dwCode w = 4 → cmdOf w = some .stop) ∧ (dwCode w = 5 → cmdOf w = some (.shed (a % 16))) ∧
    (dwCode w = 6 → cmdOf w = some (.unshed (a % 16))) ∧ (dwCode w = 7 → cmdOf w = some (.retirePhase (a % 16))) ∧
    (dwCode w = 8 → cmdOf w = some .retireTile) ∧ (dwCode w = 9 → cmdOf w = some .crowbar) ∧ (dwCode w = 10 → cmdOf w = some .clear) ∧
    (dwCode w = 11 → cmdOf w = some (.setOfs (a % 128))) ∧ (dwCode w = 12 → cmdOf w = some (.setShare (a % 256))) ∧
    (dwCode w = 13 → cmdOf w = some (.capTest (a % 4096))) ∧ (14 ≤ dwCode w → cmdOf w = none))

/-- A downstream word whose check lane disagrees is discarded and counted. A whole SYNC word sets the tile's time, below the high-order
time loaded at enumeration, and marks it synchronised; a whole MREF or MSUM word for the tile's mitten and sample is kept for the
boundary, and one of another mitten or sample, or of another type, changes nothing; a whole CFG word for its position or for every
position is held like a command. -/
def Obligations.DownstreamWordsReachTheirTile : Prop :=
  (∀ (t : Fin 192) (w : Word) (chk : BitVec 4) (s : State), chk ≠ dwCheck w →
    exec (.sync t w chk) s = .next (s.setTile t (s.tile t).discard) ∧
    exec (.mref t w chk) s = .next (s.setTile t (s.tile t).discard) ∧
    exec (.msum t w chk) s = .next (s.setTile t (s.tile t).discard) ∧
    exec (.cfg t w chk) s = .next (s.setTile t (s.tile t).discard)) ∧
  (∀ x : Tile, (x.spineErr < 65535 → x.discard = { x with spineErr := x.spineErr + 1 }) ∧
    (65535 ≤ x.spineErr → x.discard = { x with spineErr := 65535 })) ∧
  (∀ (t : Fin 192) (w : Word) (s : State),
    (dwType w = 0 → exec (.sync t w (dwCheck w)) s = .next (s.setTile t { s.tile t with
      syncOk := true, syncTime := (s.tile t).timeHigh * 2 ^ 32 + 16 * bits w.toNat 27 0 })) ∧
    (dwType w = 1 → refFor t w s.time = true → exec (.mref t w (dwCheck w)) s = .next (s.setTile t { s.tile t with
      mrefNext := some (bits w.toNat 25 14, sext 10 (bits w.toNat 13 4)) })) ∧
    (dwType w = 2 → refFor t w s.time = true → exec (.msum t w (dwCheck w)) s = .next (s.setTile t { s.tile t with
      msumNext := some (bits w.toNat 25 10, bits w.toNat 9 4) })) ∧
    (dwType w = 4 → dwPos w = 31 ∨ dwPos w = t.val % 24 → exec (.cfg t w (dwCheck w)) s = .next (s.setTile t ((s.tile t).hold
      (.cfg (bits w.toNat 22 18) (bits w.toNat 17 2))))) ∧
    (dwType w ≠ 0 → exec (.sync t w (dwCheck w)) s = .next (s.setTile t (s.tile t))) ∧
    (dwType w ≠ 1 ∨ refFor t w s.time = false → exec (.mref t w (dwCheck w)) s = .next (s.setTile t (s.tile t))) ∧
    (dwType w ≠ 2 ∨ refFor t w s.time = false → exec (.msum t w (dwCheck w)) s = .next (s.setTile t (s.tile t))) ∧
    (dwType w ≠ 4 ∨ (dwPos w ≠ 31 ∧ dwPos w ≠ t.val % 24) → exec (.cfg t w (dwCheck w)) s = .next (s.setTile t (s.tile t)))) ∧
  (∀ (t now : Nat) (w : Word), refFor t w now = true ↔ bits w.toNat 27 26 = t / 6 % 4 ∧ bits w.toNat 3 0 = now / 16 % 16)

/-- The peak-current comparator trips an active phase for the rest of the period and the negative one turns its low side off, each by the
phase whose current its channel senses; ILIM_HOLD counts TLIM over-current samples before it holds a phase and 16 under-current ones
before it releases it, and reports the phases held after the change; 64 low periods freeze the
voltage loop and 1,024 plausible ones release it; 16 open periods retire a phase. Droop inputs and the mitten's nets reach each of
its six tiles: a droop input boosts it (R41), MCRB_N crowbars it where it is live, MFLT_N latches it in SOFTSTART. -/
def Obligations.TileProtectionsAct : Prop :=
  ((∀ (t : Fin 192) (k : Fin 4) (s : State),
    let j := (s.tile t).phaseAt k
    ((s.tile t).activePh ((s.tile t).ph j) = true →
      exec (.ilimPk t k) s = .next (s.setTile t ({ (s.tile t).updPh j fun p => { p with trip := true } with ilimSeen := true })) ∧
      exec (.ilimNeg t k) s = .next (s.setTile t ((s.tile t).updPh j fun p => { p with negTrip := true }))) ∧
    ((s.tile t).activePh ((s.tile t).ph j) = false → exec (.ilimPk t k) s = .next (s.setTile t (s.tile t)) ∧
      exec (.ilimNeg t k) s = .next (s.setTile t (s.tile t)))) ∧
  (∀ (t : Fin 192) (k : Fin 4) (s : State),
    let s' : State := { s with fresh := s.fresh + 1 }
    (((s.tile t).ph k).holdCont = false → (s.tile t).par.tlim ≤ ((s.tile t).ph k).overCnt →
      exec (.ilimHold t k) s = .next (s'.setTile t ((s.tile t).setHold s.time s'.fresh k true))) ∧
    (((s.tile t).ph k).holdCont = true → 16 ≤ ((s.tile t).ph k).underCnt →
      exec (.ilimHold t k) s = .next (s'.setTile t ((s.tile t).setHold s.time s'.fresh k false))) ∧
    (((s.tile t).ph k).holdCont = false → ((s.tile t).ph k).overCnt < (s.tile t).par.tlim → exec (.ilimHold t k) s = .next s')) ∧
  (∀ (x : Tile) (now fresh : Nat) (k : Fin 4) (on : Bool), ((x.setHold now fresh k on).ph k).holdCont = on ∧
    ((x.setHold now fresh k on).ph k).overCnt = 0 ∧ ((x.setHold now fresh k on).ph k).underCnt = 0) ∧
  (∀ (t : Fin 192) (s : State), (s.tile t).state.runs = true → (s.tile t).loopFrozen = false → 64 ≤ (s.tile t).lowCnt →
    exec (.vsnsOpen t) s = .next (s.setTile t (({ s.tile t with loopFrozen := true, plausCnt := 0 }).pushEv s.time 0x0A
      ((s.tile t).vsns + 4096)))) ∧
  (∀ (t : Fin 192) (s : State), (s.tile t).loopFrozen = true → 1024 ≤ (s.tile t).plausCnt →
    exec (.vsnsOpenExit t) s = .next (s.setTile t (({ s.tile t with loopFrozen := false, plausCnt := 0, lowCnt := 0 }).pushEv s.time
      0x0A (s.tile t).vsns))) ∧
  (∀ (t : Fin 192) (k : Fin 4) (s : State), ((s.tile t).ph k).retired = false → 16 ≤ ((s.tile t).ph k).openCnt →
    exec (.openPhase t k) s = .next (s.setTile t (((s.tile t).pushEv s.time 0x06 k).retirePhases s.time (2 ^ k.val) 2)))) ∧
  (∀ (m : Fin 32) (s : State),
    exec (.droopAssert m) s = .next (forIdx 6 (fun p u => u.setTile (6 * m + p) ((u.tile (6 * m + p)).droopOn s.time (u.ofsOf (6 * m + p)))) s) ∧
    exec (.mcrbN m) s = .next (forIdx 6 (fun p u => u.setTile (6 * m + p)
      (if (u.tile (6 * m + p)).state.live then (u.tile (6 * m + p)).goCrowbar s.time false else u.tile (6 * m + p))) s) ∧
    exec (.mfltN m) s = .next (forIdx 6 (fun p u => u.setTile (6 * m + p)
      (if (u.tile (6 * m + p)).state = .softstart ∧ (u.tile (6 * m + p)).latchAt = 0 then
        ((u.tile (6 * m + p)).pushEv s.time 0x13 ((u.tile (6 * m + p)).vsns + (u.tile (6 * m + p)).sinceT0 s.time * 65536)).enter
          s.time .latched
      else u.tile (6 * m + p))) s))

/-- A switching period at an even tick takes its measurements to its tile, whatever VIN it brings, and the period in which RST_N was
asserted ends in OFF; a domain-sample boundary runs the tile's boundary on a fresh value and refreshes the droop threshold of its
mitten. The end of a boost, the end of the start checks, of the capacitance test and of the ramp, the sixteenth missing SYNC and the
expiry of an unsent event: what each does to its tile. The low side of a phase in each state: off where the phase is retired or the
tile is OFF or RETIRED, on in CROWBAR, on until the current reaches zero in PRECHARGE and SOFTSTART, on from dead time to dead time in
REGULATE and SHED unless the phase is shed or ILIM_NEG has turned it off. -/
def Obligations.TilePeriodsBoundariesAndSequences : Prop :=
  ((∀ (t : Fin 192) (x : PeriodMeas) (s : State),
    ((s.tile t).rst = false → s.time % 2 = 0 → s.inst.inReset = false →
      exec (.switchingPeriod t x) s = .next (s.setTile t ((s.tile t).period s.time (s.ofsOf t) x))) ∧
    ((s.tile t).rst = true → exec (.switchingPeriod t x) s = .next (s.setTile t {}))) ∧
  (∀ (t : Fin 192) (s : State), s.time % 16 = 0 → s.inst.inReset = false →
    exec (.tileSampleBoundary t) s = .next (((({ s with fresh := s.fresh + 1 } : State).setTile t
      ((s.tile t).boundary s.time (t.val % 24) (s.fresh + 1)))).driveThr t)) ∧
  (∀ (t k : Nat) (s : State),
    (((s.tile t).ph k).retired = true ∨ (s.tile t).state = .off ∨ (s.tile t).state = .retired → s.lowSide t k = .off) ∧
    (((s.tile t).ph k).retired = false →
      ((s.tile t).state = .crowbar → s.lowSide t k = .on) ∧
      ((s.tile t).state = .precharge ∨ (s.tile t).state = .softstart →
        s.lowSide t k = .flowing (s.lowSteps t k).1 (s.lowSteps t k).2) ∧
      ((s.tile t).state = .regulate ∨ (s.tile t).state = .shed →
        s.lowSide t k = if ((s.tile t).ph k).shed = true ∨ ((s.tile t).ph k).negTrip = true then .off
          else .within (s.lowSteps t k).1 (s.lowSteps t k).2)))) ∧
  ((∀ (t : Fin 192) (s : State), (s.tile t).boost = true → (s.tile t).droopIn = false → (s.tile t).holdLeft = 0 →
    (s.tile t).state.runs = true → exec (.droopHoldExpiry t) s = .next (s.setTile t ({ s.tile t with boost := false }).setDuties)) ∧
  (∀ (t : Fin 192) (x : StartPulses) (s : State), (s.tile t).state = .precharge → (s.tile t).precharged = false →
    (s.tile t).checked = true → exec (.prechargeDone t x) s =
      .next (s.setTile t { (s.tile t).pushEv s.time 0x01 (lWord (s.tile t)) with precharged := true })) ∧
  (∀ (t : Fin 192) (x : StartPulses) (s : State), (s.tile t).state = .precharge → (s.tile t).precharged = false →
    (s.tile t).checked = false → ((s.tile t).startChecks s.time x).state ≠ .precharge →
      exec (.prechargeDone t x) s = .next (s.setTile t ((s.tile t).startChecks s.time x))) ∧
  (∀ (t : Fin 192) (s : State), (s.tile t).state = .precharge → (s.tile t).capLeft ≠ 0 →
    (s.tile t).capT0 + (s.tile t).capLeft ≤ s.time → exec (.capDone t) s = .next (s.setTile t
      { (s.tile t).pushEv s.time 0x11 (((s.tile t).vsns - (s.tile t).capStart) % 4096 + (s.tile t).capLeft * 65536) with
        capLeft := 0 })) ∧
  (∀ (t : Fin 192) (s : State), (s.tile t).state = .softstart → (s.tile t).latchAt = 0 →
    evenUp ((s.tile t).t0 + (s.tile t).rampL) ≤ s.time → exec (.rampEnd t) s = .next (s.setTile t (
      let y := (s.tile t).enter s.time .regulate
      if y.droopIn = true then y.droopOn s.time (s.ofsOf t) else y))) ∧
  (∀ (t : Fin 192) (s : State), 16 ≤ (s.tile t).syncMiss →
    exec (.spineLoss t) s = .next (s.setTile t ((s.tile t).goRetired s.time 3))) ∧
  (∀ (t : Fin 192) (s : State), ((s.tile t).events.filter fun e => s.time < e.tick + 64000).length ≠ (s.tile t).events.length →
    exec (.pendingEventExpiry t) s = .next (s.setTile t { s.tile t with
      events := (s.tile t).events.filter fun e => s.time < e.tick + 64000, evtLost := true })))

/-- A tile leaves CROWBAR on CLEAR only when VSNS has stayed more than 50 mV below the frozen threshold and below 1100 mV for
64 consecutive periods, and LATCHED when VIN has not been reversed in 64; otherwise it stays and reports CLEAR_REFUSED. -/
def Obligations.ClearTestsTheCauseInTheTile : Prop :=
  ∀ (x : Tile) (now : Nat) (r : Bool),
    (x.state = .crowbar → 64 ≤ x.crowOkCnt → (x.apply now r .clear).state = .off) ∧
    (x.state = .crowbar → x.crowOkCnt < 64 → x.apply now r .clear = x.pushEv now 0x10 x.vsns) ∧
    (x.state = .latched → 64 ≤ x.vinOkCnt → (x.apply now r .clear).state = .off) ∧
    (x.state = .latched → x.vinOkCnt < 64 → x.apply now r .clear = x.pushEv now 0x10 x.vsns) ∧
    (x.state = .crowbar → (x.checkOver now).crowOkCnt =
      if x.vsns + 100 < x.crowThr ∧ x.vsns < 2200 then min 64 (x.crowOkCnt + 1) else 0) ∧
    (∀ own, (x.goCrowbar now own).crowThr = x.ovThr % 4096 ∧ (x.goCrowbar now own).crowOkCnt = 0) ∧
    (x.checkReversed now).vinOkCnt = (if x.vin < -100 then 0 else min 64 (x.vinOkCnt + 1))

/-- RETIRED has no way out but RST_N: no switching period, no sample boundary and no command changes the state of a retired
tile. A soft-start abort that waits for its latch (latchAt) is no part of RETIRED. -/
def Obligations.RetiredTilesStayRetired : Prop :=
  ∀ (x : Tile) (now pos fresh ofs : Nat) (m : PeriodMeas), x.state = .retired → x.latchAt = 0 →
    (x.period now ofs m).state = .retired ∧ (x.boundary now pos fresh).state = .retired ∧ (x.droopOn now ofs).state = .retired ∧
    (∀ k c, (x.retirePhases now k c).state = .retired) ∧ ∀ r w, (x.apply now r w).state = .retired


/-! ### The spine and the field core's view of its tiles -/

/-- A TREP whose check lane agrees refreshes the field core's view of its tile, whose loss ends where it reports OFF, and belongs to the
cut where it covers the sample of a freeze; an EVENT whose check agrees acts as its code says
at its own tick, extended from 16 bits; an EVENT is taken off the upstream path. A word whose check disagrees is dropped. A tile that
has missed 16 reports is raised as TILE_LOST with DATA 3, told to retire and recorded as lost, once. -/
def Obligations.UpstreamWordsReachTheFieldCore : Prop :=
  ((∀ (q : Fin 8) (w : BitVec 64) (s : State), uwType w = 8 → uwPos w < 24 →
    exec (.trep q w (uwCheck w)) s = .next (
      let t := 24 * q.val + uwPos w
      let v := s.updView t fun v => viewTrep v w
      let u := if v.obs.frozen = true ∧ v.time / 16 = v.obs.regTf / 16 + 1 then
        v.updObs fun o => { o with cutTreps := tset 0 o.cutTreps t w } else v
      if (u.view t).state = 0 then u.returnTile t else u)) ∧
  (∀ (v : TView) (w : BitVec 64), (viewTrep v w).missed = 0 ∧ (viewTrep v w).got = true ∧ (viewTrep v w).present = true ∧
    (viewTrep v w).state = bits w.toNat 54 51 ∧ (viewTrep v w).itile = sext 16 (bits w.toNat 50 35) ∧
    (viewTrep v w).vsns = bits w.toNat 34 23) ∧
  (∀ (q : Fin 8) (w : BitVec 64) (s : State), uwType w = 9 → uwPos w < 24 → s.inst.lockstep = false →
    exec (.event q w (uwCheck w)) s = .next ((s.takeUp q w).tileEvent (24 * q.val + uwPos w) (bits w.toNat 54 48)
      (extend16back (s.takeUp q w).time (bits w.toNat 47 32)) (bits w.toNat 31 0))) ∧
  (∀ (q : Fin 8) (w : BitVec 64) (chk : BitVec 4) (s : State), chk ≠ uwCheck w → exec (.trep q w chk) s = .next s ∧
    exec (.event q w chk) s = .next (s.takeUp q w))) ∧
  (∀ (t : Fin 192) (s : State),
    (16 ≤ (s.view t).missed → (s.view t).gone = false → exec (.tileLost t) s =
      .next ((((s.raise cTileLost (mkSrc 1 t) 3).sendTile t .retireTile).recordLoss t true).onTileDom t fun d u => u.bringProgress d)) ∧
    ((s.view t).missed < 16 ∨ (s.view t).gone = true → exec (.tileLost t) s = .next s))

/-! ### Domain regulation -/

/-- A domain sample at a sample boundary of an enumerated instance runs the sample; between boundaries, in reset or before enumeration
nothing happens. A running auto-tune ends at a sample boundary with the first of its end conditions that holds. A FRAME at a frame
boundary carries out what was decided in the frame that ends, closes it, applies the rungs of faults, composes the domains' targets,
decides for the next and rates the engine, in that order; after a lockstep mismatch it carries out what tickets and the ground need,
closes the frame and applies the rungs; a frame boundary is taken once; while the die is frozen it only closes its measurements. -/
def Obligations.SamplesAndFramesRunAtTheirBoundaries : Prop :=
  (∀ (x : SampleIn) (s : State),
    (s.time % 16 = 0 → s.inst.inReset = false → s.inst.enumDone = true → exec (.domainSample x) s = .next (s.sample x)) ∧
    (s.time % 16 ≠ 0 ∨ s.inst.inReset = true ∨ s.inst.enumDone = false → exec (.domainSample x) s = .next s)) ∧
  (∀ (r : Tune) (s : State), s.inst.tuneRun = some r → s.time % 16 = 0 → s.obs.frozen = false →
    exec .tuneEnd s = .next (match s.tuneCond r with
      | some res => s.tuneFinish res
      | none => s)) ∧
  (∀ s : State, s.time % 256 = 0 → s.inst.inReset = false → s.inst.pll = true →
    (s.inst.unitAt ≠ s.time ∨ s.time = 0 → s.obs.frozen = false → s.inst.lockstep = false → exec .frame s = .next (
      let u := (s.updInst fun n => { n with unitAt := s.time }).frameEffects.closeFrame.frameLedger.frameRungs
      if u.inst.lockstep then u else u.frameTargets.frameDecide.frameEngine)) ∧
    (s.inst.unitAt ≠ s.time ∨ s.time = 0 → s.obs.frozen = false → s.inst.lockstep = true → s.inst.gndNext = 0 →
      exec .frame s = .next (
        let u := (s.updInst fun n => { n with unitAt := s.time }).frameTickets.closeFrame.frameLedger.frameRungs
        if u.inst.lockstep then u else u.frameTargets.frameDecide.frameEngine)) ∧
    (s.inst.unitAt ≠ s.time ∨ s.time = 0 → s.obs.frozen = true → s.flt.rungs = [] → exec .frame s =
      .next (s.updInst fun n => { n with unitAt := s.time }).closeFrame) ∧
    (s.inst.unitAt = s.time → s.time ≠ 0 → exec .frame s = .next s))

/-- Lost trust is raised once as SENSE_TRUST with the failed test as DATA; with it goes SENSE_DOMAIN_LOST when no point of the domain is
left, or SENSE_MITTEN_LOST when none of the mitten is left and another of the domain is trusted; otherwise, and for a point of no
domain, nothing more is raised. A point that passed enough samples, and was not locked, is trusted again, and its mitten's and domain's
losses end. DOM_SAT is raised when the run of saturated samples reaches SAT_TIME and DOM_SAT_PERSIST when it
reaches SAT_ERR too, each once in a run (its bit of satEp is set), with severities WARN and ERROR. -/
def Obligations.SenseAndSaturationAreJudged : Prop :=
  ((∀ (p : Fin 512) (s : State), (s.point p).why ≠ none →
    let u := (s.updPoint p fun x => { x with why := none }).raise cSenseTrust (mkSrc 3 p) (s.point p).trustData
    let dark (i : Nat) : Bool := !(u.point i).trusted && (u.point i).why.isNone
    (u.mittenDom (p.val / 16) = none → exec (.senseTrust p) s = .next u) ∧
    (∀ d, u.mittenDom (p.val / 16) = some d →
      let mine := (u.domPoints d).filter fun i => i / 16 == p.val / 16
      ((u.domPoints d).all dark = true → exec (.senseTrust p) s = .next (u.raise cSenseDomainLost (mkSrc 5 d) 0)) ∧
      ((u.domPoints d).all dark = false → mine.all dark = true → (u.domPoints d).any (fun i => (u.point i).trusted) = true →
        exec (.senseTrust p) s = .next (u.raise cSenseMittenLost (mkSrc 2 (p.val / 16)) 0)) ∧
      ((u.domPoints d).all dark = false → mine.all dark = false ∨ (u.domPoints d).any (fun i => (u.point i).trusted) = false →
        exec (.senseTrust p) s = .next u))) ∧
  (∀ (p : Fin 512) (s : State), (s.point p).why = none → exec (.senseTrust p) s = .next s) ∧
  (∀ x : Point, x.trustData = x.why.getD 0 + 4 * (if x.lossCnt = 3 then 1 else 0) + x.whyMean % 2048 * 65536) ∧
  (∀ (p : Fin 512) (d : Nat) (s : State), s.mittenDom (p.val / 16) = some d → (s.domPoints d).contains p.val = true →
    ((s.point p).trusted = false → (s.point p).locked = false → s.trustRegain ≤ (s.point p).passCnt →
      exec (.trustRegain p) s = .next (((s.updPoint p fun x => { x with trusted := true, passCnt := 0, why := none }).endCause
        cSenseMittenLost (mkSrc 2 (p.val / 16))).endCause cSenseDomainLost (mkSrc 5 d))) ∧
    ((s.point p).trusted = true ∨ (s.point p).locked = true ∨ (s.point p).passCnt < s.trustRegain →
      exec (.trustRegain p) s = .next s))) ∧
  ((∀ (d : Fin 32) (s : State), s.satTime ≤ (s.dom d).satCnt → bit (s.dom d).satEp 0 = false →
    exec (.domSat d) s = .next ((s.updDom d fun x => { x with satEp := x.satEp + 1 }).raise cDomSat (mkSrc 5 d) 0)) ∧
  (∀ (d : Fin 32) (s : State), s.satErr ≤ (s.dom d).satCnt → s.satTime ≤ (s.dom d).satCnt → bit (s.dom d).satEp 1 = false →
    exec (.domSatPersist d) s = .next ((s.updDom d fun x => { x with satEp := x.satEp + 2 }).raise cDomSatPersist (mkSrc 5 d)
      ((s.dom d).satCnt + 65536 * b2n (s.dom d).uPos))) ∧
  (∀ (d : Fin 32) (s : State), (s.dom d).satCnt < s.satTime ∨ bit (s.dom d).satEp 0 = true → exec (.domSat d) s = .next s) ∧
  (∀ (d : Fin 32) (s : State), (s.dom d).satCnt < s.satErr ∨ (s.dom d).satCnt < s.satTime ∨ bit (s.dom d).satEp 1 = true →
    exec (.domSatPersist d) s = .next s) ∧
  (∀ n : Nat, n % 2 = 0 → bit (n + 1) 0 = true) ∧ faultSev cDomSat = 1 ∧ faultSev cDomSatPersist = 2)

/-- The reports of ballast, redistribution and shares: BALLAST_MISMATCH with the current and the count of the test that failed,
REDIST_SLOW 500 ticks after each loss while a working tile is off its share, SHARE_OSC with the ks of the mitten halved again, rounded
down (log entry 71) and never below 1, and its severity ERROR from the third time. -/
def Obligations.BallastAndShareFaultsAreReported : Prop :=
  (∀ (d : Fin 32) (i n : Nat) (s : State), (s.dom d).mmRaise = some (i, n) → exec (.ballastMismatch d) s =
    .next ((s.updDom d fun x => { x with mmRaise := none }).raise cBallastMismatch (mkSrc 5 d) (i % 65536 + min 255 n * 65536))) ∧
  (∀ (d : Fin 32) (s : State), (s.dom d).mmRaise = none → exec (.ballastMismatch d) s = .next s) ∧
  (∀ (m : Fin 32) (s : State),
    ((∃ t ∈ (s.mitten m).lossTicks, t + 500 ≤ s.time) → exec (.redistSlow m) s = .next (
      let u := s.updMitten m fun x => { x with lossTicks := x.lossTicks.filter fun t => s.time < t + 500 }
      if (u.mworking m).any u.offShare then u.raise cRedistSlow (mkSrc 2 m) 0 else u)) ∧
    ((∀ t ∈ (s.mitten m).lossTicks, s.time < t + 500) → exec (.redistSlow m) s = .next s)) ∧
  (∀ (t : Fin 192) (s : State), s.working t = true → (s.view t).shareOsc = true →
    let m := t.val / 6
    let ks := max 1 ((if (s.mitten m).ksNow = 0 then s.tilePar.ks else (s.mitten m).ksNow) / 2)
    exec (.shareOsc t) s =
      .next ((forIdx 6 (fun p u => (u.updView (6 * m + p) fun v => { v with oscSigns := [] }).decideTile (6 * m + p) (.cfg 7 ks))
        (s.updMitten m fun x => { x with
          oscFails := min 255 ((s.mitten m).oscFails + 1), ksHalved := min 16 (x.ksHalved + 1), ksNow := ks })).raiseSev
        cShareOsc (if 3 ≤ (s.mitten m).oscFails + 1 then 2 else 1) (mkSrc 2 m) 0)) ∧
  (∀ (t : Fin 192) (s : State), s.working t = false ∨ (s.view t).shareOsc = false → exec (.shareOsc t) s = .next s)

/-! ### Frames and rounds -/

/-- A housekeeping round that its FRAME has opened retrains the downed links, is closed and evaluated; while frozen it is only closed and
its sums start again; after a lockstep mismatch the round's report is all that is left. Telemetry windows end at multiples of their
length. -/
def Obligations.RoundsCloseAtRoundBoundaries : Prop :=
  (∀ s : State, s.time % 262144 = 0 → s.time ≠ 0 → s.inst.unitAt = s.time → s.hk.roundAt ≠ s.time + 1 → s.inst.inReset = false →
    s.inst.committed = true ∨ s.inst.factory = true →
    (s.obs.frozen = false → s.inst.lockstep = false → exec .housekeepingRound s = .next (s.retrain.closeRound true).evalRound) ∧
    (s.obs.frozen = true → exec .housekeepingRound s = .next (s.closeRound false).newSums) ∧
    (s.obs.frozen = false → s.inst.lockstep = true → exec .housekeepingRound s = .next (
      let t := s.retrain.closeRound false
      (t.sendReport (roundOf t.time - 1)).newRound))) ∧
  (∀ s : State, s.time % 262144 ≠ 0 ∨ s.hk.roundAt = s.time + 1 ∨ s.inst.inReset = true → exec .housekeepingRound s = .next s) ∧
  (∀ s : State, s.hk.roundAt = s.time + 1 → s.hk.pubAt ≠ s.time + 1 → s.inst.lockstep = false → s.obs.frozen = false →
    s.hk.win = s.hk.winInForce → roundOf s.time % 2 ^ s.hk.winInForce = 0 → exec .tlmPublish s =
      .next ((s.updHk fun h => { h with pubAt := s.time + 1 }).asideWindow.publish 1).restartWindow)

/-- A domain that may shed sheds at the last sample of its frame to the highest level its dwell allows, with one SHED word to each
working tile; a granted slot within the guard blocks it with SHED_BLOCKED instead and its dwell starts again; an armed or launched
ticket holds it back. The phases a tile keeps at each level of
shedding, with none retired: all but (p + 3) mod 4 at level 3, 0 and 2 at level 2, p mod 4 at level 1. A retired phase is never
kept, and one replaces it where one is left. -/
def Obligations.DomainsShedBetweenSlotsInPhase : Prop :=
  (∀ (d : Fin 32) (s : State), s.time % 256 / 16 = 15 → s.obs.frozen = false → s.inst.lockstep = false → s.inst.inReset = false →
    s.enabled d = true → s.mayShed d = true →
    let near := s.nearGrants d (nextFrame s.time)
    let live := s.domTks d fun k => k.state == .armed || k.state == .launched
    (near ≠ [] → exec (.domainShed d) s = .next ((s.updDom d fun x => { x with dwell := [] }).raise cShedBlocked (mkSrc 5 d) 0)) ∧
    (near = [] → live ≠ [] → exec (.domainShed d) s = .next s) ∧
    (near = [] → live = [] → exec (.domainShed d) s = .next (s.shedTo d ((s.dom d).dwell.foldl max 0)))) ∧
  (∀ (d : Fin 32) (s : State), s.time % 256 / 16 ≠ 15 ∨ s.mayShed d = false ∨ s.obs.frozen = true → exec (.domainShed d) s = .next s) ∧
  (∀ (d lvl : Nat) (s : State), s.shedTo d lvl =
    forL (s.dworking d) (fun t v => (v.updView t fun y => { y with shedSent := v.shedMask lvl t }).sendTile t (.shed (v.shedMask lvl t)))
      (s.updDom d fun x => { x with shedLvl := some lvl, unshedAt := 0, dwell := [] })) ∧
  (∀ p : Fin 6,
    (∀ k : Fin 4, (keptPhases 3 p 0).contains k.val = decide (k.val ≠ (p.val + 3) % 4)) ∧
    (∀ k : Fin 4, (keptPhases 2 p 0).contains k.val = decide (k.val = 0 ∨ k.val = 2)) ∧
    (∀ k : Fin 4, (keptPhases 1 p 0).contains k.val = decide (k.val = p.val % 4)) ∧
    ∀ (n lost : Fin 16), 1 ≤ n.val → n.val ≤ 3 → ∀ k : Fin 4, bit lost k = true → (keptPhases n p lost).contains k.val = false)


/-! ### Limits, caps and temperature -/

/-- A ladder over its allocation steps its highest group down once in STEP_DN frames and remembers the notch; after STEP_UP frames
under it the latest notch is taken back, oldest last; either is kept as the move of the frame. -/
def Obligations.LaddersStepNotchByNotch : Prop :=
  (∀ (k : LadCls) (a : Nat) (s : State), (s.lim.ladder (ladIdx k)).alloc = some a → s.ladderTime = true →
    16 * a < (s.lim.ladder (ladIdx k)).sum16 → ((s.lim.ladder (ladIdx k)).lastStep.all fun f => f + s.stepDn ≤ frameOf s.time) = true →
    s.downNotch (ladIdx k) ≠ [] → exec (.ladderNotchDown k) s =
      .next ((forL (s.downNotch (ladIdx k)) (fun (d, sp) u => notchDom true sp d u) s).updLadder (ladIdx k) fun l => { l with
        stack := s.downNotch (ladIdx k) :: l.stack, lastStep := some (frameOf s.time), upCnt := 0
        moved := s.downNotch (ladIdx k), movedDown := true })) ∧
  (∀ (k : LadCls) (s : State), (s.lim.ladder (ladIdx k)).alloc = none → exec (.ladderNotchDown k) s = .next s) ∧
  (∀ (k : LadCls) (s : State), s.ladderTime = true → (s.lim.ladder (ladIdx k)).alloc ≠ none →
    s.stepUp ≤ (s.lim.ladder (ladIdx k)).upCnt → exec (.ladderNotchUp k) s = .next (
      let p := popNotch (fun d => (s.dom d).thHold) (s.lim.ladder (ladIdx k)).stack
      (forL p.1 (fun (d, sp) u => notchDom false sp d u) s).updLadder (ladIdx k) fun l => { l with
        stack := p.2, upCnt := 0, lastStep := if p.1.isEmpty then l.lastStep else some (frameOf s.time)
        moved := if p.1.isEmpty then l.moved else p.1, movedDown := p.1.isEmpty && l.movedDown })) ∧
  (∀ (k : LadCls) (s : State), (s.lim.ladder (ladIdx k)).upCnt < s.stepUp → exec (.ladderNotchUp k) s = .next s)

/-- The manager's part of the caps: it allocates in frame 4 of each round, and on no worker; CAP_FLOOR_END follows 16 rounds with the
floors met and ends the occurrence; ATTR_RESIDUAL is raised once when 16 rounds in a row are off. -/
def Obligations.TheManagerAllocatesInFrameFour : Prop :=
  (∀ s : State, s.inst.manager = true → s.inst.ready = true → s.time % 262144 / 256 = 4 → s.mgr.dispLast ≠ some (roundOf s.time) →
    s.obs.frozen = false → s.inst.lockstep = false → s.inst.factory = false → exec .managerAllocation s = .next s.allocate) ∧
  (∀ s : State, s.inst.manager = false → exec .managerAllocation s = .next s ∧ exec .capFloorEnd s = .next s ∧
    exec .attrResidual s = .next s) ∧
  (∀ s : State, s.inst.manager = true → s.mgr.capFloor = true → 16 ≤ s.mgr.capFloorN → exec .capFloorEnd s =
    .next (
      let u := (s.updMgr fun m => { m with capFloor := false, capFloorN := 0 }).raiseInst cCapFloorEnd
        (capFloorData s.mgr.diePwr s.mgr.capFloorW)
      u.endCause cCapFloor u.srcInst)) ∧
  (∀ s : State, s.inst.manager = true → 16 ≤ s.mgr.residCnt → s.mgr.residEp = false → exec .attrResidual s =
    .next ((s.updMgr fun m => { m with residEp := true }).raiseInst cAttrResidual 0))

/-- A sensor is converted in the frame of its turn and its code kept; a valid reading at T_CRIT or above, on a sensor not already hot,
raises THERM_CRIT with the code and the sensor and lowers its domain's ceiling. VIN_RANGE is raised once in an episode of 16 frames
out of 1.55 V to 2.05 V, with the mean VIN and the side as DATA; nothing else of the field changes. -/
def Obligations.TemperaturesAndVinAreActedOn : Prop :=
  ((∀ (i : Fin 128) (code : Int) (s : State), frameOf s.time % 64 = i.val % 64 → s.inst.inReset = false →
    exec (.tempConversion i code) s = .next { s with sensors := tset {} s.sensors i.val { s.sensor i with
      conv := clampI code (-32768) 32767, has := true } }) ∧
  (∀ (i : Fin 128) (code : Int) (d : Nat) (s : State), (s.sensor i).valid = true → (s.sensor i).hot = false →
    s.tCrit (s.thermGroup (sensorMitten i)) ≤ code → s.inst.inReset = false →
    s.mittenDom (sensorMitten i) = some d →
    exec (.thermCrit i code) s = .next ((({ s with sensors := tset {} s.sensors i.val { s.sensor i with hot := true } } : State).raise
      cThermCrit (mkSrc 5 d) (uext 16 code + i.val * 65536)).critDomain d)) ∧
  (∀ (i : Fin 128) (code : Int) (s : State), code < s.tCrit (s.thermGroup (sensorMitten i)) ∨ (s.sensor i).valid = false →
    exec (.thermCrit i code) s = .next s) ∧
  (∀ (i : Fin 128) (code : Int) (s : State), (s.sensor i).hot = true → exec (.thermCrit i code) s = .next s)) ∧
  (∀ s : State,
    (16 ≤ s.lim.vinOut → s.lim.vinEp = false → exec .vinRange s = .next ((s.updLim fun l => { l with vinEp := true }).raiseInst
      cVinRange (min 65535 s.lim.vinF + if 2050 < s.lim.vinF then 65536 else 0))) ∧
    (s.lim.vinEp = true → exec .vinRange s = .next s) ∧ faultSev cVinRange = 1)

/-! ### Stops -/

/-- What each stop does: a sensor whose code is 8000 (125 °C) or above trips once; a deasserted COOL_OK stops the die and starts the
count of its return again; PWRFAIL_N ramps it down once;
each ends a freeze first. The return of PWRFAIL_N ends its cause. A COOL_STOP of the manager stops this instance with the cause
it names; a worker's COOL_LOSS makes the manager stop too and order the die. -/
def Obligations.StopsEndAFreezeAndAct : Prop :=
  (∀ (i : Fin 128) (code : Int) (s : State), 8000 ≤ code → s.lim.thermTrip = false → s.inst.inReset = false →
    exec (.thermTrip i code) s = .next s.endFreeze.tripActions) ∧
  (∀ s : State, s.inst.inReset = false → exec .coolOkDeassert s =
    .next ((s.endFreeze.updLim fun l => { l with coolHigh := 0 }).stopDie 0)) ∧
  (∀ s : State, s.lim.pwrFail = false → s.inst.inReset = false → exec .pwrfailN s = .next s.endFreeze.powerActions) ∧
  (∀ s : State, s.lim.pwrFail = true → exec .pwrfailN s = .next s ∧ exec .pwrfailNReturn s =
    .next ((s.updLim fun l => { l with pwrFail := false }).endCause cPwrFail s.srcInst)) ∧
  (∀ (f : Flit) (r : Ring) (s : State), s.takes 0x05 r f = true → exec (.coolStop ⟨f, r⟩) s =
    .next ((s.taken r f).endFreeze.coolActions (fbits f 104 104))) ∧
  (∀ (f : Flit) (r : Ring) (s : State), s.obs.frozen = false → s.takes 0x0B r f = true →
    ((s.taken r f).inst.manager = true → exec (.coolLoss ⟨f, r⟩) s =
      .next (((s.taken r f).coolActions (fbits f 104 104)).orderStop (fbits f 104 104) (fSrc f))) ∧
    ((s.taken r f).inst.manager = false → exec (.coolLoss ⟨f, r⟩) s = .next (s.taken r f))) ∧
  (∀ s : State, s.obs.frozen = false → s.endFreeze = s)

/-! ### The engine -/

/-- A forecaster period starts at its multiples of FC_PERIOD where the engine runs: the inputs are latched, every lane of the forecaster
takes up its programs from their first descriptor, and the forecasts of another lane's programs are 0. An activity with work left at
the end of its window is pre-empted: the domain loops lose it with ENG_BUDGET_DL, the forecaster and the attribution lose it at the end of their period and
frame, reported once a frame, and the dumps and the supervisor keep theirs. -/
def Obligations.ForecasterPeriodsAndLeftWork : Prop :=
  (∀ s : State, s.inst.inReset = false →
    (s.time % (16 * s.eng.fcPer) = 0 → s.engineRuns = true → exec .forecasterPeriod s = .next (
      forIdx 4 (fun l u =>
        if u.fcLanes.contains l then u.updEng fun e => e.setLane l { e.lane l with leftFc := (u.progsOf l 1).map fun p => (p.idx, 0) }
        else forL ((u.progsOf l 1).flatMap (·.dlist) |>.filter (· < 32)) (fun d v => v.updDom d fun x => { x with
          fff := 0, fffEm := 0 }) u) s.latchFin)) ∧
    (s.time % (16 * s.eng.fcPer) ≠ 0 ∨ s.engineRuns = false → exec .forecasterPeriod s = .next s)) ∧
  ((∀ (l : Fin 4) (s : State), (s.eng.lane l).leftDl ≠ [] → exec (.windowPreempt .domainLoops l) s =
    .next ((s.updEng fun e => e.setLane l { s.eng.lane l with leftDl := [] }).raiseInst cEngBudgetDl 0)) ∧
  (∀ (l : Fin 4) (s : State), (s.eng.lane l).leftAt ≠ [] → 240 ≤ s.time % 256 → exec (.windowPreempt .attribution l) s =
    .next (
      let u := s.updEng fun e => e.setLane l { s.eng.lane l with leftAt := [] }
      if u.eng.atLateFr = some (frameOf u.time) then u
      else (u.updEng fun e => { e with atLateFr := some (frameOf u.time) }).raiseInst cEngAttrLate 0)) ∧
  (∀ (l : Fin 4) (s : State), (s.eng.lane l).leftFc ≠ [] → 16 * (s.eng.fcPer - 1) ≤ s.time % (16 * s.eng.fcPer) →
    exec (.windowPreempt .forecaster l) s = .next (
      let v := forL ((((s.eng.lane l).leftFc.filterMap fun x => s.prog x.1).flatMap (·.dlist)).filter (· < 32))
        (fun d u => u.updDom d fun x => { x with fff := 0, fffEm := 0 }) s
      let u := v.updEng fun e => e.setLane l { s.eng.lane l with leftFc := [] }
      if u.eng.fcLateFr = some (frameOf u.time) then u
      else (u.updEng fun e => { e with fcLateFr := some (frameOf u.time) }).raiseInst cEngFcstLate 0)) ∧
  (∀ (l : Fin 4) (s : State), exec (.windowPreempt .dumpsAndTrace l) s = .next s ∧ exec (.windowPreempt .supervisorTable l) s = .next s))

/-- A bad page that reads back well in the frame after its failure charges its array and is good from the next frame; a host-modified one
is restored from its copy, and is good from the next frame where that reads back, else it is raised and tried again; any other is asked
of the manager. Three charges retire an array, once, and the fourth array grounds the instance. -/
def Obligations.BadPagesAreRecheckedAndReloaded : Prop :=
  (∀ (pg : Fin 8192) (b : BadPage) (ok : Bool) (s : State), tget none s.eng.bad pg.val = some b → b.since < frameOf s.time →
    b.asked = false → b.goodAt = none → s.grounded = false ∨ s.inst.lockstep = false →
    (ok = true → s.chkAgrees pg = true → exec (.pageRecheck pg ok) s =
      .next ((s.updEng fun e => { e with charges := tset 0 e.charges b.array (tget 0 e.charges b.array + 1) }).updBad pg
        fun b => { b with goodAt := some (nextFrame s.time) })) ∧
    (ok = false ∨ s.chkAgrees pg = false →
      (s.eng.hmod.contains pg.val = true → exec (.pageRecheck pg ok) s = .next (s.restorePage pg)) ∧
      (s.eng.hmod.contains pg.val = false → exec (.pageRecheck pg ok) s = .next (s.askPage pg)))) ∧
  (∀ (pg : Nat) (s : State),
    let u := ({ s with fresh := s.fresh + 1 } : State).writePage pg (readBytes 0 s.eng.copies (256 * pg) 256)
    (Config.readBack s.fresh = true → s.restorePage pg =
      (u.updBad pg fun b => { b with failed := false, goodAt := some (nextFrame u.time) }).endCause cEngPageReloadFail u.srcInst) ∧
    (Config.readBack s.fresh = false → s.restorePage pg =
      (u.updBad pg fun b => { b with asked := true, failed := true }).raiseInst cEngPageReloadFail pg)) ∧
  (∀ (pg : Fin 8192) (ok : Bool) (s : State), tget none s.eng.bad pg.val = none → exec (.pageRecheck pg ok) s = .next s) ∧
  (∀ (a : Fin 4) (s : State), 3 ≤ tget 0 s.eng.charges a.val → bit s.eng.retired a = false → bit s.eng.retireNext a = false →
    exec (.engArrayRetired a) s = .next (
      let u := ((s.updEng fun e => { e with retireNext := e.retireNext + 2 ^ a.val }).raise cEngArrayRetired (mkSrc 7 a) 0).endCause
        cEngArrayRetired (mkSrc 7 a)
      if u.eng.retired + u.eng.retireNext = 15 then u.groundBy 3 else u))

/-- The manager with a good image answers a page request with the 32 chunks of the page, eight bytes each; a field that asked for
a page takes each chunk, and the last of them writes the page, which is good from the next frame where it reads back, and raised with
ENG_PAGE_RELOAD_FAIL, to be asked for again, where it does not. -/
def Obligations.PagesTravelInThirtyTwoChunks : Prop :=
  (∀ (f : Flit) (r : Ring) (s : State), s.obs.frozen = false → s.takes 0x11 r f = true → (s.taken r f).inst.manager = true →
    (s.taken r f).inst.verdict = 1 → exec (.pageReq ⟨f, r⟩) s = .next (
      forL (units8 ((s.taken r f).imagePage (fSrc f) (fbits f 104 92))).zipIdx (fun (w, i) u =>
        u.unicast 0x1A 2 (fSrc f) (fbits f 104 92 * 2 ^ 92 + i * 2 ^ 87 + w * 2 ^ 23)) (s.taken r f))) ∧
  (∀ (f : Flit) (r : Ring) (ok : Bool) (b : BadPage) (s : State), s.obs.frozen = false → s.takes 0x1A r f = true →
    tget none (s.taken r f).eng.bad (fbits f 104 92) = some b → b.asked = true →
    let c := (s.taken r f).takeChunk (fbits f 104 92) (fbits f 91 87) (fbits f 86 23)
    (c.eng.reloadGot.length < 32 → exec (.pageData ⟨f, r⟩ ok) s = .next c) ∧
    (32 ≤ c.eng.reloadGot.length → exec (.pageData ⟨f, r⟩ ok) s = .next (
      let u := (c.writePage (fbits f 104 92) (readBytes 0 c.eng.reload 0 256)).updEng fun e => { e with
        loadPage := none, reload := [], reloadGot := [] }
      if ok then (u.updBad (fbits f 104 92) fun b => { b with
        asked := false, failed := false, goodAt := some (nextFrame u.time) }).endCause cEngPageReloadFail u.srcInst
      else (u.updBad (fbits f 104 92) fun b => { b with failed := true }).raiseInst cEngPageReloadFail (fbits f 104 92)))) ∧
  (∀ (f : Flit) (r : Ring) (ok : Bool) (s : State), s.obs.frozen = false → s.takes 0x1A r f = true →
    tget none (s.taken r f).eng.bad (fbits f 104 92) = none → exec (.pageData ⟨f, r⟩ ok) s = .next (s.taken r f))

/-! ### Launch tickets -/

/-- A request that the checks refuse is answered with its status and changes nothing else; one they pass becomes a REQUESTED ticket
with the request's fields, answered QUEUED with its identifier, and is forwarded to the manager where it names a sync group. One that
finds the response channel full waits for room (log entry 72), and a freeze captures it. -/
def Obligations.TicketRequestsAreAnsweredOrTaken : Prop :=
  ∀ (c : Fin 32) (w : BitVec 96) (whole : Bool) (s : State), (s.cluster c).disabled = false → s.inst.inReset = false →
    s.inst.fuseDone = true →
    (s.obs.frozen = true → exec (.ticketRequest c w whole) s = .next (s.captureReq c (.ticketRequest c w whole) true)) ∧
    (s.obs.frozen = false → (s.cluster c).full = true ∨ (s.cluster c).rspWait ≠ [] → exec (.ticketRequest c w whole) s =
      .next (s.updCluster c fun x => { x with reqWait := x.reqWait ++ [(s.time, .ticketRequest c w whole)] })) ∧
    (s.obs.frozen = false → (s.cluster c).full = false → (s.cluster c).rspWait = [] →
      (∀ st : Nat, s.refusal c w.toNat whole = some st → exec (.ticketRequest c w whole) s = .next (s.respond c st 0 s.time)) ∧
      (s.refusal c w.toNat whole = none →
        let i := s.nextId.getD 0
        let x : Ticket := { used := true, state := .requested, cluster := c, job := bits w.toNat 81 66, layer := bits w.toNat 65 50
                            oper := bits w.toNat 49 34, profile := bits w.toNat 33 22
                            earliest := 8 * (s.time / 8) + 8 * bits w.toNat 21 14, arrival := s.time, expiry := s.time + s.tk.qmax
                            sync := bit w.toNat 13, group := bits w.toNat 87 82, nobal := bit w.toNat 12
                            runMax := s.pfRunMax (bits w.toNat 33 22) }
        let u := ((s.setTicket i x).updTk fun t => { t with lastId := i }).respond c 0x0 i s.time
        (bit w.toNat 13 = false → exec (.ticketRequest c w whole) s = .next u) ∧
        (bit w.toNat 13 = true → exec (.ticketRequest c w whole) s = .next (u.toManager 0x12 1 (x.group * 2 ^ 99 + x.job * 2 ^ 83 +
          x.layer * 2 ^ 67 + x.oper * 2 ^ 51 + i * 2 ^ 35 + c * 2 ^ 30 + x.earliest / 8 % 2 ^ 14 * 2 ^ 16)))))

/-- A whole DONE report of the cluster's own ticket ends it as DONE, from its grant on to the tick before its run expires; one that comes
at that tick or later is a port error. A whole COUNT report adds its value, saturating at 64 bits, to
the counter of the cluster's own running ticket and charges its energy. A report that is not whole, fails its check or has the wrong
code, or names no ticket of the cluster that it can speak of, is a port error of its channel, and a freeze captures either. -/
def Obligations.ReportsReachTheirOwnTicket : Prop :=
  (∀ (c : Fin 32) (w : Word) (s : State), (s.cluster c).disabled = false → s.inst.inReset = false → s.inst.fuseDone = true →
    s.obs.frozen = false →
    let n := w.toNat
    let x := s.ticket (bits n 27 12)
    (crc8 24 (n / 256) = n % 256 → bits n 31 28 = 1 → x.used = true → x.cluster = c.val → x.state.inLedger = true →
      x.state.runs = false ∨ s.time < x.runEnd → exec (.doneReport c w true) s = .next (s.finish (bits n 27 12) .done)) ∧
    (∀ whole : Bool, whole = false ∨ crc8 24 (n / 256) ≠ n % 256 ∨ bits n 31 28 ≠ 1 ∨ x.used = false ∨ x.cluster ≠ c.val ∨
      x.state.inLedger = false ∨ (x.state.runs = true ∧ x.runEnd ≤ s.time) →
      exec (.doneReport c w whole) s = .next (s.portErr c 1))) ∧
  (∀ (c : Fin 32) (w : BitVec 96) (s : State), (s.cluster c).disabled = false → s.inst.inReset = false → s.inst.fuseDone = true →
    s.obs.frozen = false →
    let n := w.toNat
    let i := bits n 91 76
    let k := bits n 75 72
    let sat (a : Nat) : Nat := min (2 ^ 64 - 1) (a + bits n 71 8)
    (crc8 88 (n / 256) = n % 256 → bits n 95 92 = 2 → (s.ticket i).used = true → (s.ticket i).cluster = c.val →
      (s.ticket i).state.runs = true → exec (.countReport c w true) s = .next (
        let u := ((s.updTicket i fun x => { x with cnt := tset 0 x.cnt k (sat (tget 0 x.cnt k)) }).chargeDyn i k (bits n 71 8)).updEng
          fun e => { e with cntNow := tset 0 e.cntNow (16 * c + k) (min (2 ^ 31 - 1) (tget 0 e.cntNow (16 * c + k) + bits n 71 8)) }
        u.updCluster c fun y =>
          if y.runTicket = i ∧ y.runFrom.isSome then { y with runCnt := tset 0 y.runCnt k (sat (tget 0 y.runCnt k)) } else y)) ∧
    (∀ whole : Bool, whole = false ∨ crc8 88 (n / 256) ≠ n % 256 ∨ bits n 95 92 ≠ 2 ∨ (s.ticket i).used = false ∨
      (s.ticket i).cluster ≠ c.val ∨ (s.ticket i).state.runs = false → exec (.countReport c w whole) s = .next (s.portErr c 1))) ∧
  (∀ (c : Fin 32) (w : Word) (v : BitVec 96) (whole : Bool) (s : State), (s.cluster c).disabled = false → s.inst.inReset = false →
    s.inst.fuseDone = true → s.obs.frozen = true →
    exec (.doneReport c w whole) s = .next (s.captureReq c (.doneReport c w whole) false) ∧
    exec (.countReport c v whole) s = .next (s.captureReq c (.countReport c v whole) false))

/-- The channels of a cluster: its oldest waiting response leaves, and what a full channel held back goes on; a stretch sample is counted for the round, for each ticket that
runs and for the run counters; a margin code is taken from its Gray code. A frozen instance sends no response. -/
def Obligations.ClusterChannelsAreFollowed : Prop :=
  (∀ (c : Fin 32) (w : BitVec 64) (r : List (BitVec 64)) (s : State), s.obs.frozen = false → (s.cluster c).rsp = w :: r →
    exec (.ticketResponse c) s = .next ((s.setCluster c { s.cluster c with rsp := r, sent := some w }).portOn c)) ∧
  (∀ (c : Fin 32) (s : State), (s.cluster c).rsp = [] → exec (.ticketResponse c) s = .next s) ∧
  (∀ (c : Fin 32) (s : State), s.obs.frozen = true → exec (.ticketResponse c) s = .next s) ∧
  (∀ (c : Fin 32) (s : State), s.inst.inReset = false → s.obs.frozen = true → exec (.clStretch c) s =
    .next (s.updCluster c fun x => { x with strRound := min (2 ^ 32 - 1) (x.strRound + 1) })) ∧
  (∀ (c : Fin 32) (s : State), s.inst.inReset = false → s.obs.frozen = false → exec (.clStretch c) s = .next (
    let l := s.tks fun x => x.cluster == c.val && x.state.runs && x.slot ≤ s.time
    (forL (l.map (·.1)) (fun i u => u.updTicket i fun x => { x with stretch := x.stretch + 1 })
      (s.updCluster c fun x => { x with strRound := min (2 ^ 32 - 1) (x.strRound + 1) })).updCluster c fun x =>
        if l.any fun e => e.1 == x.runTicket && x.runFrom == some e.2.slot then { x with runStretch := min (2 ^ 32 - 1) (x.runStretch + 1) }
        else x)) ∧
  (∀ (c : Fin 32) (g : BitVec 4) (s : State), exec (.clMargin c g) s = .next (s.setCluster c { s.cluster c with
    margin := grayNat g.toNat, frameMin := min (s.cluster c).frameMin (grayNat g.toNat)
    frameMax := max (s.cluster c).frameMax (grayNat g.toNat), roundMin := min (s.cluster c).roundMin (grayNat g.toNat) })) ∧
  grayNat 0b0000 = 0 ∧ grayNat 0b0001 = 1 ∧ grayNat 0b0011 = 2 ∧ grayNat 0b0010 = 3 ∧ grayNat 0b1000 = 15

/-- A grant pass tries each candidate in the slots of its window, in order; without a valid time, or on a failing supply, no ticket is
granted and every queued one waits; while frozen or in reset there is no pass. The first slot a ticket can be granted is a launch
slot: its tick is a multiple of 8. -/
def Obligations.GrantPassesTryCandidatesInOrder : Prop :=
  (∀ s : State,
    (s.obs.frozen = false → s.inst.inReset = false → s.enqueue.noteSlot.tth.timeValid = true →
      s.enqueue.noteSlot.lim.pwrFail = false → exec .grantPass s =
        .next (forL (s.enqueue.noteSlot.cands s.enqueue.noteSlot.time) (fun i u => match u.tkDom (u.ticket i) with
          | none => u
          | some d => u.trySlots d i u.time 512 (u.firstSlot d (u.ticket i) u.time)) s.enqueue.noteSlot)) ∧
    (s.obs.frozen = false → s.inst.inReset = false → s.enqueue.noteSlot.tth.timeValid = false ∨ s.enqueue.noteSlot.lim.pwrFail = true →
      exec .grantPass s = .next (forL ((s.enqueue.noteSlot.tks fun x => x.state == .queued).map (·.1))
        (fun i u => u.updTicket i fun x => { x with whyWait := 32 }) s.enqueue.noteSlot)) ∧
    (s.obs.frozen = true ∨ s.inst.inReset = true → exec .grantPass s = .next s)) ∧
  (∀ (d : Nat) (x : Ticket) (now : Nat) (s : State), s.firstSlot d x now % 8 = 0)

/-- The life of a granted ticket: ARMED at its ballast start, with the domain's baseline taken where it is the only one, or awaited where
its samples are not all in yet; LAUNCHED at
its slot, its snapshot begun; RUNNING when the slot is over; EXPIRED at its expiry, answered and raised as TKT_EXPIRED. Nothing
of this happens while frozen. -/
def Obligations.TicketsRunThroughTheirStates : Prop :=
  (∀ (i : Fin 65536) (s : State), (s.ticket i).used = true → (s.ticket i).state = .granted → (s.ticket i).ballast = true →
    (s.ticket i).bA ≤ s.time → s.obs.frozen = false → exec (.ticketArm i) s = .next (
      let u := s.updTicket i fun x => { x with state := .armed }
      match s.tkDom (s.ticket i) with
      | none => u
      | some d => if (s.domTks d fun y => y.state == .armed || y.state.runs).isEmpty then u.latchBase d i else u)) ∧
  (∀ (d i : Nat) (s : State),
    (∀ b, (s.ticket i).base = some b → s.latchBase d i = s.updDom d fun y => { y with baseline := b, baseAwait := none, mmCnt := 0 }) ∧
    ((s.ticket i).base = none → s.latchBase d i = s.updDom d fun y => { y with baseAwait := some i, mmCnt := 0 })) ∧
  (∀ (i : Fin 65536) (s : State), (s.ticket i).used = true → (s.ticket i).state = .granted ∨ (s.ticket i).state = .armed →
    (s.ticket i).slot ≤ s.time → s.obs.frozen = false → exec (.ticketLaunch i) s =
      .next ((s.updTicket i fun x => { x with state := .launched }).snapStart i)) ∧
  (∀ (i : Fin 65536) (s : State), (s.ticket i).used = true → (s.ticket i).state = .launched → (s.ticket i).slot + 8 ≤ s.time →
    s.obs.frozen = false → exec (.ticketRun i) s = .next (s.updTicket i fun x => { x with state := .running })) ∧
  (∀ (i : Fin 65536) (s : State), (s.ticket i).used = true → s.obs.frozen = false →
    let u := (s.respond (s.ticket i).cluster 0x4 i s.time).raise cTktExpired (mkSrc 6 (s.ticket i).cluster)
      (i + tkCode (s.ticket i).state * 65536)
    ((s.ticket i).state = .queued ∨ (s.ticket i).state = .requested → ((s.ticket i).expiry : Int) + (s.ticket i).extra ≤ s.time →
      exec (.ticketExpiry i) s = .next ((u.dropMember i).finish i .expired)) ∧
    ((s.ticket i).state = .launched ∨ (s.ticket i).state = .running → (s.ticket i).runEnd ≤ s.time →
      exec (.ticketExpiry i) s = .next (u.finish i .expired))) ∧
  (∀ (i : Fin 65536) (s : State), s.obs.frozen = true → exec (.ticketArm i) s = .next s ∧ exec (.ticketLaunch i) s = .next s ∧
    exec (.ticketRun i) s = .next s ∧ exec (.ticketExpiry i) s = .next s)

/-! ### Sync groups -/

/-- A field's part in a sync set: it marks its earliest waiting member of each cluster for SG_SET; for SG_PROP it books all its
members at the proposed slot and votes for it, or votes for the next slot that all could take; SG_COMMIT grants the members
booked there, or, while the field's time is not valid, has it withdraw the set; SG_CANCEL frees them; an SG_WD to all withdraws the members whose slot has not begun, each answered WITHDRAWN. -/
def Obligations.FieldsVoteAndGrantTheirMembers : Prop :=
  ∀ (f : Flit) (r : Ring) (s : State), s.obs.frozen = false →
    (s.takes 0x1F r f = true → exec (.sgSet ⟨f, r⟩) s = .next (
      forIdx 32 (fun c u =>
        let q (x : Ticket) : Bool := x.cluster == c && x.sync && x.group == fbits f 104 99 && (x.state == .queued || x.state == .requested)
        if !u.inMask (fbits f 104 99) (u.dieCluster c) || !(u.tks fun x => q x && x.setId == some (fbits f 98 91)).isEmpty then u
        else match (u.tks fun x => q x && x.setId.isNone && x.job == fbits f 90 75 && x.layer == fbits f 74 59 &&
            x.oper == fbits f 58 43).foldl (fun a e => match a with
              | none => some e
              | some b => if e.2.arrival < b.2.arrival then some e else some b) none with
          | none => u
          | some (i, _) => u.updTicket i fun x => { x with setId := some (fbits f 98 91) }) (s.taken r f))) ∧
    (s.takes 0x16 r f = true →
      let u := s.taken r f
      let l := u.members (fbits f 104 99) (fbits f 98 91)
      let p := extend32 u.time (fbits f 90 59)
      l ≠ [] →
      ((u.bookAll l p).2 = true → exec (.sgProp ⟨f, r⟩) s = .next ((u.bookAll l p).1.toManager 0x14 1
        (fbits f 104 99 * 2 ^ 99 + fbits f 98 91 * 2 ^ 91 + 2 ^ 90 + t32 p 58))) ∧
      ((u.bookAll l p).2 = false → exec (.sgProp ⟨f, r⟩) s = .next (u.toManager 0x14 1
        (fbits f 104 99 * 2 ^ 99 + fbits f 98 91 * 2 ^ 91 + t32 (match (List.range 64).find? fun j => (u.bookAll l (p + 8 * j)).2 with
          | some j => p + 8 * j
          | none => p + 512) 58)))) ∧
    (s.takes 0x17 r f = true →
      let u := s.taken r f
      let p := extend32 u.time (fbits f 90 59)
      let l := (u.members (fbits f 104 99) (fbits f 98 91)).filter fun i => (u.ticket i).booked == some p && !(u.ticket i).state.inLedger
      (u.tth.timeValid = true → exec (.sgCommit ⟨f, r⟩) s = .next (
        forL l (fun i v => match v.tkDom (v.ticket i) with | some d => v.grant d i p | none => v) u)) ∧
      (u.tth.timeValid = false → l ≠ [] → exec (.sgCommit ⟨f, r⟩) s = .next (u.toManager 0x15 1
        (fbits f 104 99 * 2 ^ 99 + fbits f 98 91 * 2 ^ 91)))) ∧
    (s.takes 0x18 r f = true → exec (.sgCancel ⟨f, r⟩) s =
      .next (unbook ((s.taken r f).members (fbits f 104 99) (fbits f 98 91)) (s.taken r f))) ∧
    (s.takes 0x15 r f = true → fBc f = true → exec (.sgWd ⟨f, r⟩) s = .next (
      let u := s.taken r f
      forL ((u.members (fbits f 104 99) (fbits f 98 91)).filter fun i => (u.ticket i).early u.time)
        (fun i v => (v.finish i .withdrawn).respond (v.ticket i).cluster 0x3 i v.time) u)) ∧
    (s.takes 0x15 r f = true → fBc f = false → (s.taken r f).inst.manager = true →
      exec (.sgWd ⟨f, r⟩) s = .next ((s.taken r f).forwardWd f))

/-- The manager's part in a sync set: a forwarded member joins the uncommitted set of its group, job, layer and operator, which is
announced when it is whole; each field's vote is taken once and counted; a dropped member leaves its set, which goes where it is empty
and has no identifier, and starts the round again. A round without an answer in 64 ticks fails, and a set that failed 16 times is withdrawn with SG_FAIL. -/
def Obligations.TheManagerCollectsSyncSets : Prop :=
  (∀ (f : Flit) (r : Ring) (s : State), s.obs.frozen = false → s.takes 0x12 r f = true → (s.taken r f).inst.manager = true →
    exec (.sgFwd ⟨f, r⟩) s = .next (
      let n := s.taken r f
      let g := fbits f 104 99
      let m : SgMem := { cluster := 32 * fSrc f + fbits f 34 30, ticket := fbits f 50 35, earliest := slotNear n.time (fbits f 29 16)
                         field := fSrc f }
      let fits (x : SgSetRec) : Bool := x.group == g && x.job == fbits f 98 83 && x.layer == fbits f 82 67 &&
        x.oper == fbits f 66 51 && !x.committed && !x.mems.any fun y => y.cluster == m.cluster
      let n := n.updMgr fun y => { y with sgSets := y.sgSets.filter fun x => !(x.committed && x.p + 65536 < n.time) }
      let i := n.mgr.sgSets.findIdx fits
      let x : SgSetRec := { (n.mgr.sgSets[i]?).getD { group := g, job := fbits f 98 83, layer := fbits f 82 67, oper := fbits f 66 51 } with
        mems := (((n.mgr.sgSets[i]?).map (·.mems)).getD []) ++ [m] }
      let n := n.updMgr fun y => { y with sgSets := if i < y.sgSets.length then y.sgSets.set i x else y.sgSets ++ [x] }
      if n.setWhole x then n.completeSet x else n)) ∧
  (∀ (f : Flit) (r : Ring) (s : State), s.obs.frozen = false → s.takes 0x14 r f = true → exec (.sgVote ⟨f, r⟩) s = .next (
    let n := s.taken r f
    (n.updSets (fun x => x.isSet (fbits f 104 99) (fbits f 98 91) && x.voting && !x.votes.any fun w => w.1 == fSrc f) fun x => { x with
      votes := x.votes ++ [(fSrc f, bit f.toNat 90, extend32 n.time (fbits f 89 58))] }).countVotes (fbits f 104 99) (fbits f 98 91))) ∧
  (∀ (f : Flit) (r : Ring) (x : SgSetRec) (s : State), s.obs.frozen = false → s.takes 0x13 r f = true →
    ((s.taken r f).mgr.sgSets.find? fun x => x.group == fbits f 104 99 && !x.committed &&
      x.mems.any fun m => m.field == fSrc f && m.ticket == fbits f 98 83) = some x →
    exec (.sgDrop ⟨f, r⟩) s = .next (
      let n := s.taken r f
      let y := { x with mems := x.mems.filter fun m => !(m.field == fSrc f && m.ticket == fbits f 98 83), voting := false, order := none }
      let n := n.updMgr fun m => { m with
        sgSets := if y.mems.isEmpty ∧ y.setId.isNone then m.sgSets.erase x else m.sgSets.map fun z => if z = x then y else z }
      (if x.voting then n.broadcastAll 0x18 1 x.head else n).startRound (fbits f 104 99) 0)) ∧
  (∀ (g : Fin 64) (x : SgSetRec) (s : State), s.obs.frozen = false →
    (s.mgr.sgSets.find? fun x => x.group == g.val && x.voting && x.sentAt + 64 ≤ s.time) = some x →
    exec (.sgVoteTimeout g) s = .next (s.failRound x)) ∧
  (∀ (g : Fin 64) (x : SgSetRec) (s : State), s.obs.frozen = false →
    (s.mgr.sgSets.find? fun x => x.group == g.val && 16 ≤ x.fails && !x.committed) = some x → exec (.sgFail g) s =
      .next ((((s.updMgr fun m => { m with sgSets := m.sgSets.erase x }).broadcastAll 0x15 1 x.head).raise cSgFail (mkSrc 0xB g)
        (x.setId.getD 0 + listMask x.noVotes * 256)).startRound g 0))


/-! ### The ring -/

/-- A TRAIN on a ring is repeated, and one that comes before training ends is kept once, and a worker that meets the manager's for the
first time sends its own on the ring it came in on; one on the off-die port is the partner's. A freeze captures a ring's.
An echo is turned back out of port A, and the return of the own one writes the hop. A RING_UP and a LINK_DOWN take the ring they name,
the first at its time. A receiver that loses its ring marks the ring down, tells the die and raises TTH_LINK_DOWN with the ring and the
reason, once. A flit that comes in a freeze is captured, but for a COOL_STOP and a THAW; one that is not for this instance is only
repeated. -/
def Obligations.RingsTrainAndGoDown : Prop :=
  (∀ (f : Flit) (r : Ring) (s : State), s.inst.inReset = false → s.inst.pll = true → flitOk f = true → fKind f = 0x01 →
    (s.obs.frozen = true → exec (.train f (.ring r)) s = .next (s.captureFlit r (.train f (.ring r)))) ∧
    (s.obs.frozen = false →
      let n := s.passOn r f
      (n.tth.trained = true ∨ n.tth.seen.contains (trainEntry f r) = true → exec (.train f (.ring r)) s = .next n) ∧
      (n.tth.trained = false → n.tth.seen.contains (trainEntry f r) = false → exec (.train f (.ring r)) s = .next (
        let u := n.updTth fun t => { t with seen := t.seen ++ [trainEntry f r] }
        if ¬ u.inst.manager ∧ (trainEntry f r).2.1 ∧ (n.trainHops (r == .one) false).isNone then
          u.sendOn (match r with | .one => 1 | .two => 2) (mkFlit 0x01 1 u.inst.fieldId 0 true 0 u.trainPay) else u))) ∧
    exec (.train f .offDie) s = .next (s.trainXt f)) ∧
  (∀ (f : Flit) (p : TrainPort) (s : State), s.inst.inReset = true ∨ flitOk f = false ∨ fKind f ≠ 0x01 → exec (.train f p) s = .next s) ∧
  (∀ (rt : Nat) (s : State), s.inst.inReset = false → s.inst.pll = true →
    exec (.echo none) s = .next (s.putOut 6 (mkFlit 0x09 0 s.inst.fieldId 0 false 0 0)) ∧
    exec (.echo (some rt)) s = .next (s.updTth fun t => { t with hop := tset 0 t.hop t.pos (min 255 ((rt - 16) / 2)) })) ∧
  (∀ (f : Flit) (r : Ring) (s : State), s.obs.frozen = false → s.takes 0x08 r f = true → exec (.ringUp ⟨f, r⟩) s = .next (
    (s.taken r f).takeDec (extendNear (s.taken r f).time (fbits f 104 73)) (.ringUp (if bit f.toNat 72 then 2 else 1)))) ∧
  (∀ (f : Flit) (r : Ring) (s : State), s.obs.frozen = false → s.takes 0x0A r f = true →
    exec (.linkDown ⟨f, r⟩) s = .next ((s.taken r f).takeRingDown (if bit f.toNat 104 then 2 else 1))) ∧
  (∀ (f : Flit) (r : Ring) (s : State),
    (s.obs.frozen = true → exec (.ringUp ⟨f, r⟩) s = .next (s.captureFlit r (.ringUp ⟨f, r⟩)) ∧
      exec (.linkDown ⟨f, r⟩) s = .next (s.captureFlit r (.linkDown ⟨f, r⟩))) ∧
    (s.obs.frozen = false → s.takes 0x08 r f = false → exec (.ringUp ⟨f, r⟩) s = .next (s.passOn r f))) ∧
  (∀ (crc : Bool) (s : State), s.inst.inReset = false → s.inst.pll = true →
    (s.tth.linkA = false → exec (.tthLinkDown .one crc) s = .next
      ((((s.updTth fun t => { t with linkA := true, ldLeft1 := 3, retrained := false }).sendLinkDown 1).takeRingDown 1).raise cTthLinkDown (mkSrc 8 0)
        (2 * b2n crc))) ∧
    (s.tth.linkB = false → exec (.tthLinkDown .two crc) s = .next
      ((((s.updTth fun t => { t with linkB := true, ldLeft2 := 3, retrained := false }).sendLinkDown 2).takeRingDown 2).raise cTthLinkDown (mkSrc 8 1)
        (1 + 2 * b2n crc))) ∧
    (s.tth.linkA = true → exec (.tthLinkDown .one crc) s = .next s) ∧
    (s.tth.linkB = true → exec (.tthLinkDown .two crc) s = .next s))

/-- A flit that has not come back after 32 ticks is sent again on the other ring, or on its own where the other is down, or on both where
it was sent on both, and after
its third sending it is given up, counted and raised; its return on either ring frees its slot. A flit with a wrong CRC is counted
on its ring, up to 65,535. -/
def Obligations.FlitsAreSentAgainUntilTheyReturn : Prop :=
  (∀ (q : Fin 64) (x : Slot) (s : State), s.tth.slots.find? (fun x => fSeq x.word == q.val && decide (x.sentAt + 32 ≤ s.time)) = some x →
    s.lineMode = false → s.obs.frozen = false →
    (3 ≤ x.sends → exec (.flitResend q) s = .next ((s.updTth fun t => { t with
      slots := t.slots.erase x, undel := min 65535 (t.undel + 1) }).raiseInst cTthUndelivered 0)) ∧
    (∀ ring : Nat, x.sends < 3 →
      (x.ring = 3 ∧ ring = 3) ∨ (x.ring = 1 ∧ ring = if s.tth.ring2Down = true then 1 else 2) ∨
        (x.ring = 2 ∧ ring = if s.tth.ring1Down = true then 2 else 1) →
      exec (.flitResend q) s = .next ((s.updTth fun t => { t with
        slots := t.slots.map fun z => if z = x then { x with ring := ring, sentAt := s.time, sends := x.sends + 1 } else z
        seqUse := tset 0 t.seqUse (fSeq x.word) (s.time + 1) }).putOut ring x.word))) ∧
  (∀ (f : Flit) (r : Ring) (s : State), flitOk f = true → fSrc f = s.inst.fieldId → s.inst.inReset = false →
    exec (.flitReturn f r) s = .next (s.updTth fun t => { t with slots := t.slots.filter fun x => flitCore x.word != flitCore f })) ∧
  (∀ s : State, s.inst.inReset = false →
    exec (.flitCrcFail .one) s = .next (s.updTth fun t => { t with crcA := min 65535 (t.crcA + 1) }) ∧
    exec (.flitCrcFail .two) s = .next (s.updTth fun t => { t with crcB := min 65535 (t.crcB + 1) }))

/-! ### Time -/

/-- The manager keeps when its TIME came back on each ring; a worker takes one as an arrival of its estimate; both repeat it as the ring
asks. TETHER_TIME becomes
valid at the fourth good estimate and its cause ends. A step pending at a frame start withdraws what has a slot to come, moves the
time by the whole estimate, raises TTH_TIME_STEP with the step and applies the decisions that fell due. -/
def Obligations.TimeIsHeldToTheManagers : Prop :=
  (∀ (f : Flit) (r : Ring) (x : Fin 16) (s : State), s.inst.inReset = false → s.inst.pll = true →
    flitOk f = true → fKind f = 0x02 → some (fSrc f) = s.mgrId →
    (s.obs.frozen = true → exec (.time f r x) s = .next (s.captureFlit r (.time f r x))) ∧
    (s.obs.frozen = false →
      let u := s.passOn r f
      (u.inst.manager = true → exec (.time f r x) s = .next (
        let rev := min 255 (16 * u.time + x.val - u.tth.timeSent1)
        u.updTth fun t => match r with
          | .one => { t with back1 := true, rev1 := rev }
          | .two => { t with back2 := true, rev2 := rev })) ∧
      (u.inst.manager = false → exec (.time f r x) s = .next (u.workerTime f r (16 * u.time + x.val))))) ∧
  (∀ s : State, s.tth.timeValid = false → (4 ≤ s.tth.okEst →
    exec .timeValidSet s = .next ((s.updTth fun t => { t with timeValid := true }).endCause cTthTimeInvalid s.srcInst)) ∧
    (s.tth.okEst < 4 → exec .timeValidSet s = .next s)) ∧
  (∀ s : State, s.tth.stepPend = true → s.time % 256 = 0 → s.obs.frozen = false → exec .tthTimeStep s = .next (
    let l := s.tks fun x => (x.state == .granted || x.state == .armed) && decide (s.time < x.slot)
    let u := forL (l.map (·.1)) (fun i v => v.withdraw i) s
    let k := openNearest ((u.tth.offFull : Rat) / 16)
    let v := ((u.updTth fun t => { t with stepPend := false, okEst := 0, stepped := -k, ts := none, t1 := none, t2 := none }).stepTime
      k).raiseInst cTthTimeStep (uext 32 (clampI (-k) (-(2 ^ 31)) (2 ^ 31 - 1)))
    forL (v.decs.filter fun x => x.eff ≤ v.time) (fun x w => w.applyDec x.what)
      { v with decs := v.decs.filter fun x => v.time < x.eff })) ∧
  (∀ s : State, s.tth.stepPend = false → exec .tthTimeStep s = .next s)

/-- The exchange of two dies' managers: the FOLLOWER asks every 16,384 ticks, the LEADER answers with its arrival and turn-round, and
the offset is half the difference of the two ways. A flit that finds the same role on both sides is a clash, raised once, and from then
levels alone are sent. A level is
kept with its round and ends XT_LINK_DOWN, which a silence of 16 rounds or a lost clock raises. -/
def Obligations.TwoDiesExchangeTimeAndLevel : Prop :=
  (∀ s : State, s.inst.manager = true → s.xtRole = 2 → s.time % 16384 = 0 → s.obs.frozen = false → s.inst.lockstep = false →
    s.inst.inReset = false →
    (s.mgr.xtRoleBad = false → s.mgr.xtVer ≠ some 0 →
      exec .xtExchange s = .next ((s.updMgr fun m => { m with xtT1 := some (16 * s.time) }).sendXt 0x1C (t64 s.time 41))) ∧
    (s.mgr.xtRoleBad = true → exec .xtExchange s = .next s)) ∧
  (∀ (f : Flit) (x : Fin 16) (s : State), s.xtTakes 0x1C f = true →
    let u := s.xtHear f
    (u.xtRole = 2 → exec (.xtReq f x) s = .next u.xtClash) ∧
    (u.xtRole ≠ 2 → u.mgr.xtRoleBad = false → exec (.xtReq f x) s = .next (({ u with fresh := u.fresh + 1 } : State).sendXt 0x1D
      (t64 u.time 41 + x.val * 2 ^ 37 + Config.xtTurn u.fresh % 2 ^ 20 * 2 ^ 17))) ∧
    (u.xtRole ≠ 2 → u.mgr.xtRoleBad = true → exec (.xtReq f x) s = .next u)) ∧
  (∀ (f : Flit) (x : Fin 16) (s : State), s.xtTakes 0x1D f = true →
    let u := (s.xtHear f).updMgr fun m => { m with xtRspAt := s.time }
    (u.xtRole = 1 → exec (.xtRsp f x) s = .next u.xtClash) ∧
    (∀ t1 : Nat, u.xtRole ≠ 1 → u.mgr.xtT1 = some t1 → exec (.xtRsp f x) s =
      .next ((u.updMgr fun m => { m with xtT1 := none }).xtOffset (
        let t2 : Int := 16 * fbits f 104 41 + fbits f 40 37
        half ((t2 - t1) - ((16 * u.time + x.val : Int) - (t2 + fbits f 36 17)))))) ∧
    (u.xtRole ≠ 1 → u.mgr.xtT1 = none → exec (.xtRsp f x) s = .next u)) ∧
  (∀ s : State, (s.mgr.xtRoleBad = false →
      s.xtClash = (s.updMgr fun m => { m with xtRoleBad := true }).raise cXtRole srcTx 0) ∧ (s.mgr.xtRoleBad = true → s.xtClash = s)) ∧
  (∀ (f : Flit) (s : State), (s.xtTakes 0x1E f = true → exec (.xtThr f) s = .next (((s.xtHear f).updMgr fun m => { m with
    xtLevel := fbits f 104 97, xtRound := fbits f 96 81, xtSince := roundOf s.time, xtDown := false }).endCause
      cXtLinkDown srcTx)) ∧
    (s.xtTakes 0x1E f = false → exec (.xtThr f) s = .next s)) ∧
  (∀ (clock : Bool) (s : State), s.inst.manager = true → s.xtRole ≠ 0 → s.inst.inReset = false →
    (s.mgr.xtDown = false → clock = true ∨ s.mgr.xtSince + 16 ≤ roundOf s.time → exec (.xtLinkDown clock) s =
      .next ((s.updMgr fun m => { m with xtDown := true, xtUp := false }).raise cXtLinkDown srcTx 0)) ∧
    (s.mgr.xtDown = true → exec (.xtLinkDown clock) s = .next s))

/-! ### Decisions and reports -/

/-- A die decision is taken for the time it names, extended to the nearest, or for the next frame start where that has passed, and
is applied, with every other that is due, when its time comes, a step of the time at a frame start apart, which applies them itself. A
reserved class of DD_ALLOC is dropped. -/
def Obligations.DieDecisionsActAtTheirTime : Prop :=
  (∀ (f : Flit) (r : Ring) (s : State), s.obs.frozen = false → s.takes 0x03 r f = true → exec (.ddMode ⟨f, r⟩) s =
    .next ((s.taken r f).takeDec (extendNear (s.taken r f).time (fbits f 104 73)) (.mode (modeOf (fbits f 72 71))))) ∧
  (∀ (f : Flit) (r : Ring) (s : State), s.obs.frozen = false → s.takes 0x04 r f = true →
    (fbits f 72 71 < 3 → exec (.ddAlloc ⟨f, r⟩) s = .next ((s.taken r f).takeDec (extendNear (s.taken r f).time (fbits f 104 73))
      (.alloc (fbits f 72 71) (fbits f 70 39)))) ∧
    (fbits f 72 71 = 3 → exec (.ddAlloc ⟨f, r⟩) s = .next (s.taken r f))) ∧
  (∀ (s : State) (eff : Nat) (k : DecKind), (s.time < eff → s.takeDec eff k = s.addDec eff k) ∧
    (eff ≤ s.time → s.takeDec eff k = (s.updTth fun t => { t with late := min 65535 (t.late + 1) }).addDec (nextFrame s.time) k)) ∧
  (∀ s : State, s.obs.frozen = false → s.inst.inReset = false → s.tth.stepPend = false ∨ s.time % 256 ≠ 0 →
    exec .dieDecisionApply s = .next (
    forL (s.decs.filter fun x => x.eff ≤ s.time) (fun x u => u.applyDec x.what) { s with decs := s.decs.filter fun x => s.time < x.eff })) ∧
  (∀ s : State, s.obs.frozen = true ∨ (s.tth.stepPend = true ∧ s.time % 256 = 0) → exec .dieDecisionApply s = .next s)

/-- The manager files each report of a worker under the worker and its round, field by field, and adds a job's energy to its entry; a
worker that receives one changes nothing by it. A worker without a TIME for 16 periods has lost the manager: it raises TTH_MGR_LOST
once, and 16 rounds later it enters GROUNDED with cause 6 at a round boundary. The manager that misses four reports of a worker
raises TTH_WORKER_LOST once. -/
def Obligations.ReportsAreFiledAndLossesRaised : Prop :=
  (∀ (f : Flit) (r : Ring) (s : State), s.obs.frozen = false →
    (s.takes 0x0D r f = true → (s.taken r f).inst.manager = true → fbits f 104 103 < 3 → exec (.rptClass ⟨f, r⟩) s = .next (
      (s.taken r f).reportPart (fSrc f) (fbits f 37 22) fun x =>
        x.takeClass (fbits f 104 103) (bit f.toNat 102) (fbits f 101 70) (fbits f 69 38))) ∧
    (s.takes 0x0E r f = true → (s.taken r f).inst.manager = true → fbits f 104 103 < 3 → exec (.rptDemand ⟨f, r⟩) s = .next (
      (s.taken r f).reportPart (fSrc f) (fbits f 38 23) fun x => x.takeDemand (fbits f 104 103) (fbits f 102 71) (fbits f 70 39))) ∧
    (s.takes 0x0F r f = true → (s.taken r f).inst.manager = true → exec (.rptField ⟨f, r⟩) s = .next (
      (s.taken r f).reportPart (fSrc f) (fbits f 37 22) fun x =>
        x.takeField (fbits f 104 73) (fbits f 72 41) (bit f.toNat 40) (fbits f 39 38))) ∧
    (s.takes 0x10 r f = true → (s.taken r f).inst.manager = true → exec (.jobNrg ⟨f, r⟩) s =
      .next ((s.taken r f).addJob (fbits f 104 89) (fbits f 88 33))) ∧
    (s.takes 0x0F r f = true → (s.taken r f).inst.manager = false → exec (.rptField ⟨f, r⟩) s = .next (s.taken r f))) ∧
  ((∀ s : State, s.inst.manager = false → s.tth.mgrLost = none → s.obs.frozen = false → (16 ≤ s.tth.noTime → exec .tthMgrLost s =
    .next ((s.updTth fun t => { t with mgrLost := some (roundOf s.time) }).raiseInst cTthMgrLost 0)) ∧
    (s.tth.noTime < 16 → exec .tthMgrLost s = .next s)) ∧
  (∀ (r : Nat) (s : State), s.tth.mgrLost = some r → s.time % 262144 = 0 →
    (r + 16 ≤ roundOf s.time → exec .mgrLostGrounded s = .next (s.groundBy 6)) ∧
    (roundOf s.time < r + 16 → exec .mgrLostGrounded s = .next s)) ∧
  (∀ (w : Fin 8) (s : State), s.inst.manager = true → s.mgr.roster.contains w.val = true →
    (4 ≤ (s.report w).missed → tget false s.mgr.lostF w.val = false → exec (.tthWorkerLost w) s =
      .next ((s.updMgr fun m => { m with lostF := tset false m.lostF w.val true }).raise cTthWorkerLost (mkSrc 0xC w) 0)) ∧
    ((s.report w).missed < 4 → exec (.tthWorkerLost w) s = .next s)))


/-! ### Freeze, snapshot and dump -/

/-- A worker takes a FREEZE at the time it names, or one tick on where that has passed, and a THAW after its freeze; the cut starts a
freeze with empty captures, and the thaw resumes at its time. A snapshot or a dump is taken once its time has come, a dump in no
freeze. -/
def Obligations.FreezesCutAndResume : Prop :=
  (∀ (f : Flit) (r : Ring) (s : State), s.obs.frozen = false → s.takes 0x06 r f = true →
    (let u := s.taken r f
    (u.inst.manager = false → u.obs.tf = none → exec (.freezeFlit ⟨f, r⟩) s = .next (u.updObs fun o => { o with
      tf := some (if fbits f 104 41 < u.time then u.time + 1 else fbits f 104 41), regTf := fbits f 104 41
      late := decide (fbits f 104 41 < u.time), capOvf := false, timeInv := false, ended := false })) ∧
    (u.inst.manager = true ∨ u.obs.tf.isSome = true → exec (.freezeFlit ⟨f, r⟩) s = .next u))) ∧
  (∀ (f : Flit) (r : Ring) (s : State), s.takes 0x07 r f = true →
    (let u := s.taken r f
    (u.inst.manager = false → u.obs.frozen = true ∨ u.obs.tf.isSome = true → exec (.thawFlit ⟨f, r⟩) s =
      .next (u.setThaw (fbits f 104 41))) ∧
    (u.inst.manager = true ∨ (u.obs.frozen = false ∧ u.obs.tf = none) → exec (.thawFlit ⟨f, r⟩) s = .next u))) ∧
  (∀ (tf : Nat) (s : State), s.obs.tf = some tf → s.obs.frozen = false → s.inst.inReset = false →
    (tf ≤ s.time → exec .freezeCut s = .next (forIdx 32 (fun c u => u.updCluster c fun y => { y with
      capReq := [], capRpt := [], capOver := 0 }) ((s.updObs fun o => { o with
        tf := none, frozen := true, timeInv := !s.tth.timeValid, capt := 0, cutTreps := [] }).updTth fun t => { t with
        capA := [], capB := [] }))) ∧
    (s.time < tf → exec .freezeCut s = .next s)) ∧
  (∀ (tt : Nat) (s : State), s.obs.tt = some tt → (s.obs.frozen = true → tt ≤ s.time → exec .thawResume s = .next (s.thawNow tt false)) ∧
    (s.time < tt → exec .thawResume s = .next s)) ∧
  (∀ (n : Nat) (s : State), s.obs.snapAt = some n → n ≤ s.time → exec .snapshotLatch s = .next (
    ({ s with fresh := s.fresh + 16 }.updObs fun o => { o with snapAt := none, snapMem := s.snapshot }).cmdDone 9 1)) ∧
  (∀ s : State, s.obs.dumpBusy = true → s.obs.frozen = false → (s.obs.dumpT / 16 ≤ s.time / 16 → exec .dumpCopy s =
    .next (s.copyDump false)) ∧ (s.time / 16 < s.obs.dumpT / 16 → exec .dumpCopy s = .next s))

/-- The manager takes a TRACE message as a part of a recorder record where its type says so, else into the trace memory, or counts
it as dropped where that is full; an assembly that stays incomplete for 65,536 ticks is dropped. A worker forwards its oldest
record, one part of 64 bits at a time and the CRC-32 of the record last. -/
def Obligations.RecordsAndTraceReachTheManager : Prop :=
  (∀ (f : Flit) (r : Ring) (s : State), s.obs.frozen = false → s.takes 0x1B r f = true →
    (let u := s.taken r f
    (u.inst.manager = false → exec (.trace ⟨f, r⟩) s = .next u) ∧
    (u.inst.manager = true →
      (bits (fbits f 104 16) 88 85 = 8 → exec (.trace ⟨f, r⟩) s = .next (u.takeRec (fSrc f) (fbits f 104 16))) ∧
      (bits (fbits f 104 16) 88 85 ≠ 8 → u.inst.lockstep = false → exec (.trace ⟨f, r⟩) s = .next (
        if (u.storeTrace (fbits f 104 16) (fSrc f)).2 then (u.storeTrace (fbits f 104 16) (fSrc f)).1
        else ((u.storeTrace (fbits f 104 16) (fSrc f)).1).dropTrace))))) ∧
  (∀ (w : Fin 8) (s : State), s.inst.manager = true → s.obs.frozen = false →
    exec (.recAssemblyTimeout w) s = .next (s.dropAsm w fun a => decide (a.first + 65536 ≤ s.time))) ∧
  (∀ (r : Rec) (s : State), s.mayForward = true → s.traceOk = true → s.nextForward = some r →
    exec .logForward s = .next ((s.updLog fun l => { l with buf := l.buf.map fun e =>
      if e.key == r.key then { e with part := r.part + 1, gone := r.part == 5 } else e }).sendTrace (recMsg r.rseq r.part (
        if r.part < 5 then r.body % 2 ^ 320 / 2 ^ (64 * r.part) else crc32 (leBytes 40 (r.body % 2 ^ 320)))))) ∧
  (∀ s : State, s.mayForward = false → exec .logForward s = .next s)

/-! ### Start-up -/

/-- The steps of start-up in their order, each once: the lock of the PLL selects REFCLK; the fuse values are taken, with the fields cut
to their widths; neither ring trained starts the instance from the factory table; discovery changes the log alone: whether a device
was found, how large it is, at most 64 MiB, the read mode and its lanes, and whether records can be erased; the enumeration sets the
lengths of the chains and loads each tile's time. -/
def Obligations.StartUpTakesItsSteps : Prop :=
  (∀ s : State, s.inst.strapped = true → s.inst.inReset = false → s.inst.pll = false →
    exec .pllLock s = .next (s.updInst fun n => { n with pll := true, pllRef := .refclk })) ∧
  (∀ (x : FuseRead) (s : State), s.inst.pll = true → s.inst.fuseDone = false → Answers (exec (.fuseRead x) s) fun t => t.fuses = {
      vt := x.vt.map (· % 4096), vsafe := x.vsafe.map (· % 4096), safeMitten := x.safeMitten.map (· % 64)
      safeCluster := x.safeCluster.map (· % 64), safeClass := x.safeClass.map (· % 8), keyHash := x.keyHash, sigReq := x.sigReq
      nvmClk := x.nvmClk, crc := x.crc }) ∧
  (∀ (x : FuseRead) (s : State), s.inst.pll = true → s.inst.fuseDone = false → s.inst.manager = false → (fusesOf x).crcOk = true →
    (∀ c : Nat, c < 32 → tkVerOk (nth (0, 0) x.tkVer c) = true) → exec (.fuseRead x) s = .next (
      (({ s with fuses := fusesOf x } : State).updInst fun n => { n with fuseDone := true, fuseBad := false }).updFlt
        (fun f => { f with held := false }) |>.sendEcho 5)) ∧
  (∀ s : State, s.inst.fuseDone = true → s.tth.trained = false → s.inst.factory = false →
    exec (.ringTraining false false) s = .next (s.updInst fun n => { n with trainedAt := s.time }).factoryStart) ∧
  (∀ (a b : Bool) (s : State), s.inst.fuseDone = true → s.tth.trained = false → s.inst.factory = false → a = true ∨ b = true →
    exec (.ringTraining a b) s = .next (
      if s.roleClash a then ((s.takeTraining a b).raiseInst cTthRole 0).factoryStart else s.takeTraining a b)) ∧
  (∀ (x : Sfdp) (s : State), s.inst.manager = true → s.inst.nvmEn = true → s.inst.fuseDone = true → s.inst.verdict = 0 →
    Answers (exec (.nvmDiscovery x) s) fun t => t = { s with log := t.log } ∧
      t.log.info.found = (x.answers && x.signature == 0x50444653 && x.major == 1 && x.bfpt) ∧ t.log.info.size ≤ 0x4000000 ∧
      t.log.info.lanes = (readMode x).2.2 ∧ t.log.info.mode = (readMode x).1 ∧
      t.log.noLog = !(x.erase4k && x.suspend) ∧ t.log.nvm = s.log.nvm) ∧
  (∀ (x : Enumerated) (s : State), s.inst.pll = true → s.inst.enumDone = true → exec (.spineEnumeration x) s = .next s) ∧
  (∀ (x : Enumerated) (s : State), s.inst.pll = true → s.inst.enumDone = false → exec (.spineEnumeration x) s = .next (
    let len (q : Nat) : Nat := min 24 (nth 0 x.len q)
    let there (t : Nat) : Bool := t % 24 < len (t / 24) && !x.silent.any fun u => u.val == t
    let u := forIdx 192 (fun t v => v.updView t fun w => { w with present := there t, lost := !there t, gone := !there t })
      (forIdx 8 (fun q v => v.updSpine fun p => { p with len := tset 0 p.len q (len q), hop := tset 0 p.hop q (nth 0 x.hop q) }) s)
    let v := forL ((List.range 192).filter there) (fun t w => w.updTile t fun y => { y with
      syncTime := w.time, timeHigh := w.time / 2 ^ 32 }) u
    let w := forL ((List.range 8).filter fun q => len q != 0) (fun q z => z.sendPars q) (v.updInst fun n => { n with enumDone := true })
    (forL w.doms_ refreshCeil w).lostAtStart))

/-! ### The image and the verdict -/

/-- The manager's verification ends in a GOOD verdict with its own share committed, the sections sent and an old tether
version held, or in a BAD one with the reason and the rule of the first failed check and what had left before it, raised as IMG_BAD with
both unless a bad fuse raised it, and the factory
start. No verdict within 250,000,000 ticks of training is NO_VERDICT and a factory start. -/
def Obligations.TheManagerVerifiesTheImage : Prop :=
  (∀ s : State, s.inst.manager = true → s.inst.fuseDone = true → s.tth.trained = true → s.inst.verdict = 0 → s.inst.factory = false →
    exec .imageVerify s = .next (match s.imageFail with
      | none =>
        let u := ((forL s.dir (fun e => sendSection e allParts) s).updInst fun n => { n with
          imgRc := 0, imgRule := 0, readTo := s.imgLen, verdictAt := s.time }).sendVerdict true 0
        let v := u.updMgr fun m => { m with lastSect := m.roster.foldl (fun l f => tset 0 l f u.time) m.lastSect }
        let part (c : Nat) : Nat := match v.dir.find? fun e => e.code == c with | some e => (v.partOf e v.inst.fieldId).2 | none => 0
        let w := v.commit (v.shareOf v.inst.fieldId true) (part 3) (part 4)
        let z := forL (w.receivers.filter fun f => tget 0 w.mgr.vers f < w.tetherMin) (fun f y => y.sendHold f 3) w
        forL ((List.range 8).filter fun f => z.imageUses f && !z.mgr.roster.contains f) (fun f y =>
          y.raise cTthRoster (mkSrc 0xC f) 0) z
      | some x =>
        let u := (forL x.sent (fun e => sendSection e.1 e.2) s).updInst fun n => { n with
          imgRc := x.rc, imgRule := x.rule, readTo := x.readTo, verdictAt := s.time }
        let v := if u.inst.fuseBad then u else u.raiseInst cImgBad (imgBadData x.rc x.sec x.rule)
        (((v.sendVerdict false x.rc).updInst fun n => { n with verdict := 2, fmtVer := if 6 ≤ x.rc then 1 else 0 }).updMgr fun m => { m with
          acqAt := some ((v.sendVerdict false x.rc).time) }).factoryStart) ∧
    (∀ x : ImgFail, s.imageFail = some x → x.rc ≠ 0)) ∧
  (∀ s : State, s.inst.manager = false → exec .imageVerify s = .next s) ∧
  (∀ s : State, s.tth.trained = true → s.inst.verdict = 0 → s.inst.factory = false →
    (s.inst.trainedAt + 250000000 ≤ s.time → exec .noVerdict s = .next (s.raiseInst cNoVerdict 0).factoryStart) ∧
    (s.time < s.inst.trainedAt + 250000000 → exec .noVerdict s = .next s))

/-- A worker that nothing holds stores each SECT flit of codes 0 to 12 at its offset until the verdict. A GOOD verdict commits what it
stored, after the digests where they have not left yet; a BAD one discards it and starts from the factory table. A RUN sets T_on and
T_ready, or is a late decision where T_on has passed. The manager judges a worker by its HASH flits once its last content has left, and
holds one that sends none in 16,384 ticks from then. -/
def Obligations.WorkersTakeTheImageAndTheVerdict : Prop :=
  (∀ (f : Flit) (r : Ring) (s : State), fbits f 104 101 ≤ 12 → s.obs.frozen = false → s.takes 0x19 r f = true →
    (let u := s.taken r f
    (u.inst.manager = false → u.inst.verdict = 0 → u.inst.factory = false → tget 0 u.mgr.held u.inst.fieldId = 0 →
      exec (.sect ⟨f, r⟩) s = .next (
        let sec := fbits f 104 101
        let off := fbits f 100 80
        { u with pend := writeLE 0 u.pend (secKey sec (8 * off)) 8 (fbits f 79 16) }.updInst fun x => { x with
          sectAt := u.time, hashSent := false
          sectIn := if x.sectIn.any (·.1 == sec) then
              x.sectIn.map fun (e : Nat × Nat) => if e.1 = sec then (sec, max e.2 (8 * off + 8)) else e
            else x.sectIn ++ [(sec, 8 * off + 8)] })) ∧
    (u.inst.manager = true ∨ u.inst.verdict ≠ 0 ∨ u.inst.factory = true ∨ tget 0 u.mgr.held u.inst.fieldId ≠ 0 →
      exec (.sect ⟨f, r⟩) s = .next u))) ∧
  (∀ (f : Flit) (r : Ring) (s : State), fbits f 104 101 = 13 ∨ fbits f 104 101 = 14 → exec (.sect ⟨f, r⟩) s = .next s) ∧
  (∀ (f : Flit) (r : Ring) (s : State), fbits f 104 80 = 0xF * 2 ^ 21 → s.obs.frozen = false → s.takes 0x19 r f = true →
    (s.taken r f).inst.manager = false → (s.taken r f).inst.factory = false → (s.taken r f).inst.verdict = 0 →
    let u := (s.taken r f).updInst fun n => { n with verdictAt := (s.taken r f).time }
    (fbits f 79 72 = 1 → tget 0 u.mgr.held (s.taken r f).inst.fieldId = 0 → exec (.verdict ⟨f, r⟩) s =
      .next ((if u.inst.hashSent then u else u.sendHash).commit u.pend (u.storedLen 3) (u.storedLen 4))) ∧
    (fbits f 79 72 ≠ 1 → exec (.verdict ⟨f, r⟩) s =
      .next (u.updInst fun n => { n with verdict := 2, imgRc := fbits f 71 64 }).factoryStart)) ∧
  (∀ (f : Flit) (r : Ring) (s : State), fbits f 104 80 = 0xF * 2 ^ 21 + 1 → s.obs.frozen = false → s.takes 0x19 r f = true →
    (s.taken r f).inst.manager = false → (s.taken r f).inst.tOn = none → (s.taken r f).inst.verdict = 1 → exec (.run ⟨f, r⟩) s = .next (
      let u := s.taken r f
      let on := extendNear u.time (fbits f 79 48)
      let rdy := on + (fbits f 47 16 + 2 ^ 32 - on % 2 ^ 32) % 2 ^ 32
      if u.time < on then u.takeRun on rdy else u.takeDec on (.run on rdy))) ∧
  (∀ (f : Flit) (r : Ring) (s : State), s.obs.frozen = false → s.takes 0x0C r f = true → (s.taken r f).inst.manager = true →
    (s.taken r f).inst.verdict ≠ 2 → tget false (s.taken r f).mgr.agreed (fSrc f) = false → tget 0 (s.taken r f).mgr.held (fSrc f) = 0 →
    exec (.hash ⟨f, r⟩) s = .next (
      let u := (s.taken r f).updMgr fun m => { m with
        hash := tset none m.hash (4 * fSrc f + fbits f 104 103) (some (BitVec.ofNat 64 (fbits f 102 39))) }
      if u.sectLeft (fSrc f) then u else u.judgeHash (fSrc f))) ∧
  (∀ (w : Fin 8) (s : State), s.inst.manager = true → s.inst.verdict = 1 → s.receivers.contains w.val = true →
    tget false s.mgr.agreed w.val = false →
    (s.sectLeft w = false → tget 0 s.mgr.lastSect w.val + 16384 ≤ s.time → exec (.hashTimeout w) s = .next (s.sendHold w 4)) ∧
    (s.sectLeft w = true ∨ s.time < tget 0 s.mgr.lastSect w.val + 16384 → exec (.hashTimeout w) s = .next s))

/-! ### Bring-up -/

/-- A domain that is not READY at the end of its window raises BRING_WINDOW, an ERROR, and ends its bring-up with status WINDOW; its off
sequence is due at the next frame start. -/
def Obligations.AMissedWindowEndsTheBringUp : Prop :=
  (∀ (d : Fin 32) (t : Nat) (s : State), (s.dom d).bring.winEnd = some t → t ≤ s.time → (s.dom d).inBring = true →
    exec (.bringWindow d) s = .next ((s.raise cBringWindow (mkSrc 5 d) 0).endBring d .window)) ∧
  (∀ (d : Nat) (s : State), s.endBring d .window = s.updDom d fun x => ({ x with bring := { x.bring with
      status := .window, keepStatus := true, startAt := none, winEnd := none, offAt := some (nextFrame s.time)
      step := if x.bring.step = BringStep.waiting then .idle else x.bring.step } }).endRetry s.time) ∧
  faultSev cBringWindow = 2 ∧
  (∀ (d : Fin 32) (t : Nat) (s : State), (s.dom d).bring.winEnd = some t → s.time < t → exec (.bringWindow d) s = .next s) ∧
  (∀ (d : Fin 32) (t : Nat) (s : State), (s.dom d).bring.offAt = some t → t ≤ s.time → (s.dom d).bring.offAllAt = none →
    exec (.offSequenceStart d) s = .next (
      let u := s.updBring d fun b => { b with offAt := if b.offAt.any (· ≤ s.time) then none else b.offAt,
                                              offAllAt := if b.offAllAt.any (· ≤ s.time) then none else b.offAllAt }
      if u.lim.pwrFail then u else (u.abortBring d).startOff d false))

/-- A waiting domain starts one sample before its tick. Its bridle starts at a frame boundary with no stage on; each stage is turned on
within its hold where it fits the budget, and its interval later the next; a stage that is held too long raises BRIDLE_HOLD and backs
out, to be tried again after the gap, or raises BRIDLE_FAIL and ends the bring-up where no try is left. -/
def Obligations.BringUpsStageTheirBridle : Prop :=
  (∀ (d : Fin 32) (t : Nat) (s : State), (s.dom d).bring.startAt = some t → (s.dom d).bring.step = .waiting →
    (t ≤ s.time + 16 → exec (.bringUpStart d) s = .next (s.startBring d)) ∧
    (s.time + 16 < t → exec (.bringUpStart d) s = .next s)) ∧
  (∀ (d : Fin 32) (s : State), (s.dom d).bring.step = .bridleWait → s.time % 256 = 0 → exec (.bridleStart d) s =
    .next (s.updBring d fun b => { b with step := .bridle, stages := [], nextStage := 0, due := s.time + s.bInterval d 0 })) ∧
  (∀ (d : Fin 32) (s : State), (s.dom d).bring.step = .bridle → (s.dom d).bring.nextStage < s.bStages d → s.time % 16 = 0 →
    ((s.dom d).bring.winEnd.all fun t => s.time < t) = true →
    ((s.dom d).bring.due ≤ s.time → s.time < (s.dom d).bring.due + s.bHold d → s.stageFits d (s.dom d).bring.nextStage = true →
      exec (.bridleStage d) s = .next (s.updBring d fun b => { b with
        stages := (s.dom d).bring.nextStage :: b.stages, nextStage := (s.dom d).bring.nextStage + 1
        due := if (s.dom d).bring.nextStage + 1 < s.bStages d then s.time + s.bInterval d ((s.dom d).bring.nextStage + 1)
          else s.time })) ∧
    (s.stageFits d (s.dom d).bring.nextStage = false → exec (.bridleStage d) s = .next s)) ∧
  (∀ (d : Fin 32) (s : State), (s.dom d).bring.step = .bridle → (s.dom d).bring.nextStage < s.bStages d →
    (s.dom d).bring.due + s.bHold d ≤ s.time → exec (.bridleHold d) s = .next (
      let u := s.raise cBridleHold (mkSrc 5 d) 0
      if (s.dom d).bring.tries < u.bRetries d then u.backOut d else (u.raise cBridleFail (mkSrc 5 d) 0).endBring d .bridleFail)) ∧
  (∀ (d : Fin 32) (s : State), (s.dom d).bring.step = .gap → s.time % 256 = 0 →
    (s.dom d).bring.gapFrom + s.bGap d ≤ frameOf s.time → exec (.bridleRetry d) s =
      .next ((s.bridleFrom0 d).updBring d fun b => { b with tries := b.tries + 1 })) ∧
  (∀ (t : Nat) (s : State), s.inst.tReady = some t → s.inst.ready = false → s.obs.frozen = false →
    (s.time < t → exec .ready s = .next s) ∧
    (t ≤ s.time → exec .ready s = .next (
      let m := s.polMode
      let u := s.updInst fun n => { n with ready := true, mode := m, modePrev := .balanced, modeSince := s.time }
      let v := forL u.doms_ (fun d w => w.updDom d fun x => { x with pCap := w.pTop d, pTh := w.pTop d }) u
      let fill (c : Nat) : Nat := if c = capNone then 0 else c
      (v.updMgr fun n => { n with modeRec := m, powers := [], fill1 := fill n.capW1, fill2 := fill n.capW2 }).updLim fun l => { l with
        framesEver := 0 })))

/-! ### Escalation -/

/-- An occurrence whose timer has run out takes its next rung at a frame start: the rung is noted, ESC_RUNG is raised at the fault's own
severity with the class and the rung, and rung 3 enters GROUNDED. An acknowledged one takes none. A domain whose gap is over tries
again, unless a die-off rung still stands or no retry is left. FLT_ACK acknowledges what it names. GROUNDED by escalation is left at
a frame start once no occurrence holds it. A lockstep mismatch is latched, raised with GROUNDED cause 2, stops the command, the
flush, the dump, the trace and the snapshot in progress and ends every bring-up, once. A holdover of the PLL and its end are raised once each. -/
def Obligations.EscalationClimbsAndLockstepLatches : Prop :=
  ((∀ (i : Fin 4096) (o : Occ) (s : State), s.flt.occs[i.val]? = some o → s.time % 256 = 0 → s.inst.unitAt = s.time →
    s.obs.frozen = false →
    (o.ack = false → o.rungIdx < (faultEsc o.cls).2.length → o.start + o.timer ≤ frameOf s.time → exec (.escRung i) s = .next (
      let r := nth 0 (faultEsc o.cls).2 o.rungIdx
      let u := (s.updFlt fun f => { f with
        occs := setNth f.occs i { o with rungIdx := o.rungIdx + 1, rung := r, start := frameOf s.time }
        rungs := f.rungs ++ [(r, o.cls, o.src)] }).raiseSev cEscRung o.sev o.src (o.cls + 256 * r)
      if r = 3 then u.groundBy 1 else u)) ∧
    (o.ack = true → exec (.escRung i) s = .next s)) ∧
  (∀ (d : Fin 32) (f : Nat) (s : State), (s.dom d).retry.gapFrom = some f → s.inst.lockstep = false → s.obs.frozen = false →
    f + s.flt.gap ≤ frameOf s.time → (s.dom d).retry.used < s.flt.retries →
    (s.flt.occs.any (Occ.rungOff d) = true →
      exec (.retryGap d) s = .next (s.updDom d fun x => x.useRetry (some (frameOf s.time)) false)) ∧
    (s.flt.occs.any (Occ.rungOff d) = false →
      exec (.retryGap d) s = .next ((clearTiles d s).updDom d fun x => x.useRetry none true))) ∧
  (∀ (w : Word) (s : State), s.hostUp = true → exec (.fltAck w true) s = .next (s.updFlt fun f => { f with
    occs := f.occs.map fun o => if ackMatch w.toNat o then { o with ack := true } else o }).okay) ∧
  (∀ s : State, bit s.inst.gndMask 1 = true → s.time % 256 = 0 → s.inst.unitAt = s.time → s.obs.frozen = false →
    s.flt.gndEnd = none →
    ((s.flt.occs.any fun o => o.took 3) = false → exec .groundedExit s = .next (
      if (s.leaveGround 2).grounded then s.leaveGround 2 else (s.leaveGround 2).raiseInst cGroundedExit 0)) ∧
    ((s.flt.occs.any fun o => o.took 3) = true → exec .groundedExit s = .next s))) ∧
  ((∀ s : State, s.inst.fuseDone = true → s.inst.lockstep = false → exec .lockstep s = .next (
    let u := ((s.updInst fun n => { n with lockstep := true }).raiseInst cLockstep 0).dropRunning
    let v := (u.raiseInst cGroundedEntry 2).enterGround 4
    forL v.doms_ lockstepDom v)) ∧
  (∀ s : State, s.inst.lockstep = true → exec .lockstep s = .next s) ∧
  (∀ s : State, s.inst.pll = true → s.inst.holdover = false →
    exec .pllHoldover s = .next ((s.updInst fun n => { n with holdover := true }).raiseInst cPllHoldover 0) ∧
    exec .pllRelock s = .next s) ∧
  (∀ s : State, s.inst.holdover = true → exec .pllHoldover s = .next s ∧
    exec .pllRelock s = .next ((s.updInst fun n => { n with holdover := false }).raiseInst cPllRelock 0)))


/-! ### Housekeeping and the board -/

/-- A scan of the housekeeping ADC starts at its period on a committed instance and samples its entries in order. A reversed sensor
raises HK_THERM_REV once; an entry out of range raises HK_RANGE once, with its value and kind. -/
def Obligations.TheHousekeepingAdcScans : Prop :=
  (∀ (uv : List Int) (s : State), s.inst.committed = true → s.adcEnts ≠ 0 → s.inst.lockstep = false → s.inst.inReset = false →
    s.time % s.adcPer = 0 → s.hk.scanAt ≠ s.time + 1 → exec (.adcScan uv) s = .next (
      let u := s.updHk fun h => match h.lpNext with
        | some (m, t) => if t < s.time then { h with lp := m, lpNext := none } else h
        | none => h
      forIdx u.adcEnts (adcSample uv) (u.updHk fun h => { h with scanAt := s.time + 1, on := true }))) ∧
  (∀ (uv : List Int) (s : State), s.time % s.adcPer ≠ 0 → exec (.adcScan uv) s = .next s) ∧
  (∀ (i : Fin 16) (s : State), i.val < s.adcEnts → s.adcKind i = 3 → 4 ≤ (s.adc i).revCnt → (s.adc i).rev = false →
    s.adcReady i = true → exec (.hkThermRev i) s =
      .next ((s.updAdc i fun e => { e with rev := true, valid := false }).raise cHkThermRev (mkSrc 9 i) 0)) ∧
  (∀ (i : Fin 16) (s : State), i.val < s.adcEnts → (s.adc i).range = false →
    (s.adcKind i = 3 → (s.adc i).thOut = true → exec (.hkRange i) s =
      .next ((s.updAdc i fun e => { e with range := true }).raise cHkRange (mkSrc 9 i)
        (uext 16 ((s.adc i).roundVal.getD 0) + 0x20000))) ∧
    (s.adcKind i ≠ 3 → 4 ≤ (s.adc i).outCnt → exec (.hkRange i) s =
      .next ((s.updAdc i fun e => { e with range := true }).raise cHkRange (mkSrc 9 i)
        (uext 16 ((s.adc i).roundVal.getD 0) + 0x10000)))) ∧
  (∀ (i : Fin 16) (s : State), (s.adc i).range = true → exec (.hkRange i) s = .next s)

/-- The PMBus devices are discovered once; a poll comes at its boundary, or as soon as the bus is free, and takes each answer or notes a
first failure; a retry takes the answer or a second failure; an alert reads the devices at the address, or is raised where none is
listed. Nothing of it runs in a freeze, but a poll that falls in one is due after it. -/
def Obligations.TheBoardConvertersArePolled : Prop :=
  (∀ (x : List PmbAnswer) (s : State), s.pmbOn = true → s.obs.frozen = false →
    (s.pmb.found = false → exec (.pmbDiscovery x) s = .next (
      let u := s.updPmb fun p => { p with found := true }
      forL x (fun a v => forIdx v.pmbCount (pmbDiscovered a) v) u)) ∧
    (s.pmb.found = true → exec (.pmbDiscovery x) s = .next s)) ∧
  (∀ (x : List PmbPolled) (s : State), s.pmbOn = true → s.pmb.found = true → s.time % 262144 = 0 → roundOf s.time % s.pmbPer = 0 →
    (s.obs.frozen = true → exec (.pmbPoll x) s = .next (s.updPmb fun p => { p with due := true })) ∧
    (s.obs.frozen = false → s.pmbBusy = true → exec (.pmbPoll x) s =
      .next (s.updPmb fun p => { p with due := true, late := min 65535 (p.late + 1) })) ∧
    (s.obs.frozen = false → s.pmbBusy = false → exec (.pmbPoll x) s = .next (
      let u := s.updPmb fun p => { p with due := false }
      forIdx u.pmbCount (fun i v =>
        if (v.pdev i).clash then v
        else match x.find? fun p => p.index.val == i with
          | some p => if p.fail.isNone then v.pmbTake i p else v.pmbFirstFail i
          | none => v.pmbFirstFail i) u))) ∧
  (∀ (n : Fin 16) (x : PmbPolled) (t : Nat) (s : State), s.pmbOn = true → s.obs.frozen = false → (s.pdev n).retryAt = some t →
    (t ≤ s.time → (x.fail = none → exec (.pmbRetry n x) s = .next (s.pmbTake n x)) ∧
      (∀ r, x.fail = some r → exec (.pmbRetry n x) s = .next (s.pmbSecondFail n r.val))) ∧
    (s.time < t → exec (.pmbRetry n x) s = .next s)) ∧
  (∀ (x : PmbAlert) (s : State), s.pmbOn = true → s.pmb.found = true → s.obs.frozen = false →
    let here := (List.range s.pmbCount).filter fun i => s.pmbAdr i == x.addr.toNat && !(s.pdev i).clash
    (here = [] → exec (.pmbAlertN x) s = .next (s.raiseInst cPmbAlert x.addr.toNat)) ∧
    (here ≠ [] → exec (.pmbAlertN x) s = .next (forL here (fun i u => match x.status.find? fun e => e.1.val == i with
      | some (_, st, t) => u.pmbStatus i st.toNat t.toNat
      | none => u) s)))

/-! ### The flash -/

/-- A flush starts on its trigger where the flash may be written; the end of a program stores its records, raises the failure or
spoils its slots in a power-fail flush; the end of an erase clears the sector to ones, or leaves it open and tries once more; the
power-fail flush starts with an erase in progress suspended; a program longer than its bound has failed; the scan is made once. -/
def Obligations.TheFlashTakesTheRecords : Prop :=
  (∀ s : State, s.log.flushTrig = true → s.log.flushing = false → s.mayWrite = true → s.obs.frozen = false → s.inst.lockstep = false →
    exec .logFlushStart s = .next (s.updLog fun l => { l with flushing := true, flushTrig := false, failHalt := false }).flashNext) ∧
  (∀ s : State, s.log.prog ≠ [] → s.log.pfMode = false →
    exec (.pageProgramDone true) s = .next ((s.programmed.endCause cLogWriteFail s.srcInst).noteFlushed.flashNext.stageAfter) ∧
    exec (.pageProgramDone false) s = .next s.programFailed.stageAfter ∧
    (s.log.progFrom + s.log.info.tPage / 2 ≤ s.time → exec .flashBusyTimeout s = .next s.programFailed.stageAfter) ∧
    (s.time < s.log.progFrom + s.log.info.tPage / 2 → exec .flashBusyTimeout s = .next s)) ∧
  (∀ s : State, s.log.prog ≠ [] → s.log.pfMode = true →
    exec (.pageProgramDone true) s = .next s.programmed.noteFlushed.flashNext.stageAfter ∧
    exec (.pageProgramDone false) s = .next (({ s.programmed with fresh := s.spoilSlots.fresh }.updLog fun l => { l with
      nvm := s.spoilSlots.log.nvm }).noteFlushed.flashNext.stageAfter)) ∧
  (∀ s : State, s.log.prog = [] → exec (.pageProgramDone true) s = .next s ∧ exec (.pageProgramDone false) s = .next s) ∧
  (∀ (v : Nat) (s : State), s.log.erase = some v → s.log.eraseSusp = false →
    exec (.sectorEraseDone true) s = .next ((s.updLog fun l => { l with
      nvm := writeBytes 0xFF s.log.nvm (s.slotAddr (64 * v)) (List.replicate 4096 0xFF), erase := none, reclaim := none
      retryE := false }).dropBelow.noteFlushed.flashNext.stageAfter) ∧
    exec (.sectorEraseDone false) s =
      .next (if (s.halfErase v).log.retryE then (s.halfErase v).flashFail else (s.halfErase v).updLog fun l => { l with retryE := true })) ∧
  (∀ s : State, s.log.pfTrig.isSome = true → s.log.pfMode = false → s.mayWrite = true → exec .pfFlush s = .next (s.updLog fun l =>
    { l with pfMode := true, pfDone := false, flushing := true, eraseSusp := l.erase.isSome }).flashNext) ∧
  (∀ s : State, s.log.scanned = true → exec .logScan s = .next s) ∧
  (∀ s : State, s.inst.manager = true → s.log.scanned = false → s.log.info.found = true → s.headerRc = 0 →
    Answers (exec .logScan s) fun t => t.log.scanned = true ∧ t.log.usable = true ∧ t.log.nvm = s.log.nvm)

/-! ### The host's commands -/

/-- A write of CMD from the host: without the privilege that its code asks for it answers PRIV; while a command runs it is answered and
ignored, ABORT apart; otherwise it is accepted, answered OKAY, and starts at once, or waits for the thaw in a freeze that it does
not run in, or is REFUSED where the instance's state or role bars it. Each command's row is that with its own code and effect. ABORT
is accepted whatever command runs, and acts on what its kind names: the running command (kind 0 and the reserved ones), a domain's
ramp, a bridle, an AUTOTUNE, a log flush, a dump, the trace, a snapshot. In a freeze its effect waits for the thaw. -/
def Obligations.CommandsAreAcceptedOneAtATime : Prop :=
  ((∀ (code : Nat) (np mo priv cool : Bool) (body : State → State) (s : State), s.hostUp = true →
    (np = true → priv = false → s.runCmd code np mo priv cool body = .next (s.privFail cmdAddr true)) ∧
    (np = false ∨ priv = true →
      (s.host.cmd.isSome = true → code ≠ 1 → s.runCmd code np mo priv cool body =
        .next (s.updHost fun h => { h with ignored := true }).okay) ∧
      (s.host.cmd = none ∨ code = 1 →
        (s.cmdGate code mo = true → s.runCmd code np mo priv cool body = .next ((s.acceptCmd code cool).okay.startBody code body)) ∧
        (s.cmdGate code mo = false → s.runCmd code np mo priv cool body = .next ((s.acceptCmd code cool).okay.cmdEnd 2))))) ∧
  (∀ (p : Bool) (s : State), exec (.nop p) s = s.runCmd 0 false false p false fun t => t.cmdAt (t.time + 1) 1) ∧
  (∀ s : State, s.hostUp = true → s.host.cmd = none → s.inst.ready = true → s.inst.lockstep = false →
    exec (.nop false) s = .next ((s.acceptCmd 0 false).okay.cmdAt (s.time + 1) 1) ∧
    exec (.domainOn true) s = .next ((s.acceptCmd 2 false).okay.startBody 2 State.bodyOn) ∧
    (bit s.host.arg.toNat 8 = false → exec (.domainOff true) s = .next ((s.acceptCmd 3 false).okay.startBody 3 State.bodyOff)) ∧
    exec (.autotune true) s = .next ((s.acceptCmd 5 false).okay.startBody 5 State.bodyTune) ∧
    exec (.dump true) s = .next ((s.acceptCmd 8 false).okay.startBody 8 State.bodyDump) ∧
    exec (.snapshot true) s = .next ((s.acceptCmd 9 false).okay.startBody 9 State.bodySnap) ∧
    (∀ cool : Bool, exec (.clearFault cool true) s = .next ((s.acceptCmd 0xB cool).okay.startBody 0xB State.decideClear)) ∧
    (∀ code : BitVec 8, 13 ≤ code.toNat → exec (.cmdReservedCode code false) s =
      .next ((s.acceptCmd code.toNat false).okay.startBody code.toNat fun t => t.cmdEnd 2))) ∧
  (∀ s : State, s.hostUp = true → s.host.cmd = none → s.inst.ready = true → s.inst.lockstep = false → s.inst.manager = true →
    (bit s.host.arg.toNat 8 = true → exec (.domainOffAll true) s = .next ((s.acceptCmd 3 false).okay.startBody 3 State.bodyOff)) ∧
    exec (.setMode true) s = .next ((s.acceptCmd 4 false).okay.startBody 4 State.bodyMode) ∧
    exec (.freeze true) s = .next ((s.acceptCmd 6 false).okay.startBody 6 State.bodyFreeze) ∧
    exec (.thaw true) s = .next ((s.acceptCmd 7 false).okay.startBody 7 State.bodyThaw) ∧
    exec (.flushLog true) s = .next ((s.acceptCmd 0xA false).okay.startBody 0xA State.bodyFlush) ∧
    exec (.setCap true) s = .next ((s.acceptCmd 0xC false).okay.startBody 0xC State.bodyCap)) ∧
  (∀ s : State, s.inst.manager = false → s.hostUp = true → s.host.cmd = none →
    exec (.setMode true) s = .next ((s.acceptCmd 4 false).okay.cmdEnd 2))) ∧
  ((∀ (mine : Nat → Bool) (s : State), s.hostUp = true →
    mine (s.host.arg.toNat % 16) = true → s.runAbort mine false = .next (
      let u := (s.acceptCmd 1 false).okay
      if s.obs.frozen then u.updObs fun o => { o with abortHeld := some (u.cmdArg, s.host.cmd) } else u.abortNow u.cmdArg s.host.cmd)) ∧
  (∀ (p : Bool) (s : State),
    exec (.abortBusyCommand p) s = s.runAbort (fun k => k == 0 || 8 ≤ k) p ∧ exec (.abortDomainRamp p) s = s.runAbort (· == 1) p ∧
    exec (.abortBridle p) s = s.runAbort (· == 2) p ∧ exec (.abortAutotune p) s = s.runAbort (· == 3) p ∧
    exec (.abortLogFlush p) s = s.runAbort (· == 4) p ∧ exec (.abortDump p) s = s.runAbort (· == 5) p ∧
    exec (.abortTrace p) s = s.runAbort (· == 6) p ∧ exec (.abortSnapshot p) s = s.runAbort (· == 7) p) ∧
  (∀ (mine : Nat → Bool) (p : Bool) (s : State), mine (s.host.arg.toNat % 16) = false → s.runAbort mine p = .next s))

/-! ### The registers -/

/-- A register write of the host that nothing bars has its effect and is answered OKAY; the registers that a freeze holds take it into
the list of held writes then. Each such register has a row of its own. -/
def Obligations.RegisterWritesTakeEffect : Prop :=
  ∀ (w : Word) (s : State), s.hostUp = true → s.inst.lockstep = false → s.beforeVerdict = false →
    (s.obs.frozen = false →
      (∀ d : Fin 32, (vreqBad w.toNat = false → exec (.domVreq d w true) s = .next (putVreq d w.toNat s).okay) ∧
        exec (.domUcal d w true) s = .next (putUcal d w.toNat s).okay ∧
        (ulimBad w.toNat = false → exec (.domLawB d w true) s = .next (putLawB d w.toNat s).okay) ∧
        (pgBad w.toNat = false → exec (.domPg d w true) s = .next (putPg d w.toNat s).okay)) ∧
      (∀ t : Fin 192, (bit w.toNat 0 = true → exec (.tileCtlRetire t w true) s = .next (putTileCtl t w.toNat s).okay) ∧
        (bits w.toNat 7 4 ≠ 0 → exec (.tileCtlRphase t w true) s = .next (putTileCtl t w.toNat s).okay)) ∧
      (∀ k : Fin 24, parIndex k = true → s.host.lock = false → parBad k w.toNat = false →
        exec (.tilePar k w true) s = .next (putPar k w.toNat s).okay) ∧
      (1024 ≤ w.toNat % 2 ^ 24 → exec (.tktQmax w true) s = .next (putQmax w.toNat s).okay) ∧
      (192 ≤ w.toNat % 8192 → w.toNat % 8192 ≤ 4096 → exec (.tktSgLead w true) s = .next (putSgLead w.toNat s).okay) ∧
      (∀ (g : Fin 64) (i : Fin 8), exec (.tktSgMask g i w true) s = .next (putSgMask g i w.toNat s).okay) ∧
      (bit w.toNat 31 = true → s.host.lock = false → s.budBad (s.budgets w.toNat) = false →
        exec (.engBudCommit w true) s = .next (putBud w.toNat s).okay) ∧
      exec (.tblPage w) s = .next (putPage w.toNat s).okay ∧
      (bit w.toNat 0 = true → s.commitBad = false → exec (.tblCommit w true) s = .next (putCommit s).okay) ∧
      exec (.nrgJobRel w true) s = .next (putJobRel w.toNat s).okay) ∧
    (s.obs.frozen = true → ∀ d : Fin 32,
      exec (.domUcal d w true) s = .next (s.holdWrite (domAddr d 0x1C) w.toNat).okay) ∧
    (s.adcFitsIn (bit w.toNat 0) = true → exec (.hkCtl w true) s = .next (putHk w.toNat s).okay) ∧
    (w.toNat % 8 ≠ 7 → exec (.tlmCtl w true) s = .next (putTlm w.toNat s).okay) ∧
    exec (.ctlLock w true) s = .next (s.updHost fun h => { h with lock := h.lock || bit w.toNat 0 }).okay ∧
    exec (.obsCntClr w true) s = .next (s.updObs fun o => { o with clrMask := o.clrMask ||| w.toNat % 256 }).okay ∧
    (bit w.toNat 1 = false ∨ (2 ≤ s.tth.version ∧ s.lineMode = false) → exec (.obsTrcCtl w true) s = .next (
      let u := s.updObs fun o => { o with
        trcEn := bit w.toNat 0, trcDest := bit w.toNat 1, trcWrap := bit w.toNat 2, trcEng := bit w.toNat 3, trcBr := bit w.toNat 4 }
      (if u.traceRuns && !s.obs.trcEn then u.traceSync else u).okay)) ∧
    exec (.obsTrcMark w true) s =
      .next ((s.traceMsg (5 * 2 ^ 85 + w.toNat * 2 ^ 53 + s.time % 2 ^ 32 * 2 ^ 21)).okay) ∧
    exec (.logCur false w false) s =
      .next ((s.updLog fun l => { l with cur := if l.src then w.toNat % 65536 else w.toNat }).stage.okay) ∧
    (bit w.toNat 0 = false ∨ s.inst.manager = true → exec (.logCur true w true) s =
      .next ((s.updLog fun l => { l with src := bit w.toNat 0 }).stage.okay))

/-- What bars a register write: an instance that is not up takes none; no privilege answers PRIV and raises HOST_PRIV with the address;
a lockstep instance and, for the registers the image sets, one before its verdict answer REFUSED, as does a value out of range, and
nothing is written. A plain register takes a write as its row has it; an address that nothing maps answers DECERR and changes
nothing else, for a write and for a read; a read without the privilege its register asks for answers PRIV; other reads answer the
register's word. -/
def Obligations.HostAccessesAreBarredOrAnswered : Prop :=
  (∀ (a w : Nat) (early frz bad : Bool) (note put : State → State) (s : State),
    (s.hostUp = false → s.hostPut a w true early frz bad note put = .next s) ∧
    (s.hostUp = true →
      s.hostPut a w false early frz bad note put = .next (s.privFail a true) ∧
      (s.inst.lockstep = true → s.hostPut a w true early frz bad note put = .next s.refuse) ∧
      (s.inst.lockstep = false → early = true → s.beforeVerdict = true → s.hostPut a w true early frz bad note put = .next s.refuse) ∧
      (s.inst.lockstep = false → early = false ∨ s.beforeVerdict = false → bad = true →
        s.hostPut a w true early frz bad note put = .next (note s).refuse)) ∧
    s.refuse = { s with host := { s.host with rspSt := .refused, rspData := 0#32, rspCnt := s.host.rspCnt + 1 } } ∧
    s.privFail a true = (s.rsp .priv 0).raiseInst cHostPriv (a % 2 ^ 20 / 4 * 4 + 2 ^ 31)) ∧
  (∀ (addr : BitVec 20) (w : Word) (p : Bool) (s : State), s.hostUp = true →
    (regMapped (addr.toNat / 4 * 4) = false → exec (.registerWrite addr w p) s = .next (s.rsp .decerr 0) ∧
      exec (.hostPriv addr p) s = .next (s.rsp .decerr 0)) ∧
    (regMapped (addr.toNat / 4 * 4) = true → s.readNeedsPriv (addr.toNat / 4 * 4) = true →
      exec (.hostPriv addr false) s = .next (s.privFail (addr.toNat / 4 * 4) false)) ∧
    (s.inst.lockstep = false → addr.toNat / 4 * 4 = 0x28 → exec (.registerWrite addr w p) s =
      .next (plainPut 0x28 w.toNat s).okay) ∧
    (addr.toNat / 4 * 4 = 0x28 → exec (.hostPriv addr true) s = .next (s.rspWordOf (s.regWord 0x28))))

/-- After a lockstep mismatch a mapped register answers a write with REFUSED, whatever the register, with CMD_ARG, FLT_ACK and CMD
the only ones that still take it; CMD ends every code but NOP, ABORT, FLUSH_LOG and CLEAR_FAULT as REFUSED. No read is refused: one with
the privilege bit is answered OKAY, or waits for the 1,024 responses of R349. -/
def Obligations.LockstepRefusesWrites : Prop :=
  ∀ (addr : BitVec 20) (w : Word) (s : State), s.hostUp = true → s.inst.lockstep = true → regMapped (addr.toNat / 4 * 4) = true →
    (addr.toNat / 4 * 4 ≠ 0x14 → addr.toNat / 4 * 4 ≠ 0x18 → addr.toNat / 4 * 4 ≠ 0x1004 →
      exec (.registerWrite addr w true) s = .next s.refuse) ∧
    (addr.toNat / 4 * 4 = 0x18 → exec (.registerWrite addr w true) s = .next (s.updHost fun h => { h with arg := w }).okay) ∧
    (addr.toNat / 4 * 4 = 0x1004 → exec (.registerWrite addr w true) s = exec (.fltAck w true) s) ∧
    (addr.toNat / 4 * 4 = 0x14 → exec (.registerWrite addr w true) s = s.writeCmd w.toNat true) ∧
    (∀ (code : Nat) (mgrOnly priv cool : Bool) (body : State → State), s.host.cmd = none → code ∉ [0, 1, 0xA, 0xB] →
      s.runCmd code false mgrOnly priv cool body = .next ((s.acceptCmd code cool).okay.cmdEnd 2)) ∧
    Answers (exec (.hostPriv addr true) s) fun t => t = s ∨ t.host.rspSt = .okay

/-- A read of the low word of a 64-bit value answers it and latches the high word; the next read of the high word returns what was
latched, whatever the value has become. -/
def Obligations.SixtyFourBitReadsLatchTheHighWord : Prop :=
  ∀ (addr high : BitVec 20) (p : Bool) (v : Nat) (s : State), s.hostUp = true → s.wide (addr.toNat / 4 * 4) = some v →
    high.toNat / 4 * 4 = addr.toNat / 4 * 4 + 4 →
    (s.readNeedsPriv (addr.toNat / 4 * 4) && !p) = false → (s.readNeedsPriv (addr.toNat / 4 * 4 + 4) && !p) = false →
    exec (.lowWordRead addr p) s = .next ((s.updHost fun h => { h with
      latch := tset none h.latch (addr.toNat / 4 * 4 + 4) (some (BitVec.ofNat 32 (v / 2 ^ 32))) }).rsp .okay (v % 2 ^ 32)) ∧
    exec (.hostPriv addr p) s = exec (.lowWordRead addr p) s ∧
    (∀ x : Word, tget none s.host.latch (addr.toNat / 4 * 4 + 4) = some x → exec (.hostPriv high p) s =
      .next ((s.updHost fun h => { h with latch := tset none h.latch (addr.toNat / 4 * 4 + 4) none }).rsp .okay x.toNat))

/-- The reads that clear or advance something: a peak, a count of errors, a count of lost
records and a count of late polls is cleared by its read, which answers what it was; the windows advance. -/
def Obligations.ReadsThatChangeState : Prop :=
  ∀ s : State, s.hostUp = true →
    (∀ (addr : BitVec 20) (t : State), s.clearPeak (addr.toNat / 4 * 4) = some t →
      exec (.tlmPeakRead addr) s = .next (t.rspWordOf (s.regWord (addr.toNat / 4 * 4)))) ∧
    exec .logLostcnt s = .next ((s.updLog fun l => { l with lost := 0 }).rsp .okay s.log.lost) ∧
    exec .tthErr s = .next ((s.updTth fun t => { t with crcA := 0, crcB := 0 }).rspWordOf (s.tthWord 0x30008)) ∧
    exec .tthUndel s = .next ((s.updTth fun t => { t with undel := 0 }).rspWordOf (s.tthWord 0x3000C)) ∧
    exec .tthLate s = .next ((s.updTth fun t => { t with late := 0 }).rspWordOf (s.tthWord 0x30020)) ∧
    (∀ c : Fin 32, exec (.tktPerr c) s = .next ((s.updCluster c fun y => { y with perr := 0 }).rspWordOf (s.tkWord (0x20100 + 4 * c)))) ∧
    exec .hkPmbLate s = .next ((s.updPmb fun p => { p with late := 0 }).rspWordOf (s.hkWord 0x3008)) ∧
    (s.trcAllowed = true → exec .obsTrcWin s =
      .next ((s.updObs fun o => { o with trc := o.trc.tail, trcFull := false }).trcRsp (s.trcWord 3))) ∧
    (s.obs.frozen = true → exec .obsScanData s = .next ((s.updObs fun o => { o with
      scanWord := (o.scanWord + 1) % 2 ^ 19 }).rsp .okay (s.scanWordAt s.obs.scanSeg s.obs.scanWord))) ∧
    (s.obs.frozen = false → exec .obsScanData s = .next (s.rsp .okay 0)) ∧
    (s.logRdy = true → exec (.logWin true) s = .next (s.advance.rsp .okay (nth 0 s.log.win 15).toNat)) ∧
    (s.logRdy = false → exec (.logWin true) s = .next (s.rsp .okay 0))

/-! ### The test access port -/

/-- TRST_N selects IDCODE in Test-Logic-Reset and releases TDO; so do five TCK with TMS high, from any state. A TCK changes nothing but
the TAP and the counter of the model's free values. -/
def Obligations.TheTapResets : Prop :=
  (∀ s : State, exec .trstN s = .next { s with tap := { s.tap with state := .testLogicReset, ir := 0x01, tdo := none } }) ∧
  (∀ (tms tdi : Bool) (s : State), exec (.tck tms tdi) s = .next (s.tapRise tms tdi).tapFall ∧
    Answers (exec (.tck tms tdi) s) fun t => t = { s with tap := t.tap, fresh := t.fresh } ∧ s.fresh ≤ t.fresh ∧
      t.tap.state = s.tap.state.next tms) ∧
  (∀ (b1 b2 b3 b4 b5 : Bool) (s : State), Leads (exec (.tck true b1) s) fun s1 => Leads (exec (.tck true b2) s1) fun s2 =>
    Leads (exec (.tck true b3) s2) fun s3 => Leads (exec (.tck true b4) s3) fun s4 => Leads (exec (.tck true b5) s4) fun s5 =>
      s5.tap.state = .testLogicReset ∧ s5.tap.ir = 0x01 ∧ s5.tap.tdo = none)
end

