-- ==== Sys2Proof/Laws/Codes.lean ====
section
/-!
SUPPORT. Check codes: a CRC-32 fits 32 bits, and fuse fields pass FUSE_CRC with the CRC-32 of their bytes.
-/

namespace Sys2Proof.Machine

theorem crc32Step_lt (c : Nat) (b : BitVec 8) (h : c < 2 ^ 32) : crc32Step c b < 2 ^ 32 := by
  have hb : c ^^^ b.toNat < 2 ^ 32 := Nat.xor_lt_two_pow h (by omega)
  unfold crc32Step
  generalize c ^^^ b.toNat = x at hb
  generalize List.range 8 = l
  induction l generalizing x with
  | nil => exact hb
  | cons a l ih =>
    rw [List.foldl_cons]
    refine ih _ ?_
    split
    · exact Nat.xor_lt_two_pow (by omega) (by decide)
    · omega

/-- A CRC-32 fits 32 bits. -/
theorem crc32_lt (l : List (BitVec 8)) : crc32 l < 2 ^ 32 := by
  refine Nat.xor_lt_two_pow ?_ (by decide)
  suffices ∀ c, c < 2 ^ 32 → l.foldl crc32Step c < 2 ^ 32 from this _ (by decide)
  induction l with
  | nil => exact fun _ h => h
  | cons b l ih => exact fun c h => ih _ (crc32Step_lt c b h)

theorem Fuses.crcOk_of (f : Fuses) (c : BitVec 32) (h : c = BitVec.ofNat 32 (crc32 f.bytes)) :
    ({ f with crc := c } : Fuses).crcOk = true := by
  have e : ({ f with crc := c } : Fuses).bytes = f.bytes := by simp only [Fuses.bytes]
  rw [Fuses.crcOk, e, h, beq_iff_eq, BitVec.toNat_ofNat]
  exact Nat.mod_eq_of_lt (crc32_lt f.bytes)

/-- The FUSE_CRC that a fuse read has to bring is the CRC-32 of its other fields, whatever it brings (R244). -/
theorem fusesOf_crcOk (x : FuseRead) : (fusesOf { x with crc := BitVec.ofNat 32 (crc32 (fusesOf x).bytes) }).crcOk = true :=
  Fuses.crcOk_of (fusesOf x) _ rfl

end Sys2Proof.Machine
end

