-- ==== Sys2Proof/Laws/State.lean ====
section
/-!
SUPPORT. What each update of the state does to each of its fields, so that no proof unfolds a record update.
-/

namespace Sys2Proof.Machine

@[simp] theorem State.updInst_self (s : State) (f : Inst → Inst) : (s.updInst f).inst = f s.inst := rfl
@[simp] theorem State.updInst_time (s : State) (f : Inst → Inst) : (s.updInst f).time = s.time := rfl
@[simp] theorem State.updInst_fuses (s : State) (f : Inst → Inst) : (s.updInst f).fuses = s.fuses := rfl
@[simp] theorem State.updInst_cfg (s : State) (f : Inst → Inst) : (s.updInst f).cfg = s.cfg := rfl
@[simp] theorem State.updInst_pend (s : State) (f : Inst → Inst) : (s.updInst f).pend = s.pend := rfl
@[simp] theorem State.updInst_decs (s : State) (f : Inst → Inst) : (s.updInst f).decs = s.decs := rfl
@[simp] theorem State.updInst_tiles (s : State) (f : Inst → Inst) : (s.updInst f).tiles = s.tiles := rfl
@[simp] theorem State.updInst_views (s : State) (f : Inst → Inst) : (s.updInst f).views = s.views := rfl
@[simp] theorem State.updInst_mittens (s : State) (f : Inst → Inst) : (s.updInst f).mittens = s.mittens := rfl
@[simp] theorem State.updInst_points (s : State) (f : Inst → Inst) : (s.updInst f).points = s.points := rfl
@[simp] theorem State.updInst_sensors (s : State) (f : Inst → Inst) : (s.updInst f).sensors = s.sensors := rfl
@[simp] theorem State.updInst_doms (s : State) (f : Inst → Inst) : (s.updInst f).doms = s.doms := rfl
@[simp] theorem State.updInst_tilePar (s : State) (f : Inst → Inst) : (s.updInst f).tilePar = s.tilePar := rfl
@[simp] theorem State.updInst_spine (s : State) (f : Inst → Inst) : (s.updInst f).spine = s.spine := rfl
@[simp] theorem State.updInst_tk (s : State) (f : Inst → Inst) : (s.updInst f).tk = s.tk := rfl
@[simp] theorem State.updInst_eng (s : State) (f : Inst → Inst) : (s.updInst f).eng = s.eng := rfl
@[simp] theorem State.updInst_lim (s : State) (f : Inst → Inst) : (s.updInst f).lim = s.lim := rfl
@[simp] theorem State.updInst_mgr (s : State) (f : Inst → Inst) : (s.updInst f).mgr = s.mgr := rfl
@[simp] theorem State.updInst_tth (s : State) (f : Inst → Inst) : (s.updInst f).tth = s.tth := rfl
@[simp] theorem State.updInst_flt (s : State) (f : Inst → Inst) : (s.updInst f).flt = s.flt := rfl
@[simp] theorem State.updInst_log (s : State) (f : Inst → Inst) : (s.updInst f).log = s.log := rfl
@[simp] theorem State.updInst_hk (s : State) (f : Inst → Inst) : (s.updInst f).hk = s.hk := rfl
@[simp] theorem State.updInst_pmb (s : State) (f : Inst → Inst) : (s.updInst f).pmb = s.pmb := rfl
@[simp] theorem State.updInst_obs (s : State) (f : Inst → Inst) : (s.updInst f).obs = s.obs := rfl
@[simp] theorem State.updInst_host (s : State) (f : Inst → Inst) : (s.updInst f).host = s.host := rfl
@[simp] theorem State.updInst_tap (s : State) (f : Inst → Inst) : (s.updInst f).tap = s.tap := rfl
@[simp] theorem State.updInst_fresh (s : State) (f : Inst → Inst) : (s.updInst f).fresh = s.fresh := rfl
@[simp] theorem State.updInst_pending (s : State) (f : Inst → Inst) : (s.updInst f).pending = s.pending := rfl
@[simp] theorem State.updSpine_self (s : State) (f : Spine → Spine) : (s.updSpine f).spine = f s.spine := rfl
@[simp] theorem State.updSpine_time (s : State) (f : Spine → Spine) : (s.updSpine f).time = s.time := rfl
@[simp] theorem State.updSpine_inst (s : State) (f : Spine → Spine) : (s.updSpine f).inst = s.inst := rfl
@[simp] theorem State.updSpine_fuses (s : State) (f : Spine → Spine) : (s.updSpine f).fuses = s.fuses := rfl
@[simp] theorem State.updSpine_cfg (s : State) (f : Spine → Spine) : (s.updSpine f).cfg = s.cfg := rfl
@[simp] theorem State.updSpine_pend (s : State) (f : Spine → Spine) : (s.updSpine f).pend = s.pend := rfl
@[simp] theorem State.updSpine_decs (s : State) (f : Spine → Spine) : (s.updSpine f).decs = s.decs := rfl
@[simp] theorem State.updSpine_tiles (s : State) (f : Spine → Spine) : (s.updSpine f).tiles = s.tiles := rfl
@[simp] theorem State.updSpine_views (s : State) (f : Spine → Spine) : (s.updSpine f).views = s.views := rfl
@[simp] theorem State.updSpine_mittens (s : State) (f : Spine → Spine) : (s.updSpine f).mittens = s.mittens := rfl
@[simp] theorem State.updSpine_points (s : State) (f : Spine → Spine) : (s.updSpine f).points = s.points := rfl
@[simp] theorem State.updSpine_sensors (s : State) (f : Spine → Spine) : (s.updSpine f).sensors = s.sensors := rfl
@[simp] theorem State.updSpine_doms (s : State) (f : Spine → Spine) : (s.updSpine f).doms = s.doms := rfl
@[simp] theorem State.updSpine_tilePar (s : State) (f : Spine → Spine) : (s.updSpine f).tilePar = s.tilePar := rfl
@[simp] theorem State.updSpine_tk (s : State) (f : Spine → Spine) : (s.updSpine f).tk = s.tk := rfl
@[simp] theorem State.updSpine_eng (s : State) (f : Spine → Spine) : (s.updSpine f).eng = s.eng := rfl
@[simp] theorem State.updSpine_lim (s : State) (f : Spine → Spine) : (s.updSpine f).lim = s.lim := rfl
@[simp] theorem State.updSpine_mgr (s : State) (f : Spine → Spine) : (s.updSpine f).mgr = s.mgr := rfl
@[simp] theorem State.updSpine_tth (s : State) (f : Spine → Spine) : (s.updSpine f).tth = s.tth := rfl
@[simp] theorem State.updSpine_flt (s : State) (f : Spine → Spine) : (s.updSpine f).flt = s.flt := rfl
@[simp] theorem State.updSpine_log (s : State) (f : Spine → Spine) : (s.updSpine f).log = s.log := rfl
@[simp] theorem State.updSpine_hk (s : State) (f : Spine → Spine) : (s.updSpine f).hk = s.hk := rfl
@[simp] theorem State.updSpine_pmb (s : State) (f : Spine → Spine) : (s.updSpine f).pmb = s.pmb := rfl
@[simp] theorem State.updSpine_obs (s : State) (f : Spine → Spine) : (s.updSpine f).obs = s.obs := rfl
@[simp] theorem State.updSpine_host (s : State) (f : Spine → Spine) : (s.updSpine f).host = s.host := rfl
@[simp] theorem State.updSpine_tap (s : State) (f : Spine → Spine) : (s.updSpine f).tap = s.tap := rfl
@[simp] theorem State.updSpine_fresh (s : State) (f : Spine → Spine) : (s.updSpine f).fresh = s.fresh := rfl
@[simp] theorem State.updSpine_pending (s : State) (f : Spine → Spine) : (s.updSpine f).pending = s.pending := rfl
@[simp] theorem State.updTk_self (s : State) (f : TicketUnit → TicketUnit) : (s.updTk f).tk = f s.tk := rfl
@[simp] theorem State.updTk_time (s : State) (f : TicketUnit → TicketUnit) : (s.updTk f).time = s.time := rfl
@[simp] theorem State.updTk_inst (s : State) (f : TicketUnit → TicketUnit) : (s.updTk f).inst = s.inst := rfl
@[simp] theorem State.updTk_fuses (s : State) (f : TicketUnit → TicketUnit) : (s.updTk f).fuses = s.fuses := rfl
@[simp] theorem State.updTk_cfg (s : State) (f : TicketUnit → TicketUnit) : (s.updTk f).cfg = s.cfg := rfl
@[simp] theorem State.updTk_pend (s : State) (f : TicketUnit → TicketUnit) : (s.updTk f).pend = s.pend := rfl
@[simp] theorem State.updTk_decs (s : State) (f : TicketUnit → TicketUnit) : (s.updTk f).decs = s.decs := rfl
@[simp] theorem State.updTk_tiles (s : State) (f : TicketUnit → TicketUnit) : (s.updTk f).tiles = s.tiles := rfl
@[simp] theorem State.updTk_views (s : State) (f : TicketUnit → TicketUnit) : (s.updTk f).views = s.views := rfl
@[simp] theorem State.updTk_mittens (s : State) (f : TicketUnit → TicketUnit) : (s.updTk f).mittens = s.mittens := rfl
@[simp] theorem State.updTk_points (s : State) (f : TicketUnit → TicketUnit) : (s.updTk f).points = s.points := rfl
@[simp] theorem State.updTk_sensors (s : State) (f : TicketUnit → TicketUnit) : (s.updTk f).sensors = s.sensors := rfl
@[simp] theorem State.updTk_doms (s : State) (f : TicketUnit → TicketUnit) : (s.updTk f).doms = s.doms := rfl
@[simp] theorem State.updTk_tilePar (s : State) (f : TicketUnit → TicketUnit) : (s.updTk f).tilePar = s.tilePar := rfl
@[simp] theorem State.updTk_spine (s : State) (f : TicketUnit → TicketUnit) : (s.updTk f).spine = s.spine := rfl
@[simp] theorem State.updTk_eng (s : State) (f : TicketUnit → TicketUnit) : (s.updTk f).eng = s.eng := rfl
@[simp] theorem State.updTk_lim (s : State) (f : TicketUnit → TicketUnit) : (s.updTk f).lim = s.lim := rfl
@[simp] theorem State.updTk_mgr (s : State) (f : TicketUnit → TicketUnit) : (s.updTk f).mgr = s.mgr := rfl
@[simp] theorem State.updTk_tth (s : State) (f : TicketUnit → TicketUnit) : (s.updTk f).tth = s.tth := rfl
@[simp] theorem State.updTk_flt (s : State) (f : TicketUnit → TicketUnit) : (s.updTk f).flt = s.flt := rfl
@[simp] theorem State.updTk_log (s : State) (f : TicketUnit → TicketUnit) : (s.updTk f).log = s.log := rfl
@[simp] theorem State.updTk_hk (s : State) (f : TicketUnit → TicketUnit) : (s.updTk f).hk = s.hk := rfl
@[simp] theorem State.updTk_pmb (s : State) (f : TicketUnit → TicketUnit) : (s.updTk f).pmb = s.pmb := rfl
@[simp] theorem State.updTk_obs (s : State) (f : TicketUnit → TicketUnit) : (s.updTk f).obs = s.obs := rfl
@[simp] theorem State.updTk_host (s : State) (f : TicketUnit → TicketUnit) : (s.updTk f).host = s.host := rfl
@[simp] theorem State.updTk_tap (s : State) (f : TicketUnit → TicketUnit) : (s.updTk f).tap = s.tap := rfl
@[simp] theorem State.updTk_fresh (s : State) (f : TicketUnit → TicketUnit) : (s.updTk f).fresh = s.fresh := rfl
@[simp] theorem State.updTk_pending (s : State) (f : TicketUnit → TicketUnit) : (s.updTk f).pending = s.pending := rfl
@[simp] theorem State.updEng_self (s : State) (f : Engine → Engine) : (s.updEng f).eng = f s.eng := rfl
@[simp] theorem State.updEng_time (s : State) (f : Engine → Engine) : (s.updEng f).time = s.time := rfl
@[simp] theorem State.updEng_inst (s : State) (f : Engine → Engine) : (s.updEng f).inst = s.inst := rfl
@[simp] theorem State.updEng_fuses (s : State) (f : Engine → Engine) : (s.updEng f).fuses = s.fuses := rfl
@[simp] theorem State.updEng_cfg (s : State) (f : Engine → Engine) : (s.updEng f).cfg = s.cfg := rfl
@[simp] theorem State.updEng_pend (s : State) (f : Engine → Engine) : (s.updEng f).pend = s.pend := rfl
@[simp] theorem State.updEng_decs (s : State) (f : Engine → Engine) : (s.updEng f).decs = s.decs := rfl
@[simp] theorem State.updEng_tiles (s : State) (f : Engine → Engine) : (s.updEng f).tiles = s.tiles := rfl
@[simp] theorem State.updEng_views (s : State) (f : Engine → Engine) : (s.updEng f).views = s.views := rfl
@[simp] theorem State.updEng_mittens (s : State) (f : Engine → Engine) : (s.updEng f).mittens = s.mittens := rfl
@[simp] theorem State.updEng_points (s : State) (f : Engine → Engine) : (s.updEng f).points = s.points := rfl
@[simp] theorem State.updEng_sensors (s : State) (f : Engine → Engine) : (s.updEng f).sensors = s.sensors := rfl
@[simp] theorem State.updEng_doms (s : State) (f : Engine → Engine) : (s.updEng f).doms = s.doms := rfl
@[simp] theorem State.updEng_tilePar (s : State) (f : Engine → Engine) : (s.updEng f).tilePar = s.tilePar := rfl
@[simp] theorem State.updEng_spine (s : State) (f : Engine → Engine) : (s.updEng f).spine = s.spine := rfl
@[simp] theorem State.updEng_tk (s : State) (f : Engine → Engine) : (s.updEng f).tk = s.tk := rfl
@[simp] theorem State.updEng_lim (s : State) (f : Engine → Engine) : (s.updEng f).lim = s.lim := rfl
@[simp] theorem State.updEng_mgr (s : State) (f : Engine → Engine) : (s.updEng f).mgr = s.mgr := rfl
@[simp] theorem State.updEng_tth (s : State) (f : Engine → Engine) : (s.updEng f).tth = s.tth := rfl
@[simp] theorem State.updEng_flt (s : State) (f : Engine → Engine) : (s.updEng f).flt = s.flt := rfl
@[simp] theorem State.updEng_log (s : State) (f : Engine → Engine) : (s.updEng f).log = s.log := rfl
@[simp] theorem State.updEng_hk (s : State) (f : Engine → Engine) : (s.updEng f).hk = s.hk := rfl
@[simp] theorem State.updEng_pmb (s : State) (f : Engine → Engine) : (s.updEng f).pmb = s.pmb := rfl
@[simp] theorem State.updEng_obs (s : State) (f : Engine → Engine) : (s.updEng f).obs = s.obs := rfl
@[simp] theorem State.updEng_host (s : State) (f : Engine → Engine) : (s.updEng f).host = s.host := rfl
@[simp] theorem State.updEng_tap (s : State) (f : Engine → Engine) : (s.updEng f).tap = s.tap := rfl
@[simp] theorem State.updEng_fresh (s : State) (f : Engine → Engine) : (s.updEng f).fresh = s.fresh := rfl
@[simp] theorem State.updEng_pending (s : State) (f : Engine → Engine) : (s.updEng f).pending = s.pending := rfl
@[simp] theorem State.updLim_self (s : State) (f : Limits → Limits) : (s.updLim f).lim = f s.lim := rfl
@[simp] theorem State.updLim_time (s : State) (f : Limits → Limits) : (s.updLim f).time = s.time := rfl
@[simp] theorem State.updLim_inst (s : State) (f : Limits → Limits) : (s.updLim f).inst = s.inst := rfl
@[simp] theorem State.updLim_fuses (s : State) (f : Limits → Limits) : (s.updLim f).fuses = s.fuses := rfl
@[simp] theorem State.updLim_cfg (s : State) (f : Limits → Limits) : (s.updLim f).cfg = s.cfg := rfl
@[simp] theorem State.updLim_pend (s : State) (f : Limits → Limits) : (s.updLim f).pend = s.pend := rfl
@[simp] theorem State.updLim_decs (s : State) (f : Limits → Limits) : (s.updLim f).decs = s.decs := rfl
@[simp] theorem State.updLim_tiles (s : State) (f : Limits → Limits) : (s.updLim f).tiles = s.tiles := rfl
@[simp] theorem State.updLim_views (s : State) (f : Limits → Limits) : (s.updLim f).views = s.views := rfl
@[simp] theorem State.updLim_mittens (s : State) (f : Limits → Limits) : (s.updLim f).mittens = s.mittens := rfl
@[simp] theorem State.updLim_points (s : State) (f : Limits → Limits) : (s.updLim f).points = s.points := rfl
@[simp] theorem State.updLim_sensors (s : State) (f : Limits → Limits) : (s.updLim f).sensors = s.sensors := rfl
@[simp] theorem State.updLim_doms (s : State) (f : Limits → Limits) : (s.updLim f).doms = s.doms := rfl
@[simp] theorem State.updLim_tilePar (s : State) (f : Limits → Limits) : (s.updLim f).tilePar = s.tilePar := rfl
@[simp] theorem State.updLim_spine (s : State) (f : Limits → Limits) : (s.updLim f).spine = s.spine := rfl
@[simp] theorem State.updLim_tk (s : State) (f : Limits → Limits) : (s.updLim f).tk = s.tk := rfl
@[simp] theorem State.updLim_eng (s : State) (f : Limits → Limits) : (s.updLim f).eng = s.eng := rfl
@[simp] theorem State.updLim_mgr (s : State) (f : Limits → Limits) : (s.updLim f).mgr = s.mgr := rfl
@[simp] theorem State.updLim_tth (s : State) (f : Limits → Limits) : (s.updLim f).tth = s.tth := rfl
@[simp] theorem State.updLim_flt (s : State) (f : Limits → Limits) : (s.updLim f).flt = s.flt := rfl
@[simp] theorem State.updLim_log (s : State) (f : Limits → Limits) : (s.updLim f).log = s.log := rfl
@[simp] theorem State.updLim_hk (s : State) (f : Limits → Limits) : (s.updLim f).hk = s.hk := rfl
@[simp] theorem State.updLim_pmb (s : State) (f : Limits → Limits) : (s.updLim f).pmb = s.pmb := rfl
@[simp] theorem State.updLim_obs (s : State) (f : Limits → Limits) : (s.updLim f).obs = s.obs := rfl
@[simp] theorem State.updLim_host (s : State) (f : Limits → Limits) : (s.updLim f).host = s.host := rfl
@[simp] theorem State.updLim_tap (s : State) (f : Limits → Limits) : (s.updLim f).tap = s.tap := rfl
@[simp] theorem State.updLim_fresh (s : State) (f : Limits → Limits) : (s.updLim f).fresh = s.fresh := rfl
@[simp] theorem State.updLim_pending (s : State) (f : Limits → Limits) : (s.updLim f).pending = s.pending := rfl
@[simp] theorem State.updMgr_self (s : State) (f : Manager → Manager) : (s.updMgr f).mgr = f s.mgr := rfl
@[simp] theorem State.updMgr_time (s : State) (f : Manager → Manager) : (s.updMgr f).time = s.time := rfl
@[simp] theorem State.updMgr_inst (s : State) (f : Manager → Manager) : (s.updMgr f).inst = s.inst := rfl
@[simp] theorem State.updMgr_fuses (s : State) (f : Manager → Manager) : (s.updMgr f).fuses = s.fuses := rfl
@[simp] theorem State.updMgr_cfg (s : State) (f : Manager → Manager) : (s.updMgr f).cfg = s.cfg := rfl
@[simp] theorem State.updMgr_pend (s : State) (f : Manager → Manager) : (s.updMgr f).pend = s.pend := rfl
@[simp] theorem State.updMgr_decs (s : State) (f : Manager → Manager) : (s.updMgr f).decs = s.decs := rfl
@[simp] theorem State.updMgr_tiles (s : State) (f : Manager → Manager) : (s.updMgr f).tiles = s.tiles := rfl
@[simp] theorem State.updMgr_views (s : State) (f : Manager → Manager) : (s.updMgr f).views = s.views := rfl
@[simp] theorem State.updMgr_mittens (s : State) (f : Manager → Manager) : (s.updMgr f).mittens = s.mittens := rfl
@[simp] theorem State.updMgr_points (s : State) (f : Manager → Manager) : (s.updMgr f).points = s.points := rfl
@[simp] theorem State.updMgr_sensors (s : State) (f : Manager → Manager) : (s.updMgr f).sensors = s.sensors := rfl
@[simp] theorem State.updMgr_doms (s : State) (f : Manager → Manager) : (s.updMgr f).doms = s.doms := rfl
@[simp] theorem State.updMgr_tilePar (s : State) (f : Manager → Manager) : (s.updMgr f).tilePar = s.tilePar := rfl
@[simp] theorem State.updMgr_spine (s : State) (f : Manager → Manager) : (s.updMgr f).spine = s.spine := rfl
@[simp] theorem State.updMgr_tk (s : State) (f : Manager → Manager) : (s.updMgr f).tk = s.tk := rfl
@[simp] theorem State.updMgr_eng (s : State) (f : Manager → Manager) : (s.updMgr f).eng = s.eng := rfl
@[simp] theorem State.updMgr_lim (s : State) (f : Manager → Manager) : (s.updMgr f).lim = s.lim := rfl
@[simp] theorem State.updMgr_tth (s : State) (f : Manager → Manager) : (s.updMgr f).tth = s.tth := rfl
@[simp] theorem State.updMgr_flt (s : State) (f : Manager → Manager) : (s.updMgr f).flt = s.flt := rfl
@[simp] theorem State.updMgr_log (s : State) (f : Manager → Manager) : (s.updMgr f).log = s.log := rfl
@[simp] theorem State.updMgr_hk (s : State) (f : Manager → Manager) : (s.updMgr f).hk = s.hk := rfl
@[simp] theorem State.updMgr_pmb (s : State) (f : Manager → Manager) : (s.updMgr f).pmb = s.pmb := rfl
@[simp] theorem State.updMgr_obs (s : State) (f : Manager → Manager) : (s.updMgr f).obs = s.obs := rfl
@[simp] theorem State.updMgr_host (s : State) (f : Manager → Manager) : (s.updMgr f).host = s.host := rfl
@[simp] theorem State.updMgr_tap (s : State) (f : Manager → Manager) : (s.updMgr f).tap = s.tap := rfl
@[simp] theorem State.updMgr_fresh (s : State) (f : Manager → Manager) : (s.updMgr f).fresh = s.fresh := rfl
@[simp] theorem State.updMgr_pending (s : State) (f : Manager → Manager) : (s.updMgr f).pending = s.pending := rfl
@[simp] theorem State.updTth_self (s : State) (f : Tether → Tether) : (s.updTth f).tth = f s.tth := rfl
@[simp] theorem State.updTth_time (s : State) (f : Tether → Tether) : (s.updTth f).time = s.time := rfl
@[simp] theorem State.updTth_inst (s : State) (f : Tether → Tether) : (s.updTth f).inst = s.inst := rfl
@[simp] theorem State.updTth_fuses (s : State) (f : Tether → Tether) : (s.updTth f).fuses = s.fuses := rfl
@[simp] theorem State.updTth_cfg (s : State) (f : Tether → Tether) : (s.updTth f).cfg = s.cfg := rfl
@[simp] theorem State.updTth_pend (s : State) (f : Tether → Tether) : (s.updTth f).pend = s.pend := rfl
@[simp] theorem State.updTth_decs (s : State) (f : Tether → Tether) : (s.updTth f).decs = s.decs := rfl
@[simp] theorem State.updTth_tiles (s : State) (f : Tether → Tether) : (s.updTth f).tiles = s.tiles := rfl
@[simp] theorem State.updTth_views (s : State) (f : Tether → Tether) : (s.updTth f).views = s.views := rfl
@[simp] theorem State.updTth_mittens (s : State) (f : Tether → Tether) : (s.updTth f).mittens = s.mittens := rfl
@[simp] theorem State.updTth_points (s : State) (f : Tether → Tether) : (s.updTth f).points = s.points := rfl
@[simp] theorem State.updTth_sensors (s : State) (f : Tether → Tether) : (s.updTth f).sensors = s.sensors := rfl
@[simp] theorem State.updTth_doms (s : State) (f : Tether → Tether) : (s.updTth f).doms = s.doms := rfl
@[simp] theorem State.updTth_tilePar (s : State) (f : Tether → Tether) : (s.updTth f).tilePar = s.tilePar := rfl
@[simp] theorem State.updTth_spine (s : State) (f : Tether → Tether) : (s.updTth f).spine = s.spine := rfl
@[simp] theorem State.updTth_tk (s : State) (f : Tether → Tether) : (s.updTth f).tk = s.tk := rfl
@[simp] theorem State.updTth_eng (s : State) (f : Tether → Tether) : (s.updTth f).eng = s.eng := rfl
@[simp] theorem State.updTth_lim (s : State) (f : Tether → Tether) : (s.updTth f).lim = s.lim := rfl
@[simp] theorem State.updTth_mgr (s : State) (f : Tether → Tether) : (s.updTth f).mgr = s.mgr := rfl
@[simp] theorem State.updTth_flt (s : State) (f : Tether → Tether) : (s.updTth f).flt = s.flt := rfl
@[simp] theorem State.updTth_log (s : State) (f : Tether → Tether) : (s.updTth f).log = s.log := rfl
@[simp] theorem State.updTth_hk (s : State) (f : Tether → Tether) : (s.updTth f).hk = s.hk := rfl
@[simp] theorem State.updTth_pmb (s : State) (f : Tether → Tether) : (s.updTth f).pmb = s.pmb := rfl
@[simp] theorem State.updTth_obs (s : State) (f : Tether → Tether) : (s.updTth f).obs = s.obs := rfl
@[simp] theorem State.updTth_host (s : State) (f : Tether → Tether) : (s.updTth f).host = s.host := rfl
@[simp] theorem State.updTth_tap (s : State) (f : Tether → Tether) : (s.updTth f).tap = s.tap := rfl
@[simp] theorem State.updTth_fresh (s : State) (f : Tether → Tether) : (s.updTth f).fresh = s.fresh := rfl
@[simp] theorem State.updTth_pending (s : State) (f : Tether → Tether) : (s.updTth f).pending = s.pending := rfl
@[simp] theorem State.updFlt_self (s : State) (f : Faults → Faults) : (s.updFlt f).flt = f s.flt := rfl
@[simp] theorem State.updFlt_time (s : State) (f : Faults → Faults) : (s.updFlt f).time = s.time := rfl
@[simp] theorem State.updFlt_inst (s : State) (f : Faults → Faults) : (s.updFlt f).inst = s.inst := rfl
@[simp] theorem State.updFlt_fuses (s : State) (f : Faults → Faults) : (s.updFlt f).fuses = s.fuses := rfl
@[simp] theorem State.updFlt_cfg (s : State) (f : Faults → Faults) : (s.updFlt f).cfg = s.cfg := rfl
@[simp] theorem State.updFlt_pend (s : State) (f : Faults → Faults) : (s.updFlt f).pend = s.pend := rfl
@[simp] theorem State.updFlt_decs (s : State) (f : Faults → Faults) : (s.updFlt f).decs = s.decs := rfl
@[simp] theorem State.updFlt_tiles (s : State) (f : Faults → Faults) : (s.updFlt f).tiles = s.tiles := rfl
@[simp] theorem State.updFlt_views (s : State) (f : Faults → Faults) : (s.updFlt f).views = s.views := rfl
@[simp] theorem State.updFlt_mittens (s : State) (f : Faults → Faults) : (s.updFlt f).mittens = s.mittens := rfl
@[simp] theorem State.updFlt_points (s : State) (f : Faults → Faults) : (s.updFlt f).points = s.points := rfl
@[simp] theorem State.updFlt_sensors (s : State) (f : Faults → Faults) : (s.updFlt f).sensors = s.sensors := rfl
@[simp] theorem State.updFlt_doms (s : State) (f : Faults → Faults) : (s.updFlt f).doms = s.doms := rfl
@[simp] theorem State.updFlt_tilePar (s : State) (f : Faults → Faults) : (s.updFlt f).tilePar = s.tilePar := rfl
@[simp] theorem State.updFlt_spine (s : State) (f : Faults → Faults) : (s.updFlt f).spine = s.spine := rfl
@[simp] theorem State.updFlt_tk (s : State) (f : Faults → Faults) : (s.updFlt f).tk = s.tk := rfl
@[simp] theorem State.updFlt_eng (s : State) (f : Faults → Faults) : (s.updFlt f).eng = s.eng := rfl
@[simp] theorem State.updFlt_lim (s : State) (f : Faults → Faults) : (s.updFlt f).lim = s.lim := rfl
@[simp] theorem State.updFlt_mgr (s : State) (f : Faults → Faults) : (s.updFlt f).mgr = s.mgr := rfl
@[simp] theorem State.updFlt_tth (s : State) (f : Faults → Faults) : (s.updFlt f).tth = s.tth := rfl
@[simp] theorem State.updFlt_log (s : State) (f : Faults → Faults) : (s.updFlt f).log = s.log := rfl
@[simp] theorem State.updFlt_hk (s : State) (f : Faults → Faults) : (s.updFlt f).hk = s.hk := rfl
@[simp] theorem State.updFlt_pmb (s : State) (f : Faults → Faults) : (s.updFlt f).pmb = s.pmb := rfl
@[simp] theorem State.updFlt_obs (s : State) (f : Faults → Faults) : (s.updFlt f).obs = s.obs := rfl
@[simp] theorem State.updFlt_host (s : State) (f : Faults → Faults) : (s.updFlt f).host = s.host := rfl
@[simp] theorem State.updFlt_tap (s : State) (f : Faults → Faults) : (s.updFlt f).tap = s.tap := rfl
@[simp] theorem State.updFlt_fresh (s : State) (f : Faults → Faults) : (s.updFlt f).fresh = s.fresh := rfl
@[simp] theorem State.updFlt_pending (s : State) (f : Faults → Faults) : (s.updFlt f).pending = s.pending := rfl
@[simp] theorem State.updLog_self (s : State) (f : Recorder → Recorder) : (s.updLog f).log = f s.log := rfl
@[simp] theorem State.updLog_time (s : State) (f : Recorder → Recorder) : (s.updLog f).time = s.time := rfl
@[simp] theorem State.updLog_inst (s : State) (f : Recorder → Recorder) : (s.updLog f).inst = s.inst := rfl
@[simp] theorem State.updLog_fuses (s : State) (f : Recorder → Recorder) : (s.updLog f).fuses = s.fuses := rfl
@[simp] theorem State.updLog_cfg (s : State) (f : Recorder → Recorder) : (s.updLog f).cfg = s.cfg := rfl
@[simp] theorem State.updLog_pend (s : State) (f : Recorder → Recorder) : (s.updLog f).pend = s.pend := rfl
@[simp] theorem State.updLog_decs (s : State) (f : Recorder → Recorder) : (s.updLog f).decs = s.decs := rfl
@[simp] theorem State.updLog_tiles (s : State) (f : Recorder → Recorder) : (s.updLog f).tiles = s.tiles := rfl
@[simp] theorem State.updLog_views (s : State) (f : Recorder → Recorder) : (s.updLog f).views = s.views := rfl
@[simp] theorem State.updLog_mittens (s : State) (f : Recorder → Recorder) : (s.updLog f).mittens = s.mittens := rfl
@[simp] theorem State.updLog_points (s : State) (f : Recorder → Recorder) : (s.updLog f).points = s.points := rfl
@[simp] theorem State.updLog_sensors (s : State) (f : Recorder → Recorder) : (s.updLog f).sensors = s.sensors := rfl
@[simp] theorem State.updLog_doms (s : State) (f : Recorder → Recorder) : (s.updLog f).doms = s.doms := rfl
@[simp] theorem State.updLog_tilePar (s : State) (f : Recorder → Recorder) : (s.updLog f).tilePar = s.tilePar := rfl
@[simp] theorem State.updLog_spine (s : State) (f : Recorder → Recorder) : (s.updLog f).spine = s.spine := rfl
@[simp] theorem State.updLog_tk (s : State) (f : Recorder → Recorder) : (s.updLog f).tk = s.tk := rfl
@[simp] theorem State.updLog_eng (s : State) (f : Recorder → Recorder) : (s.updLog f).eng = s.eng := rfl
@[simp] theorem State.updLog_lim (s : State) (f : Recorder → Recorder) : (s.updLog f).lim = s.lim := rfl
@[simp] theorem State.updLog_mgr (s : State) (f : Recorder → Recorder) : (s.updLog f).mgr = s.mgr := rfl
@[simp] theorem State.updLog_tth (s : State) (f : Recorder → Recorder) : (s.updLog f).tth = s.tth := rfl
@[simp] theorem State.updLog_flt (s : State) (f : Recorder → Recorder) : (s.updLog f).flt = s.flt := rfl
@[simp] theorem State.updLog_hk (s : State) (f : Recorder → Recorder) : (s.updLog f).hk = s.hk := rfl
@[simp] theorem State.updLog_pmb (s : State) (f : Recorder → Recorder) : (s.updLog f).pmb = s.pmb := rfl
@[simp] theorem State.updLog_obs (s : State) (f : Recorder → Recorder) : (s.updLog f).obs = s.obs := rfl
@[simp] theorem State.updLog_host (s : State) (f : Recorder → Recorder) : (s.updLog f).host = s.host := rfl
@[simp] theorem State.updLog_tap (s : State) (f : Recorder → Recorder) : (s.updLog f).tap = s.tap := rfl
@[simp] theorem State.updLog_fresh (s : State) (f : Recorder → Recorder) : (s.updLog f).fresh = s.fresh := rfl
@[simp] theorem State.updLog_pending (s : State) (f : Recorder → Recorder) : (s.updLog f).pending = s.pending := rfl
@[simp] theorem State.updHk_self (s : State) (f : Housekeep → Housekeep) : (s.updHk f).hk = f s.hk := rfl
@[simp] theorem State.updHk_time (s : State) (f : Housekeep → Housekeep) : (s.updHk f).time = s.time := rfl
@[simp] theorem State.updHk_inst (s : State) (f : Housekeep → Housekeep) : (s.updHk f).inst = s.inst := rfl
@[simp] theorem State.updHk_fuses (s : State) (f : Housekeep → Housekeep) : (s.updHk f).fuses = s.fuses := rfl
@[simp] theorem State.updHk_cfg (s : State) (f : Housekeep → Housekeep) : (s.updHk f).cfg = s.cfg := rfl
@[simp] theorem State.updHk_pend (s : State) (f : Housekeep → Housekeep) : (s.updHk f).pend = s.pend := rfl
@[simp] theorem State.updHk_decs (s : State) (f : Housekeep → Housekeep) : (s.updHk f).decs = s.decs := rfl
@[simp] theorem State.updHk_tiles (s : State) (f : Housekeep → Housekeep) : (s.updHk f).tiles = s.tiles := rfl
@[simp] theorem State.updHk_views (s : State) (f : Housekeep → Housekeep) : (s.updHk f).views = s.views := rfl
@[simp] theorem State.updHk_mittens (s : State) (f : Housekeep → Housekeep) : (s.updHk f).mittens = s.mittens := rfl
@[simp] theorem State.updHk_points (s : State) (f : Housekeep → Housekeep) : (s.updHk f).points = s.points := rfl
@[simp] theorem State.updHk_sensors (s : State) (f : Housekeep → Housekeep) : (s.updHk f).sensors = s.sensors := rfl
@[simp] theorem State.updHk_doms (s : State) (f : Housekeep → Housekeep) : (s.updHk f).doms = s.doms := rfl
@[simp] theorem State.updHk_tilePar (s : State) (f : Housekeep → Housekeep) : (s.updHk f).tilePar = s.tilePar := rfl
@[simp] theorem State.updHk_spine (s : State) (f : Housekeep → Housekeep) : (s.updHk f).spine = s.spine := rfl
@[simp] theorem State.updHk_tk (s : State) (f : Housekeep → Housekeep) : (s.updHk f).tk = s.tk := rfl
@[simp] theorem State.updHk_eng (s : State) (f : Housekeep → Housekeep) : (s.updHk f).eng = s.eng := rfl
@[simp] theorem State.updHk_lim (s : State) (f : Housekeep → Housekeep) : (s.updHk f).lim = s.lim := rfl
@[simp] theorem State.updHk_mgr (s : State) (f : Housekeep → Housekeep) : (s.updHk f).mgr = s.mgr := rfl
@[simp] theorem State.updHk_tth (s : State) (f : Housekeep → Housekeep) : (s.updHk f).tth = s.tth := rfl
@[simp] theorem State.updHk_flt (s : State) (f : Housekeep → Housekeep) : (s.updHk f).flt = s.flt := rfl
@[simp] theorem State.updHk_log (s : State) (f : Housekeep → Housekeep) : (s.updHk f).log = s.log := rfl
@[simp] theorem State.updHk_pmb (s : State) (f : Housekeep → Housekeep) : (s.updHk f).pmb = s.pmb := rfl
@[simp] theorem State.updHk_obs (s : State) (f : Housekeep → Housekeep) : (s.updHk f).obs = s.obs := rfl
@[simp] theorem State.updHk_host (s : State) (f : Housekeep → Housekeep) : (s.updHk f).host = s.host := rfl
@[simp] theorem State.updHk_tap (s : State) (f : Housekeep → Housekeep) : (s.updHk f).tap = s.tap := rfl
@[simp] theorem State.updHk_fresh (s : State) (f : Housekeep → Housekeep) : (s.updHk f).fresh = s.fresh := rfl
@[simp] theorem State.updHk_pending (s : State) (f : Housekeep → Housekeep) : (s.updHk f).pending = s.pending := rfl
@[simp] theorem State.updPmb_self (s : State) (f : Pmbus → Pmbus) : (s.updPmb f).pmb = f s.pmb := rfl
@[simp] theorem State.updPmb_time (s : State) (f : Pmbus → Pmbus) : (s.updPmb f).time = s.time := rfl
@[simp] theorem State.updPmb_inst (s : State) (f : Pmbus → Pmbus) : (s.updPmb f).inst = s.inst := rfl
@[simp] theorem State.updPmb_fuses (s : State) (f : Pmbus → Pmbus) : (s.updPmb f).fuses = s.fuses := rfl
@[simp] theorem State.updPmb_cfg (s : State) (f : Pmbus → Pmbus) : (s.updPmb f).cfg = s.cfg := rfl
@[simp] theorem State.updPmb_pend (s : State) (f : Pmbus → Pmbus) : (s.updPmb f).pend = s.pend := rfl
@[simp] theorem State.updPmb_decs (s : State) (f : Pmbus → Pmbus) : (s.updPmb f).decs = s.decs := rfl
@[simp] theorem State.updPmb_tiles (s : State) (f : Pmbus → Pmbus) : (s.updPmb f).tiles = s.tiles := rfl
@[simp] theorem State.updPmb_views (s : State) (f : Pmbus → Pmbus) : (s.updPmb f).views = s.views := rfl
@[simp] theorem State.updPmb_mittens (s : State) (f : Pmbus → Pmbus) : (s.updPmb f).mittens = s.mittens := rfl
@[simp] theorem State.updPmb_points (s : State) (f : Pmbus → Pmbus) : (s.updPmb f).points = s.points := rfl
@[simp] theorem State.updPmb_sensors (s : State) (f : Pmbus → Pmbus) : (s.updPmb f).sensors = s.sensors := rfl
@[simp] theorem State.updPmb_doms (s : State) (f : Pmbus → Pmbus) : (s.updPmb f).doms = s.doms := rfl
@[simp] theorem State.updPmb_tilePar (s : State) (f : Pmbus → Pmbus) : (s.updPmb f).tilePar = s.tilePar := rfl
@[simp] theorem State.updPmb_spine (s : State) (f : Pmbus → Pmbus) : (s.updPmb f).spine = s.spine := rfl
@[simp] theorem State.updPmb_tk (s : State) (f : Pmbus → Pmbus) : (s.updPmb f).tk = s.tk := rfl
@[simp] theorem State.updPmb_eng (s : State) (f : Pmbus → Pmbus) : (s.updPmb f).eng = s.eng := rfl
@[simp] theorem State.updPmb_lim (s : State) (f : Pmbus → Pmbus) : (s.updPmb f).lim = s.lim := rfl
@[simp] theorem State.updPmb_mgr (s : State) (f : Pmbus → Pmbus) : (s.updPmb f).mgr = s.mgr := rfl
@[simp] theorem State.updPmb_tth (s : State) (f : Pmbus → Pmbus) : (s.updPmb f).tth = s.tth := rfl
@[simp] theorem State.updPmb_flt (s : State) (f : Pmbus → Pmbus) : (s.updPmb f).flt = s.flt := rfl
@[simp] theorem State.updPmb_log (s : State) (f : Pmbus → Pmbus) : (s.updPmb f).log = s.log := rfl
@[simp] theorem State.updPmb_hk (s : State) (f : Pmbus → Pmbus) : (s.updPmb f).hk = s.hk := rfl
@[simp] theorem State.updPmb_obs (s : State) (f : Pmbus → Pmbus) : (s.updPmb f).obs = s.obs := rfl
@[simp] theorem State.updPmb_host (s : State) (f : Pmbus → Pmbus) : (s.updPmb f).host = s.host := rfl
@[simp] theorem State.updPmb_tap (s : State) (f : Pmbus → Pmbus) : (s.updPmb f).tap = s.tap := rfl
@[simp] theorem State.updPmb_fresh (s : State) (f : Pmbus → Pmbus) : (s.updPmb f).fresh = s.fresh := rfl
@[simp] theorem State.updPmb_pending (s : State) (f : Pmbus → Pmbus) : (s.updPmb f).pending = s.pending := rfl
@[simp] theorem State.updObs_self (s : State) (f : Observe → Observe) : (s.updObs f).obs = f s.obs := rfl
@[simp] theorem State.updObs_time (s : State) (f : Observe → Observe) : (s.updObs f).time = s.time := rfl
@[simp] theorem State.updObs_inst (s : State) (f : Observe → Observe) : (s.updObs f).inst = s.inst := rfl
@[simp] theorem State.updObs_fuses (s : State) (f : Observe → Observe) : (s.updObs f).fuses = s.fuses := rfl
@[simp] theorem State.updObs_cfg (s : State) (f : Observe → Observe) : (s.updObs f).cfg = s.cfg := rfl
@[simp] theorem State.updObs_pend (s : State) (f : Observe → Observe) : (s.updObs f).pend = s.pend := rfl
@[simp] theorem State.updObs_decs (s : State) (f : Observe → Observe) : (s.updObs f).decs = s.decs := rfl
@[simp] theorem State.updObs_tiles (s : State) (f : Observe → Observe) : (s.updObs f).tiles = s.tiles := rfl
@[simp] theorem State.updObs_views (s : State) (f : Observe → Observe) : (s.updObs f).views = s.views := rfl
@[simp] theorem State.updObs_mittens (s : State) (f : Observe → Observe) : (s.updObs f).mittens = s.mittens := rfl
@[simp] theorem State.updObs_points (s : State) (f : Observe → Observe) : (s.updObs f).points = s.points := rfl
@[simp] theorem State.updObs_sensors (s : State) (f : Observe → Observe) : (s.updObs f).sensors = s.sensors := rfl
@[simp] theorem State.updObs_doms (s : State) (f : Observe → Observe) : (s.updObs f).doms = s.doms := rfl
@[simp] theorem State.updObs_tilePar (s : State) (f : Observe → Observe) : (s.updObs f).tilePar = s.tilePar := rfl
@[simp] theorem State.updObs_spine (s : State) (f : Observe → Observe) : (s.updObs f).spine = s.spine := rfl
@[simp] theorem State.updObs_tk (s : State) (f : Observe → Observe) : (s.updObs f).tk = s.tk := rfl
@[simp] theorem State.updObs_eng (s : State) (f : Observe → Observe) : (s.updObs f).eng = s.eng := rfl
@[simp] theorem State.updObs_lim (s : State) (f : Observe → Observe) : (s.updObs f).lim = s.lim := rfl
@[simp] theorem State.updObs_mgr (s : State) (f : Observe → Observe) : (s.updObs f).mgr = s.mgr := rfl
@[simp] theorem State.updObs_tth (s : State) (f : Observe → Observe) : (s.updObs f).tth = s.tth := rfl
@[simp] theorem State.updObs_flt (s : State) (f : Observe → Observe) : (s.updObs f).flt = s.flt := rfl
@[simp] theorem State.updObs_log (s : State) (f : Observe → Observe) : (s.updObs f).log = s.log := rfl
@[simp] theorem State.updObs_hk (s : State) (f : Observe → Observe) : (s.updObs f).hk = s.hk := rfl
@[simp] theorem State.updObs_pmb (s : State) (f : Observe → Observe) : (s.updObs f).pmb = s.pmb := rfl
@[simp] theorem State.updObs_host (s : State) (f : Observe → Observe) : (s.updObs f).host = s.host := rfl
@[simp] theorem State.updObs_tap (s : State) (f : Observe → Observe) : (s.updObs f).tap = s.tap := rfl
@[simp] theorem State.updObs_fresh (s : State) (f : Observe → Observe) : (s.updObs f).fresh = s.fresh := rfl
@[simp] theorem State.updObs_pending (s : State) (f : Observe → Observe) : (s.updObs f).pending = s.pending := rfl
@[simp] theorem State.updHost_self (s : State) (f : HostPort → HostPort) : (s.updHost f).host = f s.host := rfl
@[simp] theorem State.updHost_time (s : State) (f : HostPort → HostPort) : (s.updHost f).time = s.time := rfl
@[simp] theorem State.updHost_inst (s : State) (f : HostPort → HostPort) : (s.updHost f).inst = s.inst := rfl
@[simp] theorem State.updHost_fuses (s : State) (f : HostPort → HostPort) : (s.updHost f).fuses = s.fuses := rfl
@[simp] theorem State.updHost_cfg (s : State) (f : HostPort → HostPort) : (s.updHost f).cfg = s.cfg := rfl
@[simp] theorem State.updHost_pend (s : State) (f : HostPort → HostPort) : (s.updHost f).pend = s.pend := rfl
@[simp] theorem State.updHost_decs (s : State) (f : HostPort → HostPort) : (s.updHost f).decs = s.decs := rfl
@[simp] theorem State.updHost_tiles (s : State) (f : HostPort → HostPort) : (s.updHost f).tiles = s.tiles := rfl
@[simp] theorem State.updHost_views (s : State) (f : HostPort → HostPort) : (s.updHost f).views = s.views := rfl
@[simp] theorem State.updHost_mittens (s : State) (f : HostPort → HostPort) : (s.updHost f).mittens = s.mittens := rfl
@[simp] theorem State.updHost_points (s : State) (f : HostPort → HostPort) : (s.updHost f).points = s.points := rfl
@[simp] theorem State.updHost_sensors (s : State) (f : HostPort → HostPort) : (s.updHost f).sensors = s.sensors := rfl
@[simp] theorem State.updHost_doms (s : State) (f : HostPort → HostPort) : (s.updHost f).doms = s.doms := rfl
@[simp] theorem State.updHost_tilePar (s : State) (f : HostPort → HostPort) : (s.updHost f).tilePar = s.tilePar := rfl
@[simp] theorem State.updHost_spine (s : State) (f : HostPort → HostPort) : (s.updHost f).spine = s.spine := rfl
@[simp] theorem State.updHost_tk (s : State) (f : HostPort → HostPort) : (s.updHost f).tk = s.tk := rfl
@[simp] theorem State.updHost_eng (s : State) (f : HostPort → HostPort) : (s.updHost f).eng = s.eng := rfl
@[simp] theorem State.updHost_lim (s : State) (f : HostPort → HostPort) : (s.updHost f).lim = s.lim := rfl
@[simp] theorem State.updHost_mgr (s : State) (f : HostPort → HostPort) : (s.updHost f).mgr = s.mgr := rfl
@[simp] theorem State.updHost_tth (s : State) (f : HostPort → HostPort) : (s.updHost f).tth = s.tth := rfl
@[simp] theorem State.updHost_flt (s : State) (f : HostPort → HostPort) : (s.updHost f).flt = s.flt := rfl
@[simp] theorem State.updHost_log (s : State) (f : HostPort → HostPort) : (s.updHost f).log = s.log := rfl
@[simp] theorem State.updHost_hk (s : State) (f : HostPort → HostPort) : (s.updHost f).hk = s.hk := rfl
@[simp] theorem State.updHost_pmb (s : State) (f : HostPort → HostPort) : (s.updHost f).pmb = s.pmb := rfl
@[simp] theorem State.updHost_obs (s : State) (f : HostPort → HostPort) : (s.updHost f).obs = s.obs := rfl
@[simp] theorem State.updHost_tap (s : State) (f : HostPort → HostPort) : (s.updHost f).tap = s.tap := rfl
@[simp] theorem State.updHost_fresh (s : State) (f : HostPort → HostPort) : (s.updHost f).fresh = s.fresh := rfl
@[simp] theorem State.updHost_pending (s : State) (f : HostPort → HostPort) : (s.updHost f).pending = s.pending := rfl
@[simp] theorem State.updTap_self (s : State) (f : Tap → Tap) : (s.updTap f).tap = f s.tap := rfl
@[simp] theorem State.updTap_time (s : State) (f : Tap → Tap) : (s.updTap f).time = s.time := rfl
@[simp] theorem State.updTap_inst (s : State) (f : Tap → Tap) : (s.updTap f).inst = s.inst := rfl
@[simp] theorem State.updTap_fuses (s : State) (f : Tap → Tap) : (s.updTap f).fuses = s.fuses := rfl
@[simp] theorem State.updTap_cfg (s : State) (f : Tap → Tap) : (s.updTap f).cfg = s.cfg := rfl
@[simp] theorem State.updTap_pend (s : State) (f : Tap → Tap) : (s.updTap f).pend = s.pend := rfl
@[simp] theorem State.updTap_decs (s : State) (f : Tap → Tap) : (s.updTap f).decs = s.decs := rfl
@[simp] theorem State.updTap_tiles (s : State) (f : Tap → Tap) : (s.updTap f).tiles = s.tiles := rfl
@[simp] theorem State.updTap_views (s : State) (f : Tap → Tap) : (s.updTap f).views = s.views := rfl
@[simp] theorem State.updTap_mittens (s : State) (f : Tap → Tap) : (s.updTap f).mittens = s.mittens := rfl
@[simp] theorem State.updTap_points (s : State) (f : Tap → Tap) : (s.updTap f).points = s.points := rfl
@[simp] theorem State.updTap_sensors (s : State) (f : Tap → Tap) : (s.updTap f).sensors = s.sensors := rfl
@[simp] theorem State.updTap_doms (s : State) (f : Tap → Tap) : (s.updTap f).doms = s.doms := rfl
@[simp] theorem State.updTap_tilePar (s : State) (f : Tap → Tap) : (s.updTap f).tilePar = s.tilePar := rfl
@[simp] theorem State.updTap_spine (s : State) (f : Tap → Tap) : (s.updTap f).spine = s.spine := rfl
@[simp] theorem State.updTap_tk (s : State) (f : Tap → Tap) : (s.updTap f).tk = s.tk := rfl
@[simp] theorem State.updTap_eng (s : State) (f : Tap → Tap) : (s.updTap f).eng = s.eng := rfl
@[simp] theorem State.updTap_lim (s : State) (f : Tap → Tap) : (s.updTap f).lim = s.lim := rfl
@[simp] theorem State.updTap_mgr (s : State) (f : Tap → Tap) : (s.updTap f).mgr = s.mgr := rfl
@[simp] theorem State.updTap_tth (s : State) (f : Tap → Tap) : (s.updTap f).tth = s.tth := rfl
@[simp] theorem State.updTap_flt (s : State) (f : Tap → Tap) : (s.updTap f).flt = s.flt := rfl
@[simp] theorem State.updTap_log (s : State) (f : Tap → Tap) : (s.updTap f).log = s.log := rfl
@[simp] theorem State.updTap_hk (s : State) (f : Tap → Tap) : (s.updTap f).hk = s.hk := rfl
@[simp] theorem State.updTap_pmb (s : State) (f : Tap → Tap) : (s.updTap f).pmb = s.pmb := rfl
@[simp] theorem State.updTap_obs (s : State) (f : Tap → Tap) : (s.updTap f).obs = s.obs := rfl
@[simp] theorem State.updTap_host (s : State) (f : Tap → Tap) : (s.updTap f).host = s.host := rfl
@[simp] theorem State.updTap_fresh (s : State) (f : Tap → Tap) : (s.updTap f).fresh = s.fresh := rfl
@[simp] theorem State.updTap_pending (s : State) (f : Tap → Tap) : (s.updTap f).pending = s.pending := rfl
@[simp] theorem State.setTile_time (s : State) (k : Nat) (v : Tile) : (s.setTile k v).time = s.time := rfl
@[simp] theorem State.updTile_time (s : State) (k : Nat) (f : Tile → Tile) : (s.updTile k f).time = s.time := rfl
@[simp] theorem State.setTile_inst (s : State) (k : Nat) (v : Tile) : (s.setTile k v).inst = s.inst := rfl
@[simp] theorem State.updTile_inst (s : State) (k : Nat) (f : Tile → Tile) : (s.updTile k f).inst = s.inst := rfl
@[simp] theorem State.setTile_fuses (s : State) (k : Nat) (v : Tile) : (s.setTile k v).fuses = s.fuses := rfl
@[simp] theorem State.updTile_fuses (s : State) (k : Nat) (f : Tile → Tile) : (s.updTile k f).fuses = s.fuses := rfl
@[simp] theorem State.setTile_cfg (s : State) (k : Nat) (v : Tile) : (s.setTile k v).cfg = s.cfg := rfl
@[simp] theorem State.updTile_cfg (s : State) (k : Nat) (f : Tile → Tile) : (s.updTile k f).cfg = s.cfg := rfl
@[simp] theorem State.setTile_pend (s : State) (k : Nat) (v : Tile) : (s.setTile k v).pend = s.pend := rfl
@[simp] theorem State.updTile_pend (s : State) (k : Nat) (f : Tile → Tile) : (s.updTile k f).pend = s.pend := rfl
@[simp] theorem State.setTile_decs (s : State) (k : Nat) (v : Tile) : (s.setTile k v).decs = s.decs := rfl
@[simp] theorem State.updTile_decs (s : State) (k : Nat) (f : Tile → Tile) : (s.updTile k f).decs = s.decs := rfl
@[simp] theorem State.setTile_views (s : State) (k : Nat) (v : Tile) : (s.setTile k v).views = s.views := rfl
@[simp] theorem State.updTile_views (s : State) (k : Nat) (f : Tile → Tile) : (s.updTile k f).views = s.views := rfl
@[simp] theorem State.setTile_mittens (s : State) (k : Nat) (v : Tile) : (s.setTile k v).mittens = s.mittens := rfl
@[simp] theorem State.updTile_mittens (s : State) (k : Nat) (f : Tile → Tile) : (s.updTile k f).mittens = s.mittens := rfl
@[simp] theorem State.setTile_points (s : State) (k : Nat) (v : Tile) : (s.setTile k v).points = s.points := rfl
@[simp] theorem State.updTile_points (s : State) (k : Nat) (f : Tile → Tile) : (s.updTile k f).points = s.points := rfl
@[simp] theorem State.setTile_sensors (s : State) (k : Nat) (v : Tile) : (s.setTile k v).sensors = s.sensors := rfl
@[simp] theorem State.updTile_sensors (s : State) (k : Nat) (f : Tile → Tile) : (s.updTile k f).sensors = s.sensors := rfl
@[simp] theorem State.setTile_doms (s : State) (k : Nat) (v : Tile) : (s.setTile k v).doms = s.doms := rfl
@[simp] theorem State.updTile_doms (s : State) (k : Nat) (f : Tile → Tile) : (s.updTile k f).doms = s.doms := rfl
@[simp] theorem State.setTile_tilePar (s : State) (k : Nat) (v : Tile) : (s.setTile k v).tilePar = s.tilePar := rfl
@[simp] theorem State.updTile_tilePar (s : State) (k : Nat) (f : Tile → Tile) : (s.updTile k f).tilePar = s.tilePar := rfl
@[simp] theorem State.setTile_spine (s : State) (k : Nat) (v : Tile) : (s.setTile k v).spine = s.spine := rfl
@[simp] theorem State.updTile_spine (s : State) (k : Nat) (f : Tile → Tile) : (s.updTile k f).spine = s.spine := rfl
@[simp] theorem State.setTile_tk (s : State) (k : Nat) (v : Tile) : (s.setTile k v).tk = s.tk := rfl
@[simp] theorem State.updTile_tk (s : State) (k : Nat) (f : Tile → Tile) : (s.updTile k f).tk = s.tk := rfl
@[simp] theorem State.setTile_eng (s : State) (k : Nat) (v : Tile) : (s.setTile k v).eng = s.eng := rfl
@[simp] theorem State.updTile_eng (s : State) (k : Nat) (f : Tile → Tile) : (s.updTile k f).eng = s.eng := rfl
@[simp] theorem State.setTile_lim (s : State) (k : Nat) (v : Tile) : (s.setTile k v).lim = s.lim := rfl
@[simp] theorem State.updTile_lim (s : State) (k : Nat) (f : Tile → Tile) : (s.updTile k f).lim = s.lim := rfl
@[simp] theorem State.setTile_mgr (s : State) (k : Nat) (v : Tile) : (s.setTile k v).mgr = s.mgr := rfl
@[simp] theorem State.updTile_mgr (s : State) (k : Nat) (f : Tile → Tile) : (s.updTile k f).mgr = s.mgr := rfl
@[simp] theorem State.setTile_tth (s : State) (k : Nat) (v : Tile) : (s.setTile k v).tth = s.tth := rfl
@[simp] theorem State.updTile_tth (s : State) (k : Nat) (f : Tile → Tile) : (s.updTile k f).tth = s.tth := rfl
@[simp] theorem State.setTile_flt (s : State) (k : Nat) (v : Tile) : (s.setTile k v).flt = s.flt := rfl
@[simp] theorem State.updTile_flt (s : State) (k : Nat) (f : Tile → Tile) : (s.updTile k f).flt = s.flt := rfl
@[simp] theorem State.setTile_log (s : State) (k : Nat) (v : Tile) : (s.setTile k v).log = s.log := rfl
@[simp] theorem State.updTile_log (s : State) (k : Nat) (f : Tile → Tile) : (s.updTile k f).log = s.log := rfl
@[simp] theorem State.setTile_hk (s : State) (k : Nat) (v : Tile) : (s.setTile k v).hk = s.hk := rfl
@[simp] theorem State.updTile_hk (s : State) (k : Nat) (f : Tile → Tile) : (s.updTile k f).hk = s.hk := rfl
@[simp] theorem State.setTile_pmb (s : State) (k : Nat) (v : Tile) : (s.setTile k v).pmb = s.pmb := rfl
@[simp] theorem State.updTile_pmb (s : State) (k : Nat) (f : Tile → Tile) : (s.updTile k f).pmb = s.pmb := rfl
@[simp] theorem State.setTile_obs (s : State) (k : Nat) (v : Tile) : (s.setTile k v).obs = s.obs := rfl
@[simp] theorem State.updTile_obs (s : State) (k : Nat) (f : Tile → Tile) : (s.updTile k f).obs = s.obs := rfl
@[simp] theorem State.setTile_host (s : State) (k : Nat) (v : Tile) : (s.setTile k v).host = s.host := rfl
@[simp] theorem State.updTile_host (s : State) (k : Nat) (f : Tile → Tile) : (s.updTile k f).host = s.host := rfl
@[simp] theorem State.setTile_tap (s : State) (k : Nat) (v : Tile) : (s.setTile k v).tap = s.tap := rfl
@[simp] theorem State.updTile_tap (s : State) (k : Nat) (f : Tile → Tile) : (s.updTile k f).tap = s.tap := rfl
@[simp] theorem State.setTile_fresh (s : State) (k : Nat) (v : Tile) : (s.setTile k v).fresh = s.fresh := rfl
@[simp] theorem State.updTile_fresh (s : State) (k : Nat) (f : Tile → Tile) : (s.updTile k f).fresh = s.fresh := rfl
@[simp] theorem State.setTile_pending (s : State) (k : Nat) (v : Tile) : (s.setTile k v).pending = s.pending := rfl
@[simp] theorem State.updTile_pending (s : State) (k : Nat) (f : Tile → Tile) : (s.updTile k f).pending = s.pending := rfl
@[simp] theorem State.setView_time (s : State) (k : Nat) (v : TView) : (s.setView k v).time = s.time := rfl
@[simp] theorem State.updView_time (s : State) (k : Nat) (f : TView → TView) : (s.updView k f).time = s.time := rfl
@[simp] theorem State.setView_inst (s : State) (k : Nat) (v : TView) : (s.setView k v).inst = s.inst := rfl
@[simp] theorem State.updView_inst (s : State) (k : Nat) (f : TView → TView) : (s.updView k f).inst = s.inst := rfl
@[simp] theorem State.setView_fuses (s : State) (k : Nat) (v : TView) : (s.setView k v).fuses = s.fuses := rfl
@[simp] theorem State.updView_fuses (s : State) (k : Nat) (f : TView → TView) : (s.updView k f).fuses = s.fuses := rfl
@[simp] theorem State.setView_cfg (s : State) (k : Nat) (v : TView) : (s.setView k v).cfg = s.cfg := rfl
@[simp] theorem State.updView_cfg (s : State) (k : Nat) (f : TView → TView) : (s.updView k f).cfg = s.cfg := rfl
@[simp] theorem State.setView_pend (s : State) (k : Nat) (v : TView) : (s.setView k v).pend = s.pend := rfl
@[simp] theorem State.updView_pend (s : State) (k : Nat) (f : TView → TView) : (s.updView k f).pend = s.pend := rfl
@[simp] theorem State.setView_decs (s : State) (k : Nat) (v : TView) : (s.setView k v).decs = s.decs := rfl
@[simp] theorem State.updView_decs (s : State) (k : Nat) (f : TView → TView) : (s.updView k f).decs = s.decs := rfl
@[simp] theorem State.setView_tiles (s : State) (k : Nat) (v : TView) : (s.setView k v).tiles = s.tiles := rfl
@[simp] theorem State.updView_tiles (s : State) (k : Nat) (f : TView → TView) : (s.updView k f).tiles = s.tiles := rfl
@[simp] theorem State.setView_mittens (s : State) (k : Nat) (v : TView) : (s.setView k v).mittens = s.mittens := rfl
@[simp] theorem State.updView_mittens (s : State) (k : Nat) (f : TView → TView) : (s.updView k f).mittens = s.mittens := rfl
@[simp] theorem State.setView_points (s : State) (k : Nat) (v : TView) : (s.setView k v).points = s.points := rfl
@[simp] theorem State.updView_points (s : State) (k : Nat) (f : TView → TView) : (s.updView k f).points = s.points := rfl
@[simp] theorem State.setView_sensors (s : State) (k : Nat) (v : TView) : (s.setView k v).sensors = s.sensors := rfl
@[simp] theorem State.updView_sensors (s : State) (k : Nat) (f : TView → TView) : (s.updView k f).sensors = s.sensors := rfl
@[simp] theorem State.setView_doms (s : State) (k : Nat) (v : TView) : (s.setView k v).doms = s.doms := rfl
@[simp] theorem State.updView_doms (s : State) (k : Nat) (f : TView → TView) : (s.updView k f).doms = s.doms := rfl
@[simp] theorem State.setView_tilePar (s : State) (k : Nat) (v : TView) : (s.setView k v).tilePar = s.tilePar := rfl
@[simp] theorem State.updView_tilePar (s : State) (k : Nat) (f : TView → TView) : (s.updView k f).tilePar = s.tilePar := rfl
@[simp] theorem State.setView_spine (s : State) (k : Nat) (v : TView) : (s.setView k v).spine = s.spine := rfl
@[simp] theorem State.updView_spine (s : State) (k : Nat) (f : TView → TView) : (s.updView k f).spine = s.spine := rfl
@[simp] theorem State.setView_tk (s : State) (k : Nat) (v : TView) : (s.setView k v).tk = s.tk := rfl
@[simp] theorem State.updView_tk (s : State) (k : Nat) (f : TView → TView) : (s.updView k f).tk = s.tk := rfl
@[simp] theorem State.setView_eng (s : State) (k : Nat) (v : TView) : (s.setView k v).eng = s.eng := rfl
@[simp] theorem State.updView_eng (s : State) (k : Nat) (f : TView → TView) : (s.updView k f).eng = s.eng := rfl
@[simp] theorem State.setView_lim (s : State) (k : Nat) (v : TView) : (s.setView k v).lim = s.lim := rfl
@[simp] theorem State.updView_lim (s : State) (k : Nat) (f : TView → TView) : (s.updView k f).lim = s.lim := rfl
@[simp] theorem State.setView_mgr (s : State) (k : Nat) (v : TView) : (s.setView k v).mgr = s.mgr := rfl
@[simp] theorem State.updView_mgr (s : State) (k : Nat) (f : TView → TView) : (s.updView k f).mgr = s.mgr := rfl
@[simp] theorem State.setView_tth (s : State) (k : Nat) (v : TView) : (s.setView k v).tth = s.tth := rfl
@[simp] theorem State.updView_tth (s : State) (k : Nat) (f : TView → TView) : (s.updView k f).tth = s.tth := rfl
@[simp] theorem State.setView_flt (s : State) (k : Nat) (v : TView) : (s.setView k v).flt = s.flt := rfl
@[simp] theorem State.updView_flt (s : State) (k : Nat) (f : TView → TView) : (s.updView k f).flt = s.flt := rfl
@[simp] theorem State.setView_log (s : State) (k : Nat) (v : TView) : (s.setView k v).log = s.log := rfl
@[simp] theorem State.updView_log (s : State) (k : Nat) (f : TView → TView) : (s.updView k f).log = s.log := rfl
@[simp] theorem State.setView_hk (s : State) (k : Nat) (v : TView) : (s.setView k v).hk = s.hk := rfl
@[simp] theorem State.updView_hk (s : State) (k : Nat) (f : TView → TView) : (s.updView k f).hk = s.hk := rfl
@[simp] theorem State.setView_pmb (s : State) (k : Nat) (v : TView) : (s.setView k v).pmb = s.pmb := rfl
@[simp] theorem State.updView_pmb (s : State) (k : Nat) (f : TView → TView) : (s.updView k f).pmb = s.pmb := rfl
@[simp] theorem State.setView_obs (s : State) (k : Nat) (v : TView) : (s.setView k v).obs = s.obs := rfl
@[simp] theorem State.updView_obs (s : State) (k : Nat) (f : TView → TView) : (s.updView k f).obs = s.obs := rfl
@[simp] theorem State.setView_host (s : State) (k : Nat) (v : TView) : (s.setView k v).host = s.host := rfl
@[simp] theorem State.updView_host (s : State) (k : Nat) (f : TView → TView) : (s.updView k f).host = s.host := rfl
@[simp] theorem State.setView_tap (s : State) (k : Nat) (v : TView) : (s.setView k v).tap = s.tap := rfl
@[simp] theorem State.updView_tap (s : State) (k : Nat) (f : TView → TView) : (s.updView k f).tap = s.tap := rfl
@[simp] theorem State.setView_fresh (s : State) (k : Nat) (v : TView) : (s.setView k v).fresh = s.fresh := rfl
@[simp] theorem State.updView_fresh (s : State) (k : Nat) (f : TView → TView) : (s.updView k f).fresh = s.fresh := rfl
@[simp] theorem State.setView_pending (s : State) (k : Nat) (v : TView) : (s.setView k v).pending = s.pending := rfl
@[simp] theorem State.updView_pending (s : State) (k : Nat) (f : TView → TView) : (s.updView k f).pending = s.pending := rfl
@[simp] theorem State.setMitten_time (s : State) (k : Nat) (v : Mitten) : (s.setMitten k v).time = s.time := rfl
@[simp] theorem State.updMitten_time (s : State) (k : Nat) (f : Mitten → Mitten) : (s.updMitten k f).time = s.time := rfl
@[simp] theorem State.setMitten_inst (s : State) (k : Nat) (v : Mitten) : (s.setMitten k v).inst = s.inst := rfl
@[simp] theorem State.updMitten_inst (s : State) (k : Nat) (f : Mitten → Mitten) : (s.updMitten k f).inst = s.inst := rfl
@[simp] theorem State.setMitten_fuses (s : State) (k : Nat) (v : Mitten) : (s.setMitten k v).fuses = s.fuses := rfl
@[simp] theorem State.updMitten_fuses (s : State) (k : Nat) (f : Mitten → Mitten) : (s.updMitten k f).fuses = s.fuses := rfl
@[simp] theorem State.setMitten_cfg (s : State) (k : Nat) (v : Mitten) : (s.setMitten k v).cfg = s.cfg := rfl
@[simp] theorem State.updMitten_cfg (s : State) (k : Nat) (f : Mitten → Mitten) : (s.updMitten k f).cfg = s.cfg := rfl
@[simp] theorem State.setMitten_pend (s : State) (k : Nat) (v : Mitten) : (s.setMitten k v).pend = s.pend := rfl
@[simp] theorem State.updMitten_pend (s : State) (k : Nat) (f : Mitten → Mitten) : (s.updMitten k f).pend = s.pend := rfl
@[simp] theorem State.setMitten_decs (s : State) (k : Nat) (v : Mitten) : (s.setMitten k v).decs = s.decs := rfl
@[simp] theorem State.updMitten_decs (s : State) (k : Nat) (f : Mitten → Mitten) : (s.updMitten k f).decs = s.decs := rfl
@[simp] theorem State.setMitten_tiles (s : State) (k : Nat) (v : Mitten) : (s.setMitten k v).tiles = s.tiles := rfl
@[simp] theorem State.updMitten_tiles (s : State) (k : Nat) (f : Mitten → Mitten) : (s.updMitten k f).tiles = s.tiles := rfl
@[simp] theorem State.setMitten_views (s : State) (k : Nat) (v : Mitten) : (s.setMitten k v).views = s.views := rfl
@[simp] theorem State.updMitten_views (s : State) (k : Nat) (f : Mitten → Mitten) : (s.updMitten k f).views = s.views := rfl
@[simp] theorem State.setMitten_points (s : State) (k : Nat) (v : Mitten) : (s.setMitten k v).points = s.points := rfl
@[simp] theorem State.updMitten_points (s : State) (k : Nat) (f : Mitten → Mitten) : (s.updMitten k f).points = s.points := rfl
@[simp] theorem State.setMitten_sensors (s : State) (k : Nat) (v : Mitten) : (s.setMitten k v).sensors = s.sensors := rfl
@[simp] theorem State.updMitten_sensors (s : State) (k : Nat) (f : Mitten → Mitten) : (s.updMitten k f).sensors = s.sensors := rfl
@[simp] theorem State.setMitten_doms (s : State) (k : Nat) (v : Mitten) : (s.setMitten k v).doms = s.doms := rfl
@[simp] theorem State.updMitten_doms (s : State) (k : Nat) (f : Mitten → Mitten) : (s.updMitten k f).doms = s.doms := rfl
@[simp] theorem State.setMitten_tilePar (s : State) (k : Nat) (v : Mitten) : (s.setMitten k v).tilePar = s.tilePar := rfl
@[simp] theorem State.updMitten_tilePar (s : State) (k : Nat) (f : Mitten → Mitten) : (s.updMitten k f).tilePar = s.tilePar := rfl
@[simp] theorem State.setMitten_spine (s : State) (k : Nat) (v : Mitten) : (s.setMitten k v).spine = s.spine := rfl
@[simp] theorem State.updMitten_spine (s : State) (k : Nat) (f : Mitten → Mitten) : (s.updMitten k f).spine = s.spine := rfl
@[simp] theorem State.setMitten_tk (s : State) (k : Nat) (v : Mitten) : (s.setMitten k v).tk = s.tk := rfl
@[simp] theorem State.updMitten_tk (s : State) (k : Nat) (f : Mitten → Mitten) : (s.updMitten k f).tk = s.tk := rfl
@[simp] theorem State.setMitten_eng (s : State) (k : Nat) (v : Mitten) : (s.setMitten k v).eng = s.eng := rfl
@[simp] theorem State.updMitten_eng (s : State) (k : Nat) (f : Mitten → Mitten) : (s.updMitten k f).eng = s.eng := rfl
@[simp] theorem State.setMitten_lim (s : State) (k : Nat) (v : Mitten) : (s.setMitten k v).lim = s.lim := rfl
@[simp] theorem State.updMitten_lim (s : State) (k : Nat) (f : Mitten → Mitten) : (s.updMitten k f).lim = s.lim := rfl
@[simp] theorem State.setMitten_mgr (s : State) (k : Nat) (v : Mitten) : (s.setMitten k v).mgr = s.mgr := rfl
@[simp] theorem State.updMitten_mgr (s : State) (k : Nat) (f : Mitten → Mitten) : (s.updMitten k f).mgr = s.mgr := rfl
@[simp] theorem State.setMitten_tth (s : State) (k : Nat) (v : Mitten) : (s.setMitten k v).tth = s.tth := rfl
@[simp] theorem State.updMitten_tth (s : State) (k : Nat) (f : Mitten → Mitten) : (s.updMitten k f).tth = s.tth := rfl
@[simp] theorem State.setMitten_flt (s : State) (k : Nat) (v : Mitten) : (s.setMitten k v).flt = s.flt := rfl
@[simp] theorem State.updMitten_flt (s : State) (k : Nat) (f : Mitten → Mitten) : (s.updMitten k f).flt = s.flt := rfl
@[simp] theorem State.setMitten_log (s : State) (k : Nat) (v : Mitten) : (s.setMitten k v).log = s.log := rfl
@[simp] theorem State.updMitten_log (s : State) (k : Nat) (f : Mitten → Mitten) : (s.updMitten k f).log = s.log := rfl
@[simp] theorem State.setMitten_hk (s : State) (k : Nat) (v : Mitten) : (s.setMitten k v).hk = s.hk := rfl
@[simp] theorem State.updMitten_hk (s : State) (k : Nat) (f : Mitten → Mitten) : (s.updMitten k f).hk = s.hk := rfl
@[simp] theorem State.setMitten_pmb (s : State) (k : Nat) (v : Mitten) : (s.setMitten k v).pmb = s.pmb := rfl
@[simp] theorem State.updMitten_pmb (s : State) (k : Nat) (f : Mitten → Mitten) : (s.updMitten k f).pmb = s.pmb := rfl
@[simp] theorem State.setMitten_obs (s : State) (k : Nat) (v : Mitten) : (s.setMitten k v).obs = s.obs := rfl
@[simp] theorem State.updMitten_obs (s : State) (k : Nat) (f : Mitten → Mitten) : (s.updMitten k f).obs = s.obs := rfl
@[simp] theorem State.setMitten_host (s : State) (k : Nat) (v : Mitten) : (s.setMitten k v).host = s.host := rfl
@[simp] theorem State.updMitten_host (s : State) (k : Nat) (f : Mitten → Mitten) : (s.updMitten k f).host = s.host := rfl
@[simp] theorem State.setMitten_tap (s : State) (k : Nat) (v : Mitten) : (s.setMitten k v).tap = s.tap := rfl
@[simp] theorem State.updMitten_tap (s : State) (k : Nat) (f : Mitten → Mitten) : (s.updMitten k f).tap = s.tap := rfl
@[simp] theorem State.setMitten_fresh (s : State) (k : Nat) (v : Mitten) : (s.setMitten k v).fresh = s.fresh := rfl
@[simp] theorem State.updMitten_fresh (s : State) (k : Nat) (f : Mitten → Mitten) : (s.updMitten k f).fresh = s.fresh := rfl
@[simp] theorem State.setMitten_pending (s : State) (k : Nat) (v : Mitten) : (s.setMitten k v).pending = s.pending := rfl
@[simp] theorem State.updMitten_pending (s : State) (k : Nat) (f : Mitten → Mitten) : (s.updMitten k f).pending = s.pending := rfl
@[simp] theorem State.setPoint_time (s : State) (k : Nat) (v : Point) : (s.setPoint k v).time = s.time := rfl
@[simp] theorem State.updPoint_time (s : State) (k : Nat) (f : Point → Point) : (s.updPoint k f).time = s.time := rfl
@[simp] theorem State.setPoint_inst (s : State) (k : Nat) (v : Point) : (s.setPoint k v).inst = s.inst := rfl
@[simp] theorem State.updPoint_inst (s : State) (k : Nat) (f : Point → Point) : (s.updPoint k f).inst = s.inst := rfl
@[simp] theorem State.setPoint_fuses (s : State) (k : Nat) (v : Point) : (s.setPoint k v).fuses = s.fuses := rfl
@[simp] theorem State.updPoint_fuses (s : State) (k : Nat) (f : Point → Point) : (s.updPoint k f).fuses = s.fuses := rfl
@[simp] theorem State.setPoint_cfg (s : State) (k : Nat) (v : Point) : (s.setPoint k v).cfg = s.cfg := rfl
@[simp] theorem State.updPoint_cfg (s : State) (k : Nat) (f : Point → Point) : (s.updPoint k f).cfg = s.cfg := rfl
@[simp] theorem State.setPoint_pend (s : State) (k : Nat) (v : Point) : (s.setPoint k v).pend = s.pend := rfl
@[simp] theorem State.updPoint_pend (s : State) (k : Nat) (f : Point → Point) : (s.updPoint k f).pend = s.pend := rfl
@[simp] theorem State.setPoint_decs (s : State) (k : Nat) (v : Point) : (s.setPoint k v).decs = s.decs := rfl
@[simp] theorem State.updPoint_decs (s : State) (k : Nat) (f : Point → Point) : (s.updPoint k f).decs = s.decs := rfl
@[simp] theorem State.setPoint_tiles (s : State) (k : Nat) (v : Point) : (s.setPoint k v).tiles = s.tiles := rfl
@[simp] theorem State.updPoint_tiles (s : State) (k : Nat) (f : Point → Point) : (s.updPoint k f).tiles = s.tiles := rfl
@[simp] theorem State.setPoint_views (s : State) (k : Nat) (v : Point) : (s.setPoint k v).views = s.views := rfl
@[simp] theorem State.updPoint_views (s : State) (k : Nat) (f : Point → Point) : (s.updPoint k f).views = s.views := rfl
@[simp] theorem State.setPoint_mittens (s : State) (k : Nat) (v : Point) : (s.setPoint k v).mittens = s.mittens := rfl
@[simp] theorem State.updPoint_mittens (s : State) (k : Nat) (f : Point → Point) : (s.updPoint k f).mittens = s.mittens := rfl
@[simp] theorem State.setPoint_sensors (s : State) (k : Nat) (v : Point) : (s.setPoint k v).sensors = s.sensors := rfl
@[simp] theorem State.updPoint_sensors (s : State) (k : Nat) (f : Point → Point) : (s.updPoint k f).sensors = s.sensors := rfl
@[simp] theorem State.setPoint_doms (s : State) (k : Nat) (v : Point) : (s.setPoint k v).doms = s.doms := rfl
@[simp] theorem State.updPoint_doms (s : State) (k : Nat) (f : Point → Point) : (s.updPoint k f).doms = s.doms := rfl
@[simp] theorem State.setPoint_tilePar (s : State) (k : Nat) (v : Point) : (s.setPoint k v).tilePar = s.tilePar := rfl
@[simp] theorem State.updPoint_tilePar (s : State) (k : Nat) (f : Point → Point) : (s.updPoint k f).tilePar = s.tilePar := rfl
@[simp] theorem State.setPoint_spine (s : State) (k : Nat) (v : Point) : (s.setPoint k v).spine = s.spine := rfl
@[simp] theorem State.updPoint_spine (s : State) (k : Nat) (f : Point → Point) : (s.updPoint k f).spine = s.spine := rfl
@[simp] theorem State.setPoint_tk (s : State) (k : Nat) (v : Point) : (s.setPoint k v).tk = s.tk := rfl
@[simp] theorem State.updPoint_tk (s : State) (k : Nat) (f : Point → Point) : (s.updPoint k f).tk = s.tk := rfl
@[simp] theorem State.setPoint_eng (s : State) (k : Nat) (v : Point) : (s.setPoint k v).eng = s.eng := rfl
@[simp] theorem State.updPoint_eng (s : State) (k : Nat) (f : Point → Point) : (s.updPoint k f).eng = s.eng := rfl
@[simp] theorem State.setPoint_lim (s : State) (k : Nat) (v : Point) : (s.setPoint k v).lim = s.lim := rfl
@[simp] theorem State.updPoint_lim (s : State) (k : Nat) (f : Point → Point) : (s.updPoint k f).lim = s.lim := rfl
@[simp] theorem State.setPoint_mgr (s : State) (k : Nat) (v : Point) : (s.setPoint k v).mgr = s.mgr := rfl
@[simp] theorem State.updPoint_mgr (s : State) (k : Nat) (f : Point → Point) : (s.updPoint k f).mgr = s.mgr := rfl
@[simp] theorem State.setPoint_tth (s : State) (k : Nat) (v : Point) : (s.setPoint k v).tth = s.tth := rfl
@[simp] theorem State.updPoint_tth (s : State) (k : Nat) (f : Point → Point) : (s.updPoint k f).tth = s.tth := rfl
@[simp] theorem State.setPoint_flt (s : State) (k : Nat) (v : Point) : (s.setPoint k v).flt = s.flt := rfl
@[simp] theorem State.updPoint_flt (s : State) (k : Nat) (f : Point → Point) : (s.updPoint k f).flt = s.flt := rfl
@[simp] theorem State.setPoint_log (s : State) (k : Nat) (v : Point) : (s.setPoint k v).log = s.log := rfl
@[simp] theorem State.updPoint_log (s : State) (k : Nat) (f : Point → Point) : (s.updPoint k f).log = s.log := rfl
@[simp] theorem State.setPoint_hk (s : State) (k : Nat) (v : Point) : (s.setPoint k v).hk = s.hk := rfl
@[simp] theorem State.updPoint_hk (s : State) (k : Nat) (f : Point → Point) : (s.updPoint k f).hk = s.hk := rfl
@[simp] theorem State.setPoint_pmb (s : State) (k : Nat) (v : Point) : (s.setPoint k v).pmb = s.pmb := rfl
@[simp] theorem State.updPoint_pmb (s : State) (k : Nat) (f : Point → Point) : (s.updPoint k f).pmb = s.pmb := rfl
@[simp] theorem State.setPoint_obs (s : State) (k : Nat) (v : Point) : (s.setPoint k v).obs = s.obs := rfl
@[simp] theorem State.updPoint_obs (s : State) (k : Nat) (f : Point → Point) : (s.updPoint k f).obs = s.obs := rfl
@[simp] theorem State.setPoint_host (s : State) (k : Nat) (v : Point) : (s.setPoint k v).host = s.host := rfl
@[simp] theorem State.updPoint_host (s : State) (k : Nat) (f : Point → Point) : (s.updPoint k f).host = s.host := rfl
@[simp] theorem State.setPoint_tap (s : State) (k : Nat) (v : Point) : (s.setPoint k v).tap = s.tap := rfl
@[simp] theorem State.updPoint_tap (s : State) (k : Nat) (f : Point → Point) : (s.updPoint k f).tap = s.tap := rfl
@[simp] theorem State.setPoint_fresh (s : State) (k : Nat) (v : Point) : (s.setPoint k v).fresh = s.fresh := rfl
@[simp] theorem State.updPoint_fresh (s : State) (k : Nat) (f : Point → Point) : (s.updPoint k f).fresh = s.fresh := rfl
@[simp] theorem State.setPoint_pending (s : State) (k : Nat) (v : Point) : (s.setPoint k v).pending = s.pending := rfl
@[simp] theorem State.updPoint_pending (s : State) (k : Nat) (f : Point → Point) : (s.updPoint k f).pending = s.pending := rfl
@[simp] theorem State.setSensor_time (s : State) (k : Nat) (v : Sensor) : (s.setSensor k v).time = s.time := rfl
@[simp] theorem State.setSensor_inst (s : State) (k : Nat) (v : Sensor) : (s.setSensor k v).inst = s.inst := rfl
@[simp] theorem State.setSensor_fuses (s : State) (k : Nat) (v : Sensor) : (s.setSensor k v).fuses = s.fuses := rfl
@[simp] theorem State.setSensor_cfg (s : State) (k : Nat) (v : Sensor) : (s.setSensor k v).cfg = s.cfg := rfl
@[simp] theorem State.setSensor_pend (s : State) (k : Nat) (v : Sensor) : (s.setSensor k v).pend = s.pend := rfl
@[simp] theorem State.setSensor_decs (s : State) (k : Nat) (v : Sensor) : (s.setSensor k v).decs = s.decs := rfl
@[simp] theorem State.setSensor_tiles (s : State) (k : Nat) (v : Sensor) : (s.setSensor k v).tiles = s.tiles := rfl
@[simp] theorem State.setSensor_views (s : State) (k : Nat) (v : Sensor) : (s.setSensor k v).views = s.views := rfl
@[simp] theorem State.setSensor_mittens (s : State) (k : Nat) (v : Sensor) : (s.setSensor k v).mittens = s.mittens := rfl
@[simp] theorem State.setSensor_points (s : State) (k : Nat) (v : Sensor) : (s.setSensor k v).points = s.points := rfl
@[simp] theorem State.setSensor_doms (s : State) (k : Nat) (v : Sensor) : (s.setSensor k v).doms = s.doms := rfl
@[simp] theorem State.setSensor_tilePar (s : State) (k : Nat) (v : Sensor) : (s.setSensor k v).tilePar = s.tilePar := rfl
@[simp] theorem State.setSensor_spine (s : State) (k : Nat) (v : Sensor) : (s.setSensor k v).spine = s.spine := rfl
@[simp] theorem State.setSensor_tk (s : State) (k : Nat) (v : Sensor) : (s.setSensor k v).tk = s.tk := rfl
@[simp] theorem State.setSensor_eng (s : State) (k : Nat) (v : Sensor) : (s.setSensor k v).eng = s.eng := rfl
@[simp] theorem State.setSensor_lim (s : State) (k : Nat) (v : Sensor) : (s.setSensor k v).lim = s.lim := rfl
@[simp] theorem State.setSensor_mgr (s : State) (k : Nat) (v : Sensor) : (s.setSensor k v).mgr = s.mgr := rfl
@[simp] theorem State.setSensor_tth (s : State) (k : Nat) (v : Sensor) : (s.setSensor k v).tth = s.tth := rfl
@[simp] theorem State.setSensor_flt (s : State) (k : Nat) (v : Sensor) : (s.setSensor k v).flt = s.flt := rfl
@[simp] theorem State.setSensor_log (s : State) (k : Nat) (v : Sensor) : (s.setSensor k v).log = s.log := rfl
@[simp] theorem State.setSensor_hk (s : State) (k : Nat) (v : Sensor) : (s.setSensor k v).hk = s.hk := rfl
@[simp] theorem State.setSensor_pmb (s : State) (k : Nat) (v : Sensor) : (s.setSensor k v).pmb = s.pmb := rfl
@[simp] theorem State.setSensor_obs (s : State) (k : Nat) (v : Sensor) : (s.setSensor k v).obs = s.obs := rfl
@[simp] theorem State.setSensor_host (s : State) (k : Nat) (v : Sensor) : (s.setSensor k v).host = s.host := rfl
@[simp] theorem State.setSensor_tap (s : State) (k : Nat) (v : Sensor) : (s.setSensor k v).tap = s.tap := rfl
@[simp] theorem State.setSensor_fresh (s : State) (k : Nat) (v : Sensor) : (s.setSensor k v).fresh = s.fresh := rfl
@[simp] theorem State.setSensor_pending (s : State) (k : Nat) (v : Sensor) : (s.setSensor k v).pending = s.pending := rfl
@[simp] theorem State.setDom_time (s : State) (k : Nat) (v : Dom) : (s.setDom k v).time = s.time := rfl
@[simp] theorem State.updDom_time (s : State) (k : Nat) (f : Dom → Dom) : (s.updDom k f).time = s.time := rfl
@[simp] theorem State.setDom_inst (s : State) (k : Nat) (v : Dom) : (s.setDom k v).inst = s.inst := rfl
@[simp] theorem State.updDom_inst (s : State) (k : Nat) (f : Dom → Dom) : (s.updDom k f).inst = s.inst := rfl
@[simp] theorem State.setDom_fuses (s : State) (k : Nat) (v : Dom) : (s.setDom k v).fuses = s.fuses := rfl
@[simp] theorem State.updDom_fuses (s : State) (k : Nat) (f : Dom → Dom) : (s.updDom k f).fuses = s.fuses := rfl
@[simp] theorem State.setDom_cfg (s : State) (k : Nat) (v : Dom) : (s.setDom k v).cfg = s.cfg := rfl
@[simp] theorem State.updDom_cfg (s : State) (k : Nat) (f : Dom → Dom) : (s.updDom k f).cfg = s.cfg := rfl
@[simp] theorem State.setDom_pend (s : State) (k : Nat) (v : Dom) : (s.setDom k v).pend = s.pend := rfl
@[simp] theorem State.updDom_pend (s : State) (k : Nat) (f : Dom → Dom) : (s.updDom k f).pend = s.pend := rfl
@[simp] theorem State.setDom_decs (s : State) (k : Nat) (v : Dom) : (s.setDom k v).decs = s.decs := rfl
@[simp] theorem State.updDom_decs (s : State) (k : Nat) (f : Dom → Dom) : (s.updDom k f).decs = s.decs := rfl
@[simp] theorem State.setDom_tiles (s : State) (k : Nat) (v : Dom) : (s.setDom k v).tiles = s.tiles := rfl
@[simp] theorem State.updDom_tiles (s : State) (k : Nat) (f : Dom → Dom) : (s.updDom k f).tiles = s.tiles := rfl
@[simp] theorem State.setDom_views (s : State) (k : Nat) (v : Dom) : (s.setDom k v).views = s.views := rfl
@[simp] theorem State.updDom_views (s : State) (k : Nat) (f : Dom → Dom) : (s.updDom k f).views = s.views := rfl
@[simp] theorem State.setDom_mittens (s : State) (k : Nat) (v : Dom) : (s.setDom k v).mittens = s.mittens := rfl
@[simp] theorem State.updDom_mittens (s : State) (k : Nat) (f : Dom → Dom) : (s.updDom k f).mittens = s.mittens := rfl
@[simp] theorem State.setDom_points (s : State) (k : Nat) (v : Dom) : (s.setDom k v).points = s.points := rfl
@[simp] theorem State.updDom_points (s : State) (k : Nat) (f : Dom → Dom) : (s.updDom k f).points = s.points := rfl
@[simp] theorem State.setDom_sensors (s : State) (k : Nat) (v : Dom) : (s.setDom k v).sensors = s.sensors := rfl
@[simp] theorem State.updDom_sensors (s : State) (k : Nat) (f : Dom → Dom) : (s.updDom k f).sensors = s.sensors := rfl
@[simp] theorem State.setDom_tilePar (s : State) (k : Nat) (v : Dom) : (s.setDom k v).tilePar = s.tilePar := rfl
@[simp] theorem State.updDom_tilePar (s : State) (k : Nat) (f : Dom → Dom) : (s.updDom k f).tilePar = s.tilePar := rfl
@[simp] theorem State.setDom_spine (s : State) (k : Nat) (v : Dom) : (s.setDom k v).spine = s.spine := rfl
@[simp] theorem State.updDom_spine (s : State) (k : Nat) (f : Dom → Dom) : (s.updDom k f).spine = s.spine := rfl
@[simp] theorem State.setDom_tk (s : State) (k : Nat) (v : Dom) : (s.setDom k v).tk = s.tk := rfl
@[simp] theorem State.updDom_tk (s : State) (k : Nat) (f : Dom → Dom) : (s.updDom k f).tk = s.tk := rfl
@[simp] theorem State.setDom_eng (s : State) (k : Nat) (v : Dom) : (s.setDom k v).eng = s.eng := rfl
@[simp] theorem State.updDom_eng (s : State) (k : Nat) (f : Dom → Dom) : (s.updDom k f).eng = s.eng := rfl
@[simp] theorem State.setDom_lim (s : State) (k : Nat) (v : Dom) : (s.setDom k v).lim = s.lim := rfl
@[simp] theorem State.updDom_lim (s : State) (k : Nat) (f : Dom → Dom) : (s.updDom k f).lim = s.lim := rfl
@[simp] theorem State.setDom_mgr (s : State) (k : Nat) (v : Dom) : (s.setDom k v).mgr = s.mgr := rfl
@[simp] theorem State.updDom_mgr (s : State) (k : Nat) (f : Dom → Dom) : (s.updDom k f).mgr = s.mgr := rfl
@[simp] theorem State.setDom_tth (s : State) (k : Nat) (v : Dom) : (s.setDom k v).tth = s.tth := rfl
@[simp] theorem State.updDom_tth (s : State) (k : Nat) (f : Dom → Dom) : (s.updDom k f).tth = s.tth := rfl
@[simp] theorem State.setDom_flt (s : State) (k : Nat) (v : Dom) : (s.setDom k v).flt = s.flt := rfl
@[simp] theorem State.updDom_flt (s : State) (k : Nat) (f : Dom → Dom) : (s.updDom k f).flt = s.flt := rfl
@[simp] theorem State.setDom_log (s : State) (k : Nat) (v : Dom) : (s.setDom k v).log = s.log := rfl
@[simp] theorem State.updDom_log (s : State) (k : Nat) (f : Dom → Dom) : (s.updDom k f).log = s.log := rfl
@[simp] theorem State.setDom_hk (s : State) (k : Nat) (v : Dom) : (s.setDom k v).hk = s.hk := rfl
@[simp] theorem State.updDom_hk (s : State) (k : Nat) (f : Dom → Dom) : (s.updDom k f).hk = s.hk := rfl
@[simp] theorem State.setDom_pmb (s : State) (k : Nat) (v : Dom) : (s.setDom k v).pmb = s.pmb := rfl
@[simp] theorem State.updDom_pmb (s : State) (k : Nat) (f : Dom → Dom) : (s.updDom k f).pmb = s.pmb := rfl
@[simp] theorem State.setDom_obs (s : State) (k : Nat) (v : Dom) : (s.setDom k v).obs = s.obs := rfl
@[simp] theorem State.updDom_obs (s : State) (k : Nat) (f : Dom → Dom) : (s.updDom k f).obs = s.obs := rfl
@[simp] theorem State.setDom_host (s : State) (k : Nat) (v : Dom) : (s.setDom k v).host = s.host := rfl
@[simp] theorem State.updDom_host (s : State) (k : Nat) (f : Dom → Dom) : (s.updDom k f).host = s.host := rfl
@[simp] theorem State.setDom_tap (s : State) (k : Nat) (v : Dom) : (s.setDom k v).tap = s.tap := rfl
@[simp] theorem State.updDom_tap (s : State) (k : Nat) (f : Dom → Dom) : (s.updDom k f).tap = s.tap := rfl
@[simp] theorem State.setDom_fresh (s : State) (k : Nat) (v : Dom) : (s.setDom k v).fresh = s.fresh := rfl
@[simp] theorem State.updDom_fresh (s : State) (k : Nat) (f : Dom → Dom) : (s.updDom k f).fresh = s.fresh := rfl
@[simp] theorem State.setDom_pending (s : State) (k : Nat) (v : Dom) : (s.setDom k v).pending = s.pending := rfl
@[simp] theorem State.updDom_pending (s : State) (k : Nat) (f : Dom → Dom) : (s.updDom k f).pending = s.pending := rfl
@[simp] theorem State.setTicket_time (s : State) (k : Nat) (v : Ticket) : (s.setTicket k v).time = s.time := rfl
@[simp] theorem State.updTicket_time (s : State) (k : Nat) (f : Ticket → Ticket) : (s.updTicket k f).time = s.time := rfl
@[simp] theorem State.setTicket_inst (s : State) (k : Nat) (v : Ticket) : (s.setTicket k v).inst = s.inst := rfl
@[simp] theorem State.updTicket_inst (s : State) (k : Nat) (f : Ticket → Ticket) : (s.updTicket k f).inst = s.inst := rfl
@[simp] theorem State.setTicket_fuses (s : State) (k : Nat) (v : Ticket) : (s.setTicket k v).fuses = s.fuses := rfl
@[simp] theorem State.updTicket_fuses (s : State) (k : Nat) (f : Ticket → Ticket) : (s.updTicket k f).fuses = s.fuses := rfl
@[simp] theorem State.setTicket_cfg (s : State) (k : Nat) (v : Ticket) : (s.setTicket k v).cfg = s.cfg := rfl
@[simp] theorem State.updTicket_cfg (s : State) (k : Nat) (f : Ticket → Ticket) : (s.updTicket k f).cfg = s.cfg := rfl
@[simp] theorem State.setTicket_pend (s : State) (k : Nat) (v : Ticket) : (s.setTicket k v).pend = s.pend := rfl
@[simp] theorem State.updTicket_pend (s : State) (k : Nat) (f : Ticket → Ticket) : (s.updTicket k f).pend = s.pend := rfl
@[simp] theorem State.setTicket_decs (s : State) (k : Nat) (v : Ticket) : (s.setTicket k v).decs = s.decs := rfl
@[simp] theorem State.updTicket_decs (s : State) (k : Nat) (f : Ticket → Ticket) : (s.updTicket k f).decs = s.decs := rfl
@[simp] theorem State.setTicket_tiles (s : State) (k : Nat) (v : Ticket) : (s.setTicket k v).tiles = s.tiles := rfl
@[simp] theorem State.updTicket_tiles (s : State) (k : Nat) (f : Ticket → Ticket) : (s.updTicket k f).tiles = s.tiles := rfl
@[simp] theorem State.setTicket_views (s : State) (k : Nat) (v : Ticket) : (s.setTicket k v).views = s.views := rfl
@[simp] theorem State.updTicket_views (s : State) (k : Nat) (f : Ticket → Ticket) : (s.updTicket k f).views = s.views := rfl
@[simp] theorem State.setTicket_mittens (s : State) (k : Nat) (v : Ticket) : (s.setTicket k v).mittens = s.mittens := rfl
@[simp] theorem State.updTicket_mittens (s : State) (k : Nat) (f : Ticket → Ticket) : (s.updTicket k f).mittens = s.mittens := rfl
@[simp] theorem State.setTicket_points (s : State) (k : Nat) (v : Ticket) : (s.setTicket k v).points = s.points := rfl
@[simp] theorem State.updTicket_points (s : State) (k : Nat) (f : Ticket → Ticket) : (s.updTicket k f).points = s.points := rfl
@[simp] theorem State.setTicket_sensors (s : State) (k : Nat) (v : Ticket) : (s.setTicket k v).sensors = s.sensors := rfl
@[simp] theorem State.updTicket_sensors (s : State) (k : Nat) (f : Ticket → Ticket) : (s.updTicket k f).sensors = s.sensors := rfl
@[simp] theorem State.setTicket_doms (s : State) (k : Nat) (v : Ticket) : (s.setTicket k v).doms = s.doms := rfl
@[simp] theorem State.updTicket_doms (s : State) (k : Nat) (f : Ticket → Ticket) : (s.updTicket k f).doms = s.doms := rfl
@[simp] theorem State.setTicket_tilePar (s : State) (k : Nat) (v : Ticket) : (s.setTicket k v).tilePar = s.tilePar := rfl
@[simp] theorem State.updTicket_tilePar (s : State) (k : Nat) (f : Ticket → Ticket) : (s.updTicket k f).tilePar = s.tilePar := rfl
@[simp] theorem State.setTicket_spine (s : State) (k : Nat) (v : Ticket) : (s.setTicket k v).spine = s.spine := rfl
@[simp] theorem State.updTicket_spine (s : State) (k : Nat) (f : Ticket → Ticket) : (s.updTicket k f).spine = s.spine := rfl
@[simp] theorem State.setTicket_eng (s : State) (k : Nat) (v : Ticket) : (s.setTicket k v).eng = s.eng := rfl
@[simp] theorem State.updTicket_eng (s : State) (k : Nat) (f : Ticket → Ticket) : (s.updTicket k f).eng = s.eng := rfl
@[simp] theorem State.setTicket_lim (s : State) (k : Nat) (v : Ticket) : (s.setTicket k v).lim = s.lim := rfl
@[simp] theorem State.updTicket_lim (s : State) (k : Nat) (f : Ticket → Ticket) : (s.updTicket k f).lim = s.lim := rfl
@[simp] theorem State.setTicket_mgr (s : State) (k : Nat) (v : Ticket) : (s.setTicket k v).mgr = s.mgr := rfl
@[simp] theorem State.updTicket_mgr (s : State) (k : Nat) (f : Ticket → Ticket) : (s.updTicket k f).mgr = s.mgr := rfl
@[simp] theorem State.setTicket_tth (s : State) (k : Nat) (v : Ticket) : (s.setTicket k v).tth = s.tth := rfl
@[simp] theorem State.updTicket_tth (s : State) (k : Nat) (f : Ticket → Ticket) : (s.updTicket k f).tth = s.tth := rfl
@[simp] theorem State.setTicket_flt (s : State) (k : Nat) (v : Ticket) : (s.setTicket k v).flt = s.flt := rfl
@[simp] theorem State.updTicket_flt (s : State) (k : Nat) (f : Ticket → Ticket) : (s.updTicket k f).flt = s.flt := rfl
@[simp] theorem State.setTicket_log (s : State) (k : Nat) (v : Ticket) : (s.setTicket k v).log = s.log := rfl
@[simp] theorem State.updTicket_log (s : State) (k : Nat) (f : Ticket → Ticket) : (s.updTicket k f).log = s.log := rfl
@[simp] theorem State.setTicket_hk (s : State) (k : Nat) (v : Ticket) : (s.setTicket k v).hk = s.hk := rfl
@[simp] theorem State.updTicket_hk (s : State) (k : Nat) (f : Ticket → Ticket) : (s.updTicket k f).hk = s.hk := rfl
@[simp] theorem State.setTicket_pmb (s : State) (k : Nat) (v : Ticket) : (s.setTicket k v).pmb = s.pmb := rfl
@[simp] theorem State.updTicket_pmb (s : State) (k : Nat) (f : Ticket → Ticket) : (s.updTicket k f).pmb = s.pmb := rfl
@[simp] theorem State.setTicket_obs (s : State) (k : Nat) (v : Ticket) : (s.setTicket k v).obs = s.obs := rfl
@[simp] theorem State.updTicket_obs (s : State) (k : Nat) (f : Ticket → Ticket) : (s.updTicket k f).obs = s.obs := rfl
@[simp] theorem State.setTicket_host (s : State) (k : Nat) (v : Ticket) : (s.setTicket k v).host = s.host := rfl
@[simp] theorem State.updTicket_host (s : State) (k : Nat) (f : Ticket → Ticket) : (s.updTicket k f).host = s.host := rfl
@[simp] theorem State.setTicket_tap (s : State) (k : Nat) (v : Ticket) : (s.setTicket k v).tap = s.tap := rfl
@[simp] theorem State.updTicket_tap (s : State) (k : Nat) (f : Ticket → Ticket) : (s.updTicket k f).tap = s.tap := rfl
@[simp] theorem State.setTicket_fresh (s : State) (k : Nat) (v : Ticket) : (s.setTicket k v).fresh = s.fresh := rfl
@[simp] theorem State.updTicket_fresh (s : State) (k : Nat) (f : Ticket → Ticket) : (s.updTicket k f).fresh = s.fresh := rfl
@[simp] theorem State.setTicket_pending (s : State) (k : Nat) (v : Ticket) : (s.setTicket k v).pending = s.pending := rfl
@[simp] theorem State.updTicket_pending (s : State) (k : Nat) (f : Ticket → Ticket) : (s.updTicket k f).pending = s.pending := rfl
@[simp] theorem State.setCluster_time (s : State) (k : Nat) (v : Cluster) : (s.setCluster k v).time = s.time := rfl
@[simp] theorem State.updCluster_time (s : State) (k : Nat) (f : Cluster → Cluster) : (s.updCluster k f).time = s.time := rfl
@[simp] theorem State.setCluster_inst (s : State) (k : Nat) (v : Cluster) : (s.setCluster k v).inst = s.inst := rfl
@[simp] theorem State.updCluster_inst (s : State) (k : Nat) (f : Cluster → Cluster) : (s.updCluster k f).inst = s.inst := rfl
@[simp] theorem State.setCluster_fuses (s : State) (k : Nat) (v : Cluster) : (s.setCluster k v).fuses = s.fuses := rfl
@[simp] theorem State.updCluster_fuses (s : State) (k : Nat) (f : Cluster → Cluster) : (s.updCluster k f).fuses = s.fuses := rfl
@[simp] theorem State.setCluster_cfg (s : State) (k : Nat) (v : Cluster) : (s.setCluster k v).cfg = s.cfg := rfl
@[simp] theorem State.updCluster_cfg (s : State) (k : Nat) (f : Cluster → Cluster) : (s.updCluster k f).cfg = s.cfg := rfl
@[simp] theorem State.setCluster_pend (s : State) (k : Nat) (v : Cluster) : (s.setCluster k v).pend = s.pend := rfl
@[simp] theorem State.updCluster_pend (s : State) (k : Nat) (f : Cluster → Cluster) : (s.updCluster k f).pend = s.pend := rfl
@[simp] theorem State.setCluster_decs (s : State) (k : Nat) (v : Cluster) : (s.setCluster k v).decs = s.decs := rfl
@[simp] theorem State.updCluster_decs (s : State) (k : Nat) (f : Cluster → Cluster) : (s.updCluster k f).decs = s.decs := rfl
@[simp] theorem State.setCluster_tiles (s : State) (k : Nat) (v : Cluster) : (s.setCluster k v).tiles = s.tiles := rfl
@[simp] theorem State.updCluster_tiles (s : State) (k : Nat) (f : Cluster → Cluster) : (s.updCluster k f).tiles = s.tiles := rfl
@[simp] theorem State.setCluster_views (s : State) (k : Nat) (v : Cluster) : (s.setCluster k v).views = s.views := rfl
@[simp] theorem State.updCluster_views (s : State) (k : Nat) (f : Cluster → Cluster) : (s.updCluster k f).views = s.views := rfl
@[simp] theorem State.setCluster_mittens (s : State) (k : Nat) (v : Cluster) : (s.setCluster k v).mittens = s.mittens := rfl
@[simp] theorem State.updCluster_mittens (s : State) (k : Nat) (f : Cluster → Cluster) : (s.updCluster k f).mittens = s.mittens := rfl
@[simp] theorem State.setCluster_points (s : State) (k : Nat) (v : Cluster) : (s.setCluster k v).points = s.points := rfl
@[simp] theorem State.updCluster_points (s : State) (k : Nat) (f : Cluster → Cluster) : (s.updCluster k f).points = s.points := rfl
@[simp] theorem State.setCluster_sensors (s : State) (k : Nat) (v : Cluster) : (s.setCluster k v).sensors = s.sensors := rfl
@[simp] theorem State.updCluster_sensors (s : State) (k : Nat) (f : Cluster → Cluster) : (s.updCluster k f).sensors = s.sensors := rfl
@[simp] theorem State.setCluster_doms (s : State) (k : Nat) (v : Cluster) : (s.setCluster k v).doms = s.doms := rfl
@[simp] theorem State.updCluster_doms (s : State) (k : Nat) (f : Cluster → Cluster) : (s.updCluster k f).doms = s.doms := rfl
@[simp] theorem State.setCluster_tilePar (s : State) (k : Nat) (v : Cluster) : (s.setCluster k v).tilePar = s.tilePar := rfl
@[simp] theorem State.updCluster_tilePar (s : State) (k : Nat) (f : Cluster → Cluster) : (s.updCluster k f).tilePar = s.tilePar := rfl
@[simp] theorem State.setCluster_spine (s : State) (k : Nat) (v : Cluster) : (s.setCluster k v).spine = s.spine := rfl
@[simp] theorem State.updCluster_spine (s : State) (k : Nat) (f : Cluster → Cluster) : (s.updCluster k f).spine = s.spine := rfl
@[simp] theorem State.setCluster_eng (s : State) (k : Nat) (v : Cluster) : (s.setCluster k v).eng = s.eng := rfl
@[simp] theorem State.updCluster_eng (s : State) (k : Nat) (f : Cluster → Cluster) : (s.updCluster k f).eng = s.eng := rfl
@[simp] theorem State.setCluster_lim (s : State) (k : Nat) (v : Cluster) : (s.setCluster k v).lim = s.lim := rfl
@[simp] theorem State.updCluster_lim (s : State) (k : Nat) (f : Cluster → Cluster) : (s.updCluster k f).lim = s.lim := rfl
@[simp] theorem State.setCluster_mgr (s : State) (k : Nat) (v : Cluster) : (s.setCluster k v).mgr = s.mgr := rfl
@[simp] theorem State.updCluster_mgr (s : State) (k : Nat) (f : Cluster → Cluster) : (s.updCluster k f).mgr = s.mgr := rfl
@[simp] theorem State.setCluster_tth (s : State) (k : Nat) (v : Cluster) : (s.setCluster k v).tth = s.tth := rfl
@[simp] theorem State.updCluster_tth (s : State) (k : Nat) (f : Cluster → Cluster) : (s.updCluster k f).tth = s.tth := rfl
@[simp] theorem State.setCluster_flt (s : State) (k : Nat) (v : Cluster) : (s.setCluster k v).flt = s.flt := rfl
@[simp] theorem State.updCluster_flt (s : State) (k : Nat) (f : Cluster → Cluster) : (s.updCluster k f).flt = s.flt := rfl
@[simp] theorem State.setCluster_log (s : State) (k : Nat) (v : Cluster) : (s.setCluster k v).log = s.log := rfl
@[simp] theorem State.updCluster_log (s : State) (k : Nat) (f : Cluster → Cluster) : (s.updCluster k f).log = s.log := rfl
@[simp] theorem State.setCluster_hk (s : State) (k : Nat) (v : Cluster) : (s.setCluster k v).hk = s.hk := rfl
@[simp] theorem State.updCluster_hk (s : State) (k : Nat) (f : Cluster → Cluster) : (s.updCluster k f).hk = s.hk := rfl
@[simp] theorem State.setCluster_pmb (s : State) (k : Nat) (v : Cluster) : (s.setCluster k v).pmb = s.pmb := rfl
@[simp] theorem State.updCluster_pmb (s : State) (k : Nat) (f : Cluster → Cluster) : (s.updCluster k f).pmb = s.pmb := rfl
@[simp] theorem State.setCluster_obs (s : State) (k : Nat) (v : Cluster) : (s.setCluster k v).obs = s.obs := rfl
@[simp] theorem State.updCluster_obs (s : State) (k : Nat) (f : Cluster → Cluster) : (s.updCluster k f).obs = s.obs := rfl
@[simp] theorem State.setCluster_host (s : State) (k : Nat) (v : Cluster) : (s.setCluster k v).host = s.host := rfl
@[simp] theorem State.updCluster_host (s : State) (k : Nat) (f : Cluster → Cluster) : (s.updCluster k f).host = s.host := rfl
@[simp] theorem State.setCluster_tap (s : State) (k : Nat) (v : Cluster) : (s.setCluster k v).tap = s.tap := rfl
@[simp] theorem State.updCluster_tap (s : State) (k : Nat) (f : Cluster → Cluster) : (s.updCluster k f).tap = s.tap := rfl
@[simp] theorem State.setCluster_fresh (s : State) (k : Nat) (v : Cluster) : (s.setCluster k v).fresh = s.fresh := rfl
@[simp] theorem State.updCluster_fresh (s : State) (k : Nat) (f : Cluster → Cluster) : (s.updCluster k f).fresh = s.fresh := rfl
@[simp] theorem State.setCluster_pending (s : State) (k : Nat) (v : Cluster) : (s.setCluster k v).pending = s.pending := rfl
@[simp] theorem State.updCluster_pending (s : State) (k : Nat) (f : Cluster → Cluster) : (s.updCluster k f).pending = s.pending := rfl

end Sys2Proof.Machine
end

