-- ==== Sys2Proof/Laws/Kept.lean ====
section
/-!
SUPPORT. What leaves the kept part of the state alone: the updates of components, conditionals and folds. One lemma per
operation follows in the files beside this one.
-/

namespace Sys2Proof.Machine

@[simp] theorem kept_ite (c : Prop) [Decidable c] (a b : State) : (if c then a else b).kept = if c then a.kept else b.kept := by
  split <;> rfl

theorem kept_forL {α : Type} (f : α → State → State) (h : ∀ x s, (f x s).kept = s.kept) :
    ∀ (l : List α) (s : State), (forL l f s).kept = s.kept := by
  intro l
  induction l with
  | nil => intro s; rfl
  | cons x r ih => intro s; exact (ih (f x s)).trans (h x s)

@[simp] theorem forL_kept {α : Type} (f : α → State → State) (l : List α) (s : State) (h : ∀ x s, (f x s).kept = s.kept) :
    (forL l f s).kept = s.kept := kept_forL f h l s

@[simp] theorem forIdx_kept (f : Nat → State → State) (n : Nat) (s : State) (h : ∀ x s, (f x s).kept = s.kept) :
    (forIdx n f s).kept = s.kept := kept_forL f h (List.range n) s

@[simp] theorem State.updSpine_kept (s : State) (f : Spine → Spine) : (s.updSpine f).kept = s.kept := rfl
@[simp] theorem State.updTk_kept (s : State) (f : TicketUnit → TicketUnit) : (s.updTk f).kept = s.kept := rfl
@[simp] theorem State.updLim_kept (s : State) (f : Limits → Limits) : (s.updLim f).kept = s.kept := rfl
@[simp] theorem State.updMgr_kept (s : State) (f : Manager → Manager) : (s.updMgr f).kept = s.kept := rfl
@[simp] theorem State.updTth_kept (s : State) (f : Tether → Tether) : (s.updTth f).kept = s.kept := rfl
@[simp] theorem State.updFlt_kept (s : State) (f : Faults → Faults) : (s.updFlt f).kept = s.kept := rfl
@[simp] theorem State.updHk_kept (s : State) (f : Housekeep → Housekeep) : (s.updHk f).kept = s.kept := rfl
@[simp] theorem State.updPmb_kept (s : State) (f : Pmbus → Pmbus) : (s.updPmb f).kept = s.kept := rfl
@[simp] theorem State.updHost_kept (s : State) (f : HostPort → HostPort) : (s.updHost f).kept = s.kept := rfl

@[simp] theorem State.updInst_kept (s : State) (f : Inst → Inst)
    (h : (f s.inst).fieldId = s.inst.fieldId ∧ (f s.inst).manager = s.inst.manager ∧ (f s.inst).nvmEn = s.inst.nvmEn) :
    (s.updInst f).kept = s.kept := by
  simp only [State.kept, State.updInst, h.1, h.2.1, h.2.2]; rfl

@[simp] theorem State.updEng_kept (s : State) (f : Engine → Engine)
    (h : (f s.eng).mem = s.eng.mem ∧ (f s.eng).copies = s.eng.copies ∧ (f s.eng).tblBuf = s.eng.tblBuf ∧
      (f s.eng).reload = s.eng.reload) : (s.updEng f).kept = s.kept := by
  simp only [State.kept, State.mems, State.updEng, h.1, h.2.1, h.2.2.1, h.2.2.2]

@[simp] theorem State.updLog_kept (s : State) (f : Recorder → Recorder) (h : (f s.log).nvm = s.log.nvm) :
    (s.updLog f).kept = s.kept := by
  simp only [State.kept, State.mems, State.updLog, h]

@[simp] theorem State.updObs_kept (s : State) (f : Observe → Observe)
    (h : (f s.obs).dumpArea = s.obs.dumpArea ∧ (f s.obs).snapMem = s.obs.snapMem) : (s.updObs f).kept = s.kept := by
  simp only [State.kept, State.mems, State.updObs, h.1, h.2]

@[simp] theorem State.setTile_kept (s : State) (k : Nat) (v : Tile) : (s.setTile k v).kept = s.kept := rfl
@[simp] theorem State.updTile_kept (s : State) (k : Nat) (f : Tile → Tile) : (s.updTile k f).kept = s.kept := rfl
@[simp] theorem State.setView_kept (s : State) (k : Nat) (v : TView) : (s.setView k v).kept = s.kept := rfl
@[simp] theorem State.updView_kept (s : State) (k : Nat) (f : TView → TView) : (s.updView k f).kept = s.kept := rfl
@[simp] theorem State.setMitten_kept (s : State) (k : Nat) (v : Mitten) : (s.setMitten k v).kept = s.kept := rfl
@[simp] theorem State.updMitten_kept (s : State) (k : Nat) (f : Mitten → Mitten) : (s.updMitten k f).kept = s.kept := rfl
@[simp] theorem State.setPoint_kept (s : State) (k : Nat) (v : Point) : (s.setPoint k v).kept = s.kept := rfl
@[simp] theorem State.updPoint_kept (s : State) (k : Nat) (f : Point → Point) : (s.updPoint k f).kept = s.kept := rfl
@[simp] theorem State.setSensor_kept (s : State) (k : Nat) (v : Sensor) : (s.setSensor k v).kept = s.kept := rfl
@[simp] theorem State.setDom_kept (s : State) (k : Nat) (v : Dom) : (s.setDom k v).kept = s.kept := rfl
@[simp] theorem State.updDom_kept (s : State) (k : Nat) (f : Dom → Dom) : (s.updDom k f).kept = s.kept := rfl
@[simp] theorem State.setTicket_kept (s : State) (k : Nat) (v : Ticket) : (s.setTicket k v).kept = s.kept := rfl
@[simp] theorem State.updTicket_kept (s : State) (k : Nat) (f : Ticket → Ticket) : (s.updTicket k f).kept = s.kept := rfl
@[simp] theorem State.setCluster_kept (s : State) (k : Nat) (v : Cluster) : (s.setCluster k v).kept = s.kept := rfl
@[simp] theorem State.updCluster_kept (s : State) (k : Nat) (f : Cluster → Cluster) : (s.updCluster k f).kept = s.kept := rfl

@[simp] theorem kept_fresh (s : State) (n : Nat) : ({ s with fresh := n } : State).kept = s.kept := rfl
@[simp] theorem kept_decs (s : State) (l : List Decision) : ({ s with decs := l } : State).kept = s.kept := rfl
@[simp] theorem kept_doms (s : State) (t : Tbl Dom) : ({ s with doms := t } : State).kept = s.kept := rfl
@[simp] theorem kept_sensors (s : State) (t : Tbl Sensor) : ({ s with sensors := t } : State).kept = s.kept := rfl
@[simp] theorem kept_tilePar (s : State) (t : TilePar) : ({ s with tilePar := t } : State).kept = s.kept := rfl
@[simp] theorem kept_tk (s : State) (t : TicketUnit) : ({ s with tk := t } : State).kept = s.kept := rfl

@[simp] theorem Engine.setLane_mem (e : Engine) (l : Nat) (v : Lane) : (e.setLane l v).mem = e.mem := by
  unfold Engine.setLane; split <;> rfl
@[simp] theorem Engine.setLane_copies (e : Engine) (l : Nat) (v : Lane) : (e.setLane l v).copies = e.copies := by
  unfold Engine.setLane; split <;> rfl
@[simp] theorem Engine.setLane_tblBuf (e : Engine) (l : Nat) (v : Lane) : (e.setLane l v).tblBuf = e.tblBuf := by
  unfold Engine.setLane; split <;> rfl
@[simp] theorem Engine.setLane_reload (e : Engine) (l : Nat) (v : Lane) : (e.setLane l v).reload = e.reload := by
  unfold Engine.setLane; split <;> rfl

/-! ### Outcomes -/

@[simp] theorem leads_next (t : State) (P : State → Prop) : Leads (.next t) P ↔ P t := by
  constructor
  · intro h; exact h t rfl
  · intro h u hu; cases hu; exact h

@[simp] theorem leads_fault (f : Fault) (P : State → Prop) : Leads (.fault f) P := by intro t h; cases h

@[simp] theorem leads_refused (r : Refusal) (P : State → Prop) : Leads (.refused r) P := by intro t h; cases h

/-- What holds of a state holds of every state with the same kept part, where the property speaks of that part only. -/
theorem State.Inv.of_kept {s t : State} (h : t.kept = s.kept) (hs : s.Inv) : t.Inv := by
  unfold State.Inv; rw [h]; exact hs

end Sys2Proof.Machine
end

