-- ==== Sys2Proof/Laws/KeptBring.lean ====
section
/-! SUPPORT. The operations that send, raise, trace and bring up a domain leave the kept fields as they are. -/

namespace Sys2Proof.Machine

@[simp] theorem State.countEng_kept (s : State) (e : Nat) (k : Nat) (n : Nat) : (State.countEng s e k n).kept = s.kept := by
  simp [State.countEng]

@[simp] theorem refreshCeil_kept (d : Nat) (s : State) : (refreshCeil d s).kept = s.kept := by
  simp [refreshCeil]

@[simp] theorem State.updLink_kept (s : State) (r : Ring) (f : Link → Link) : (State.updLink s r f).kept = s.kept := by
  simp [State.updLink]

@[simp] theorem State.noteLeft_kept (s : State) (now : Option Flit) : (State.noteLeft s now).kept = s.kept := by
  unfold State.noteLeft; dsimp only; (repeat' split) <;> simp

@[simp] theorem State.stepLink_kept (s : State) (r : Ring) : (State.stepLink s r).kept = s.kept := by
  simp [State.stepLink]

@[simp] theorem State.linkTick_kept (s : State) : (State.linkTick s).kept = s.kept := by
  simp [State.linkTick]

@[simp] theorem State.toLinks_kept (s : State) (rings : Nat) (f : Flit) : (State.toLinks s rings f).kept = s.kept := by
  simp [State.toLinks]

@[simp] theorem State.putOut_kept (s : State) (rings : Nat) (f : Flit) : (State.putOut s rings f).kept = s.kept := by
  simp [State.putOut]

@[simp] theorem State.emitFlit_kept (s : State) (rings : Nat) (f : Flit) : (s.emitFlit rings f).kept = s.kept := by
  unfold State.emitFlit
  extract_lets q g s1
  have h1 : s1.kept = s.kept := rfl
  split
  · rw [State.updTth_kept, State.putOut_kept, State.putOut_kept, h1]
  · rw [State.putOut_kept, h1]

@[simp] theorem State.sendOn_kept (s : State) (rings : Nat) (f : Flit) : (State.sendOn s rings f).kept = s.kept := by
  simp [State.sendOn]

@[simp] theorem State.drainOne_kept (s : State) : (State.drainOne s).kept = s.kept := by
  unfold State.drainOne; (repeat' split) <;> simp

@[simp] theorem State.sendInternal_kept (s : State) (f : Flit) : (State.sendInternal s f).kept = s.kept := by
  simp [State.sendInternal]

@[simp] theorem State.unicast_kept (s : State) (kind : Nat) (cls : Nat) (dst : Nat) (pay : Nat) :
    (State.unicast s kind cls dst pay).kept = s.kept := by
  simp [State.unicast]

@[simp] theorem State.toManager_kept (s : State) (kind : Nat) (cls : Nat) (pay : Nat) :
    (State.toManager s kind cls pay).kept = s.kept := by
  unfold State.toManager; (repeat' split) <;> simp

@[simp] theorem State.broadcast_kept (s : State) (kind : Nat) (cls : Nat) (pay : Nat) :
    (State.broadcast s kind cls pay).kept = s.kept := by
  simp [State.broadcast]

@[simp] theorem State.broadcastAll_kept (s : State) (kind : Nat) (cls : Nat) (pay : Nat) :
    (State.broadcastAll s kind cls pay).kept = s.kept := by
  simp [State.broadcastAll]

@[simp] theorem State.broadcastBoth_kept (s : State) (kind : Nat) (cls : Nat) (pay : Nat) :
    (State.broadcastBoth s kind cls pay).kept = s.kept := by
  simp [State.broadcastBoth]

@[simp] theorem State.sendXt_kept (s : State) (kind : Nat) (pay : Nat) : (State.sendXt s kind pay).kept = s.kept := by
  simp [State.sendXt]

@[simp] theorem State.noteFlit_kept (s : State) (f : Flit) : (State.noteFlit s f).kept = s.kept := by
  simp [State.noteFlit]

@[simp] theorem State.passOn_kept (s : State) (r : Ring) (f : Flit) : (State.passOn s r f).kept = s.kept := by
  simp [State.passOn]

@[simp] theorem State.captureFlit_kept (s : State) (r : Ring) (c : Instr) : (State.captureFlit s r c).kept = s.kept := by
  simp [State.captureFlit]

@[simp] theorem State.countLost_kept (s : State) : (State.countLost s).kept = s.kept := by
  simp [State.countLost]

@[simp] theorem State.bufferRec_kept (s : State) (r : Rec) : (State.bufferRec s r).kept = s.kept := by
  unfold State.bufferRec; dsimp only; (repeat' split) <;> simp

@[simp] theorem State.flushOn_kept (s : State) (r : Rec) : (State.flushOn s r).kept = s.kept := by
  simp [State.flushOn]

@[simp] theorem State.recordRaise_kept (s : State) (cls : Nat) (sev : Nat) (src : Nat) (data : Nat) :
    (State.recordRaise s cls sev src data).kept = s.kept := by
  simp [State.recordRaise]

@[simp] theorem State.setHist_kept (s : State) (seq : Nat) (h : Hist) : (State.setHist s seq h).kept = s.kept := by
  simp [State.setHist]

@[simp] theorem State.sortHist_kept (s : State) (q n : Nat) : (s.sortHist q n).kept = s.kept := by
  induction n generalizing s q with
  | zero => rfl
  | succ n ih =>
    unfold State.sortHist
    dsimp only
    split
    · exact (ih ..).trans (by simp)
    · rfl

@[simp] theorem State.addHist_kept (s : State) (cls : Nat) (sev : Nat) (src : Nat) (data : Nat) :
    (State.addHist s cls sev src data).kept = s.kept := by
  simp [State.addHist]

@[simp] theorem State.openOcc_kept (s : State) (cls : Nat) (sev : Nat) (src : Nat) (data : Nat) :
    (State.openOcc s cls sev src data).kept = s.kept := by
  simp [State.openOcc]

@[simp] theorem State.startGap_kept (s : State) (cls : Nat) (src : Nat) : (State.startGap s cls src).kept = s.kept := by
  unfold State.startGap; (repeat' split) <;> simp

@[simp] theorem State.schedFreeze_kept (s : State) : (State.schedFreeze s).kept = s.kept := by
  simp [State.schedFreeze]

@[simp] theorem State.freezeOn_kept (s : State) (cls : Nat) : (State.freezeOn s cls).kept = s.kept := by
  simp [State.freezeOn]

@[simp] theorem State.raiseCore_kept (s : State) (cls : Nat) (sev : Nat) (src : Nat) (data : Nat) :
    (State.raiseCore s cls sev src data).kept = s.kept := by
  simp [State.raiseCore]

@[simp] theorem State.raiseSev_kept (s : State) (cls : Nat) (sev : Nat) (src : Nat) (data : Nat) :
    (State.raiseSev s cls sev src data).kept = s.kept := by
  simp [State.raiseSev]

@[simp] theorem State.raiseSevAt_kept (s : State) (x cls sev src data : Nat) :
    (s.raiseSevAt x cls sev src data).kept = s.kept := by
  unfold State.raiseSevAt
  dsimp only
  rw [State.freezeOn_kept]
  have h := State.raiseCore_kept { s with time := min x s.time } cls sev src data
  simp only [State.kept, State.mems, Kept.mk.injEq] at h ⊢
  exact ⟨h.1, h.2.1, trivial, h.2.2.2⟩

@[simp] theorem State.raise_kept (s : State) (cls : Nat) (src : Nat) (data : Nat) :
    (State.raise s cls src data).kept = s.kept := by
  simp [State.raise]

@[simp] theorem State.raiseInst_kept (s : State) (cls : Nat) (data : Nat) : (State.raiseInst s cls data).kept = s.kept := by
  simp [State.raiseInst]

@[simp] theorem State.endCause_kept (s : State) (cls : Nat) (src : Nat) : (State.endCause s cls src).kept = s.kept := by
  simp [State.endCause]

@[simp] theorem State.raiseLost_kept (s : State) : (State.raiseLost s).kept = s.kept := by
  simp [State.raiseLost]

@[simp] theorem State.sendTrace_kept (s : State) (msg : Nat) : (State.sendTrace s msg).kept = s.kept := by
  simp [State.sendTrace]

@[simp] theorem State.drainTrace_kept (s : State) : (State.drainTrace s).kept = s.kept := by
  unfold State.drainTrace; (repeat' split) <;> simp

@[simp] theorem State.storeTrace_kept (s : State) (msg : Nat) (src : Nat) : (State.storeTrace s msg src).1.kept = s.kept := by
  unfold State.storeTrace; (repeat' split) <;> simp

@[simp] theorem State.placeTrace_kept (s : State) (msg : Nat) : (State.placeTrace s msg).1.kept = s.kept := by
  unfold State.placeTrace; (repeat' split) <;> simp

@[simp] theorem State.dropTrace_kept (s : State) : (State.dropTrace s).kept = s.kept := by
  unfold State.dropTrace; dsimp only; (repeat' split) <;> simp

@[simp] theorem State.traceSync_kept (s : State) : (State.traceSync s).kept = s.kept := by
  simp [State.traceSync]

@[simp] theorem State.traceOvf_kept (s : State) : (State.traceOvf s).kept = s.kept := by
  simp [State.traceOvf]

@[simp] theorem State.traceMsg_kept (s : State) (msg : Nat) : (State.traceMsg s msg).kept = s.kept := by
  simp [State.traceMsg]

@[simp] theorem State.traceTick_kept (s : State) : (State.traceTick s).kept = s.kept := by
  simp [State.traceTick]

@[simp] theorem State.traceEng_kept (s : State) : (State.traceEng s).kept = s.kept := by
  simp [State.traceEng]

@[simp] theorem State.queueWord_kept (s : State) (w : SpineWord) : (State.queueWord s w).kept = s.kept := by
  simp [State.queueWord]

@[simp] theorem State.sendTile_kept (s : State) (t : Nat) (w : TileWord) : (State.sendTile s t w).kept = s.kept := by
  simp [State.sendTile]

@[simp] theorem State.decideTile_kept (s : State) (t : Nat) (w : TileWord) : (State.decideTile s t w).kept = s.kept := by
  simp [State.decideTile]

@[simp] theorem State.sendNext_kept (s : State) (t : Nat) (w : TileWord) : (State.sendNext s t w).kept = s.kept := by
  simp [State.sendNext]

@[simp] theorem State.releaseWords_kept (s : State) : (State.releaseWords s).kept = s.kept := by
  simp [State.releaseWords]

@[simp] theorem sharesTravel_kept (now : List SpineWord) (m : Nat) (s : State) : (sharesTravel now m s).kept = s.kept := by
  unfold sharesTravel
  split
  · extract_lets due s1
    exact (forIdx_kept _ _ s1 fun p s => State.updView_kept ..).trans (State.updMitten_kept ..)
  · rfl

@[simp] theorem State.driveChain_kept (s : State) (ref : Nat → Option (Nat × Int)) (q : Nat) :
    (State.driveChain s ref q).kept = s.kept := by
  simp [State.driveChain]

@[simp] theorem State.driveSpine_kept (s : State) (ref : Nat → Option (Nat × Int)) :
    (State.driveSpine s ref).kept = s.kept := by
  simp [State.driveSpine]

@[simp] theorem State.sendEvents_kept (s : State) (q : Nat) (lim : Nat) : (State.sendEvents s q lim).kept = s.kept := by
  unfold State.sendEvents
  exact forL_kept _ _ _ fun _ _ => by simp

@[simp] theorem State.arbitrate_kept (s : State) : (State.arbitrate s).kept = s.kept := by
  simp [State.arbitrate]

@[simp] theorem State.queueShares_kept (s : State) (m : Nat) : (State.queueShares s m).kept = s.kept := by
  unfold State.queueShares
  extract_lets w words s1 s2 s3 s4
  have h3 : s3.kept = s.kept := by
    show (ite _ _ _ : State).kept = _
    split
    · rfl
    · exact forL_kept _ _ _ fun w s => State.queueWord_kept s w
  refine Eq.trans (b := s4.kept) (State.updMitten_kept ..) (Eq.trans ?_ h3)
  show (ite _ _ _ : State).kept = _
  split
  · exact forIdx_kept _ _ _ fun p s => State.updView_kept ..
  · rfl

@[simp] theorem State.reshare_kept (s : State) (m : Nat) (loss : Bool) : (State.reshare s m loss).kept = s.kept := by
  simp [State.reshare]

@[simp] theorem State.driveThr_kept (s : State) (t : Nat) : (State.driveThr s t).kept = s.kept := by
  simp [State.driveThr]

@[simp] theorem State.updBring_kept (s : State) (d : Nat) (f : Bring → Bring) : (State.updBring s d f).kept = s.kept := by
  simp [State.updBring]

@[simp] theorem State.endBring_kept (s : State) (d : Nat) (st : BringSt) : (State.endBring s d st).kept = s.kept := by
  simp [State.endBring]

@[simp] theorem State.refuseBring_kept (s : State) (d : Nat) (st : BringSt) : (State.refuseBring s d st).kept = s.kept := by
  simp [State.refuseBring]

@[simp] theorem State.bringReady_kept (s : State) (d : Nat) : (State.bringReady s d).kept = s.kept := by
  simp [State.bringReady]

@[simp] theorem State.darken_kept (s : State) (d : Nat) (m : Nat) : (State.darken s d m).kept = s.kept := by
  simp [State.darken]

@[simp] theorem shedOver_kept (d : Nat) (s : State) : (shedOver d s).kept = s.kept := by
  simp [shedOver]

@[simp] theorem State.unshedDom_kept (s : State) (d : Nat) : (State.unshedDom s d).kept = s.kept := by
  simp [State.unshedDom]

@[simp] theorem State.afterLoss_kept (s : State) (m : Nat) : (State.afterLoss s m).kept = s.kept := by
  unfold State.afterLoss; (repeat' split) <;> simp

@[simp] theorem State.recordLoss_kept (s : State) (t : Nat) (gone : Bool) : (State.recordLoss s t gone).kept = s.kept := by
  simp [State.recordLoss]

@[simp] theorem State.recordPhase_kept (s : State) (t : Nat) (k : Nat) : (State.recordPhase s t k).kept = s.kept := by
  simp [State.recordPhase]

@[simp] theorem State.returnTile_kept (s : State) (t : Nat) : (State.returnTile s t).kept = s.kept := by
  unfold State.returnTile; dsimp only; (repeat' split) <;> simp

@[simp] theorem trustAll_kept (d : Nat) (s : State) : (trustAll d s).kept = s.kept := by
  unfold trustAll
  exact forL_kept _ _ _ fun _ _ => rfl

@[simp] theorem State.enterRamp_kept (s : State) (d : Nat) (pos : Int) (moving : Bool) :
    (State.enterRamp s d pos moving).kept = s.kept := by
  simp [State.enterRamp]

@[simp] theorem State.startBring_kept (s : State) (d : Nat) : (State.startBring s d).kept = s.kept := by
  unfold State.startBring
  repeat' first | (simp; done) | split | (refine (forL_kept _ _ _ fun _ _ => ?_).trans ?_)

@[simp] theorem State.softStart_kept (s : State) (d : Nat) : (State.softStart s d).kept = s.kept := by
  simp [State.softStart]

@[simp] theorem State.bringProgress_kept (s : State) (d : Nat) : (State.bringProgress s d).kept = s.kept := by
  unfold State.bringProgress; (repeat' split) <;> simp

@[simp] theorem State.closeLoop_kept (s : State) (d : Nat) : (State.closeLoop s d).kept = s.kept := by
  simp [State.closeLoop]

@[simp] theorem stopTiles_kept (d : Nat) (s : State) : (stopTiles d s).kept = s.kept := by
  simp [stopTiles]

@[simp] theorem State.rampOff_kept (s : State) (d : Nat) : (State.rampOff s d).kept = s.kept := by
  unfold State.rampOff; (repeat' split) <;> simp

@[simp] theorem State.startOff_kept (s : State) (d : Nat) (cool : Bool) : (State.startOff s d cool).kept = s.kept := by
  unfold State.startOff; dsimp only; (repeat' split) <;> simp

@[simp] theorem State.abortBring_kept (s : State) (d : Nat) : (State.abortBring s d).kept = s.kept := by
  simp [State.abortBring]

@[simp] theorem State.domIdle_kept (s : State) (d : Nat) : (State.domIdle s d).kept = s.kept := by
  simp [State.domIdle]

@[simp] theorem State.stageOff_kept (s : State) (d : Nat) : (State.stageOff s d).kept = s.kept := by
  unfold State.stageOff; dsimp only; (repeat' split) <;> simp

@[simp] theorem bringSample_kept (d : Nat) (s : State) : (bringSample d s).kept = s.kept := by
  unfold bringSample
  repeat' first | (simp; done) | split | (refine (forL_kept _ _ _ fun _ _ => ?_).trans ?_) | simp

@[simp] theorem State.bridleFrom0_kept (s : State) (d : Nat) : (State.bridleFrom0 s d).kept = s.kept := by
  simp [State.bridleFrom0]

@[simp] theorem State.backOut_kept (s : State) (d : Nat) : (State.backOut s d).kept = s.kept := by
  unfold State.backOut; (repeat' split) <;> simp

@[simp] theorem State.markOff_kept (s : State) (d : Nat) (p : Occ → Bool) : (State.markOff s d p).kept = s.kept := by
  simp [State.markOff]

@[simp] theorem State.ackOff_kept (s : State) (d : Nat) : (State.ackOff s d).kept = s.kept := by
  simp [State.ackOff]

@[simp] theorem clearTiles_kept (d : Nat) (s : State) : (clearTiles d s).kept = s.kept := by
  simp [clearTiles]

@[simp] theorem retryAnswers_kept (d : Nat) (s : State) : (retryAnswers d s).kept = s.kept := by
  simp [retryAnswers]

@[simp] theorem State.admitWaiting_kept (s : State) (d : Nat) : (State.admitWaiting s d).kept = s.kept := by
  simp [State.admitWaiting]

@[simp] theorem State.shortStart_kept (s : State) (d : Nat) : (State.shortStart s d).kept = s.kept := by
  simp [State.shortStart]

@[simp] theorem State.crowOthers_kept (s : State) (d : Nat) (m : Nat) : (State.crowOthers s d m).kept = s.kept := by
  simp [State.crowOthers]

@[simp] theorem State.onTileDom_kept (s : State) (t : Nat) (f : Nat → State → State) (h : ∀ d s, (f d s).kept = s.kept) :
    (s.onTileDom t f).kept = s.kept := by
  unfold State.onTileDom
  split
  · exact h ..
  · rfl

@[simp] theorem State.tileEvent_kept (s : State) (t : Nat) (code : Nat) (x : Nat) (data : Nat) :
    (State.tileEvent s t code x data).kept = s.kept := by
  unfold State.tileEvent
  repeat' first | (simp; done) | split | (refine (State.onTileDom_kept _ _ _ fun _ _ => ?_).trans ?_)

@[simp] theorem State.takeUp_kept (s : State) (q : Nat) (w : BitVec 64) : (State.takeUp s q w).kept = s.kept := by
  simp [State.takeUp]

end Sys2Proof.Machine
end

