-- ==== Sys2Proof/Laws/KeptEngine.lean ====
section
/-! SUPPORT. The engine and ticket operations leave the kept fields as they are. -/

namespace Sys2Proof.Machine

@[simp] theorem State.relay_kept (s : State) (d : Nat) (e : FV) (u0 : FV) : (State.relay s d e u0).2.kept = s.kept := by
  unfold State.relay; (repeat' split) <;> simp

@[simp] theorem State.putV_kept (s : State) (lane : Nat) (i : Nat) (w : BitVec 32) : (State.putV s lane i w).kept = s.kept := by
  simp [State.putV]

@[simp] theorem State.reportSat_kept (s : State) (d : Desc) (dl : List Nat) (r : Nat) (sat : Bool) (u : FV) :
    (State.reportSat s d dl r sat u).kept = s.kept := by
  unfold State.reportSat; (repeat' split) <;> simp

@[simp] theorem State.pidRow_kept (s : State) (lane : Nat) (d : Desc) (dl : List Nat) (r : Nat) :
    (State.pidRow s lane d dl r).2.kept = s.kept := by
  unfold State.pidRow; (repeat' split) <;> simp

@[simp] theorem State.ssRow_kept (s : State) (lane : Nat) (d : Desc) (dl : List Nat) (r : Nat) :
    (State.ssRow s lane d dl r).2.kept = s.kept := by
  unfold State.ssRow; (repeat' split) <;> simp

@[simp] theorem State.putStatus_kept (s : State) (lane : Nat) (prog : Nat) (i : Nat) (flags : Nat) (mask : Nat) :
    (State.putStatus s lane prog i flags mask).kept = s.kept := by
  simp [State.putStatus]

@[simp] theorem State.emitVref_kept (s : State) (p : Prog) (dom : Nat) (n : Int) : (s.emitVref p dom n).kept = s.kept := by
  unfold State.emitVref
  extract_lets x base put
  have hp : ∀ t v, (put t v).kept = t.kept := fun t v => rfl
  split <;> try simp [hp]
  · have h : ∀ e u, (s.relay dom e u).2.kept = s.kept := fun e u => by simp
    split
    · next h2 => exact (congrArg (fun z : FV × State => z.2.kept) h2).symm.trans (h _ _)
    · next h2 => exact (congrArg (fun z : FV × State => z.2.kept) h2).symm.trans (h _ _)

@[simp] theorem State.emitRow_kept (s : State) (lane : Nat) (q : Prog) (d : Desc) (r : Nat) :
    (State.emitRow s lane q d r).1.kept = s.kept := by
  unfold State.emitRow; dsimp only; (repeat' split) <;> simp

@[simp] theorem State.runDesc_kept (s : State) (lane : Nat) (p : Prog) (i : Nat) (fails : List Nat) :
    (s.runDesc lane p i fails).1.kept = s.kept := by
  have emit : ∀ (d : Desc) (l : List Nat) (a : State × Bool × Bool), a.1.kept = s.kept →
      (l.foldl (fun (t, f, n) r => let (u, g, m) := State.emitRow t lane p d r; (u, f || g, n || m)) a).1.kept = s.kept := by
    intro d l
    induction l with
    | nil => intro a h; exact h
    | cons r l ih => intro a h; exact ih _ ((State.emitRow_kept ..).trans h)
  have rows : ∀ (β : Type) (f : State × β → Nat → State × β), (∀ x r, (f x r).1.kept = x.1.kept) →
      ∀ (l : List Nat) (a : State × β), (l.foldl f a).1.kept = a.1.kept := by
    intro β f hf l
    induction l with
    | nil => intro a; rfl
    | cons r l ih => intro a; exact (ih _).trans (hf a r)
  unfold State.runDesc
  dsimp only
  split
  · rfl
  · split
    · simp
    · split
      · split
        · simp
        · rw [State.putStatus_kept]; exact emit _ _ (s, false, false) rfl
      · generalize hz : List.foldl _ (s, ([] : List (Nat × BitVec 32)), false, false, false, false) _ = z
        have hk : z.1.kept = s.kept := by
          rw [← hz]
          refine rows _ _ ?_ _ (s, [], false, false, false, false)
          intro x r
          obtain ⟨t, out, sat, nan, emp, fb⟩ := x
          dsimp only
          split
          · dsimp only; split <;> simp
          · simp
        split
        · simp
        · rw [State.putStatus_kept, State.updEng_kept _ _ (by simp), forL_kept _ _ _ (by intro x s; simp)]
          exact hk

@[simp] theorem safeDom_kept (d : Nat) (s : State) : (safeDom d s).kept = s.kept := by
  unfold safeDom; dsimp only; (repeat' split) <;> simp

@[simp] theorem State.fallBack_kept (s : State) (p : Prog) : (State.fallBack s p).kept = s.kept := by
  unfold State.fallBack
  exact forL_kept _ _ _ fun _ _ => by simp

@[simp] theorem markBad_kept (a : Nat) (pg : Nat) (s : State) : (markBad a pg s).kept = s.kept := by
  unfold markBad; dsimp only; (repeat' split) <;> simp

@[simp] theorem State.restoreLaws_kept (s : State) : (State.restoreLaws s).kept = s.kept := by
  unfold State.restoreLaws
  exact forL_kept _ _ _ fun _ _ => by simp

@[simp] theorem WinSt.stop_kept (w : WinSt) (q : Prog) : (WinSt.stop w q).s.kept = w.s.kept := by
  simp [WinSt.stop]

@[simp] theorem WinSt.work_kept (w : WinSt) (lane p i : Nat) (fails : List Nat) :
    (w.work lane p i fails).1.s.kept = w.s.kept := by
  unfold WinSt.work
  cases w.s.prog p with
  | none => rfl
  | some q =>
    by_cases hm : i = safeMark
    · simp only [hm, if_true]
      exact forL_kept _ _ _ (by simp)
    · simp only [hm, if_false]
      have hk := w.s.runDesc_kept lane q i fails
      generalize w.s.runDesc lane q i _ = r at hk
      obtain ⟨t, e⟩ := r
      cases e with
      | ok => exact hk
      | invalid => simpa using hk
      | nan => simpa using hk
      | chk l => exact (WinSt.stop_kept ..).trans hk

@[simp] theorem WinSt.count_kept (w : WinSt) (a : Nat) (k : Nat) : (WinSt.count w a k).s.kept = w.s.kept := by
  simp [WinSt.count]

@[simp] theorem WinSt.cycle_kept (w : WinSt) (ups : List (Nat × Nat)) (c : Nat) (x : ArrSt) (taken : List Nat) :
    (w.cycle ups c x taken).1.s.kept = w.s.kept := by
  unfold WinSt.cycle; dsimp only
  split
  · dsimp only; split <;> simp
  · split
    · simp
    · split
      · dsimp only
        refine (WinSt.work_kept ..).trans ((forL_kept _ _ _ (fun g s => ?_)).trans (WinSt.count_kept ..))
        simp
      · exact (forL_kept _ _ _ (fun g s => by simp)).trans (WinSt.count_kept ..)

@[simp] theorem WinSt.allArrays_kept (ups : List (Nat × Nat)) (c : Nat) (l : List ArrSt) :
    ∀ (taken : List Nat) (w : WinSt), (WinSt.allArrays ups c l taken w).1.s.kept = w.s.kept := by
  induction l with
  | nil => intro taken w; rfl
  | cons x l ih => intro taken w; exact (ih ..).trans (WinSt.cycle_kept ..)

@[simp] theorem WinSt.cycles_kept (ups : List (Nat × Nat)) (n : Nat) :
    ∀ (c : Nat) (xs : List ArrSt) (w : WinSt), (WinSt.cycles ups n c xs w).1.s.kept = w.s.kept := by
  induction n with
  | zero => intro c xs w; rfl
  | succ n ih =>
    intro c xs w
    unfold WinSt.cycles
    split
    · rfl
    · exact (ih ..).trans (WinSt.allArrays_kept ..)

@[simp] theorem WinSt.pre_kept (w : WinSt) (x : ArrSt) : (WinSt.pre w x).1.s.kept = w.s.kept := by
  unfold WinSt.pre; dsimp only; (repeat' split) <;> simp

@[simp] theorem State.keepWork_kept (s : State) (act : Nat) (lane : Nat) (q : Work) :
    (State.keepWork s act lane q).kept = s.kept := by
  simp [State.keepWork]

theorem WinSt.foldl_kept {α : Type} (f : WinSt → α → WinSt) (h : ∀ w x, (f w x).s.kept = w.s.kept) (l : List α) :
    ∀ w, (l.foldl f w).s.kept = w.s.kept := by
  induction l with
  | nil => intro w; rfl
  | cons x r ih => intro w; exact (ih _).trans (h w x)

@[simp] theorem WinSt.abandon_kept (act : Nat) (w : WinSt) (ls : List Nat) : (w.abandon act ls).s.kept = w.s.kept := by
  unfold WinSt.abandon
  refine WinSt.foldl_kept _ (fun w l => ?_) _ w
  exact (WinSt.foldl_kept _ (fun w q => WinSt.stop_kept w q) _ _).trans (State.keepWork_kept ..)

@[simp] theorem WinSt.leave_kept (act : Nat) (cut : Bool) (w : WinSt) (x : ArrSt) :
    (WinSt.leave act cut w x).s.kept = w.s.kept := by
  unfold WinSt.leave; dsimp only; (repeat' split) <;> simp

@[simp] theorem State.runWindow_kept (s : State) (act : Nat) (ups : List (Nat × Nat)) :
    (s.runWindow act ups).s.kept = s.kept := by
  unfold State.runWindow; dsimp only
  refine (WinSt.foldl_kept _ (fun w x => WinSt.leave_kept ..) _ _).trans ((WinSt.cycles_kept ..).trans ?_)
  exact WinSt.foldl_kept _ (fun w (x : Nat × List Nat) => WinSt.abandon_kept act w x.2) _ ⟨s, []⟩

@[simp] theorem State.runLoops_kept (s : State) (ups : List (Nat × Nat)) : (State.runLoops s ups).kept = s.kept := by
  unfold State.runLoops
  exact (forL_kept _ _ _ fun d s => State.updDom_kept ..).trans (State.runWindow_kept ..)

@[simp] theorem State.updBad_kept (s : State) (pg : Nat) (f : BadPage → BadPage) : (State.updBad s pg f).kept = s.kept := by
  simp [State.updBad]

@[simp] theorem State.askPage_kept (s : State) (pg : Nat) : (State.askPage s pg).kept = s.kept := by
  simp [State.askPage]

@[simp] theorem State.takeBudgets_kept (s : State) : (State.takeBudgets s).kept = s.kept := by
  simp [State.takeBudgets]

@[simp] theorem wdStep_kept (d : Nat) (s : State) : (wdStep d s).kept = s.kept := by
  unfold wdStep
  exact forL_kept _ _ _ fun _ _ => by simp

@[simp] theorem State.withdrawBallast_kept (s : State) (d : Nat) (i : Nat) : (State.withdrawBallast s d i).kept = s.kept := by
  simp [State.withdrawBallast]

@[simp] theorem testSlot_kept (d : Nat) (slot : Nat) (s : State) : (testSlot d slot s).kept = s.kept := by
  unfold testSlot; (repeat' split) <;> simp

@[simp] theorem State.respond_kept (s : State) (c : Nat) (status : Nat) (ticket : Nat) (time : Nat) :
    (State.respond s c status ticket time).kept = s.kept := by
  simp [State.respond]

@[simp] theorem State.captureReq_kept (s : State) (c : Nat) (i : Instr) (req : Bool) :
    (State.captureReq s c i req).kept = s.kept := by
  simp [State.captureReq]

@[simp] theorem State.takeRequest_kept (s : State) (c : Nat) (n : Nat) (whole : Bool) (at_ : Nat) :
    (State.takeRequest s c n whole at_).kept = s.kept := by
  unfold State.takeRequest; (repeat' split) <;> simp

@[simp] theorem State.portOn_kept (s : State) (c : Nat) : (State.portOn s c).kept = s.kept := by
  unfold State.portOn; dsimp only; (repeat' split) <;> simp

@[simp] theorem State.snapStart_kept (s : State) (i : Nat) : (State.snapStart s i).kept = s.kept := by
  simp [State.snapStart]

@[simp] theorem State.snapEnd_kept (s : State) (i : Nat) : (State.snapEnd s i).kept = s.kept := by
  simp [State.snapEnd]

@[simp] theorem State.finish_kept (s : State) (i : Nat) (st : TkState) : (State.finish s i st).kept = s.kept := by
  simp [State.finish]

@[simp] theorem State.dropMember_kept (s : State) (i : Nat) : (State.dropMember s i).kept = s.kept := by
  simp [State.dropMember]

@[simp] theorem State.unsend_kept (s : State) (i : Nat) : (State.unsend s i).kept = s.kept := by
  simp [State.unsend]

@[simp] theorem State.withdraw_kept (s : State) (i : Nat) : (State.withdraw s i).kept = s.kept := by
  unfold State.withdraw; dsimp only; (repeat' split) <;> simp

@[simp] theorem State.withdrawAll_kept (s : State) (f : Ticket → Bool) : (State.withdrawAll s f).kept = s.kept := by
  simp [State.withdrawAll]

@[simp] theorem State.latchBase_kept (s : State) (d : Nat) (i : Nat) : (State.latchBase s d i).kept = s.kept := by
  unfold State.latchBase; (repeat' split) <;> simp

@[simp] theorem noteBase_kept (d : Nat) (s : State) : (noteBase d s).kept = s.kept := by
  simp [noteBase]

@[simp] theorem State.portErr_kept (s : State) (c : Nat) (n : Nat) : (State.portErr s c n).kept = s.kept := by
  unfold State.portErr; dsimp only; (repeat' split) <;> simp

@[simp] theorem State.chargeDyn_kept (s : State) (i : Nat) (k : Nat) (v : Nat) : (State.chargeDyn s i k v).kept = s.kept := by
  unfold State.chargeDyn; (repeat' split) <;> simp

@[simp] theorem State.tickDoms_kept (s : State) : (State.tickDoms s).kept = s.kept := by
  unfold State.tickDoms
  exact forL_kept _ _ _ fun _ _ => rfl

@[simp] theorem State.book_kept (s : State) (d : Nat) (i : Nat) (slot : Nat) : (State.book s d i slot).kept = s.kept := by
  simp [State.book]

@[simp] theorem State.unshedNow_kept (s : State) (d : Nat) : (State.unshedNow s d).kept = s.kept := by
  simp [State.unshedNow]

@[simp] theorem State.grant_kept (s : State) (d : Nat) (i : Nat) (slot : Nat) : (State.grant s d i slot).kept = s.kept := by
  simp [State.grant]

@[simp] theorem State.trySlots_kept (s : State) (d i t n slot : Nat) : (s.trySlots d i t n slot).kept = s.kept := by
  induction n generalizing s slot with
  | zero => simp [State.trySlots]
  | succ n ih =>
    unfold State.trySlots
    dsimp only
    split
    · simp
    · split
      · simp
      · exact (ih ..).trans (by simp)

@[simp] theorem State.enqueue_kept (s : State) : (State.enqueue s).kept = s.kept := by
  unfold State.enqueue
  exact forL_kept _ _ _ fun _ _ => by simp

@[simp] theorem State.noteSlot_kept (s : State) : (State.noteSlot s).kept = s.kept := by
  simp [State.noteSlot]

@[simp] theorem State.updSets_kept (s : State) (f : SgSetRec → Bool) (g : SgSetRec → SgSetRec) :
    (State.updSets s f g).kept = s.kept := by
  simp [State.updSets]

@[simp] theorem State.startRound_kept (s : State) (g : Nat) (lo : Nat) : (State.startRound s g lo).kept = s.kept := by
  unfold State.startRound; (repeat' split) <;> simp

@[simp] theorem State.completeSet_kept (s : State) (x : SgSetRec) : (State.completeSet s x).kept = s.kept := by
  simp [State.completeSet]

@[simp] theorem State.failRound_kept (s : State) (x : SgSetRec) : (State.failRound s x).kept = s.kept := by
  simp [State.failRound]

@[simp] theorem State.commitSet_kept (s : State) (x : SgSetRec) : (State.commitSet s x).kept = s.kept := by
  simp [State.commitSet]

@[simp] theorem State.countVotes_kept (s : State) (g : Nat) (k : Nat) : (State.countVotes s g k).kept = s.kept := by
  unfold State.countVotes; (repeat' split) <;> simp

@[simp] theorem State.bookAll_kept (s : State) (l : List Nat) (slot : Nat) : (s.bookAll l slot).1.kept = s.kept := by
  unfold State.bookAll
  suffices h : ∀ (l : List Nat) (p : State × Bool), (l.foldl (fun (s, ok) i =>
      if ok && s.memberFits i slot then
        (match s.tkDom (s.ticket i) with | some d => s.book d i slot | none => s, true)
      else (s, false)) p).1.kept = p.1.kept from h l (s, true)
  intro l
  induction l with
  | nil => intro p; rfl
  | cons i r ih =>
    intro p
    rw [List.foldl_cons, ih]
    dsimp only
    split
    · dsimp only; split <;> simp
    · rfl

@[simp] theorem unbook_kept (l : List Nat) (s : State) : (unbook l s).kept = s.kept := by
  unfold unbook
  exact forL_kept _ _ _ fun _ _ => by simp

@[simp] theorem State.forwardWd_kept (s : State) (f : Flit) : (State.forwardWd s f).kept = s.kept := by
  unfold State.forwardWd; dsimp only; (repeat' split) <;> simp

@[simp] theorem State.cmdEnd_kept (s : State) (res : Nat) : (State.cmdEnd s res).kept = s.kept := by
  simp [State.cmdEnd]

@[simp] theorem State.cmdDone_kept (s : State) (code : Nat) (res : Nat) : (State.cmdDone s code res).kept = s.kept := by
  simp [State.cmdDone]

@[simp] theorem State.cmdAt_kept (s : State) (tick : Nat) (res : Nat) : (State.cmdAt s tick res).kept = s.kept := by
  simp [State.cmdAt]

@[simp] theorem State.cmdTick_kept (s : State) : (State.cmdTick s).kept = s.kept := by
  unfold State.cmdTick; (repeat' split) <;> simp

end Sys2Proof.Machine
end

