-- ==== Sys2Proof/Laws/KeptField.lean ====
section
/-! SUPPORT. The domain, limit, thermal and tether operations that write no table leave the kept fields as they are. -/

namespace Sys2Proof.Machine

@[simp] theorem lateTests_kept (d : Nat) (s : State) : (lateTests d s).kept = s.kept := by
  unfold lateTests; dsimp only
  repeat' first | (simp; done) | split | (refine (forL_kept _ _ _ fun _ _ => ?_).trans ?_)

@[simp] theorem senseWord_kept (w : SenseWord) (s : State) : (senseWord w s).kept = s.kept := by
  simp [senseWord]

@[simp] theorem senseLink_kept (x : SampleIn) (d : Nat) (m : Nat) (s : State) : (senseLink x d m s).kept = s.kept := by
  simp [senseLink]

@[simp] theorem State.senseIn_kept (s : State) (x : SampleIn) : (State.senseIn s x).kept = s.kept := by
  unfold State.senseIn
  repeat' first | (simp; done) | split | (refine (forL_kept _ _ _ fun _ _ => ?_).trans ?_)

@[simp] theorem missTrep_kept (t : Nat) (s : State) : (missTrep t s).kept = s.kept := by
  simp [missTrep]

@[simp] theorem mittenCur_kept (m : Nat) (s : State) : (mittenCur m s).kept = s.kept := by
  simp [mittenCur]

@[simp] theorem noteShare_kept (t : Nat) (s : State) : (noteShare t s).kept = s.kept := by
  simp [noteShare]

@[simp] theorem measureDom_kept (d : Nat) (s : State) : (measureDom d s).kept = s.kept := by
  simp [measureDom]

@[simp] theorem State.measure_kept (s : State) : (State.measure s).kept = s.kept := by
  simp [State.measure]

@[simp] theorem senseMin_kept (d : Nat) (s : State) : (senseMin d s).kept = s.kept := by
  unfold senseMin; dsimp only; (repeat' split) <;> simp

@[simp] theorem shiftDom_kept (d : Nat) (s : State) : (shiftDom d s).kept = s.kept := by
  simp [shiftDom]

@[simp] theorem ballastNext_kept (d : Nat) (s : State) : (ballastNext d s).kept = s.kept := by
  unfold ballastNext; dsimp only; (repeat' split) <;> simp

@[simp] theorem stepVset_kept (d : Nat) (s : State) : (stepVset d s).kept = s.kept := by
  simp [stepVset]

@[simp] theorem moveVset_kept (d : Nat) (s : State) : (moveVset d s).kept = s.kept := by
  unfold moveVset; dsimp only; (repeat' split) <;> simp

@[simp] theorem testSample_kept (d : Nat) (s : State) : (testSample d s).kept = s.kept := by
  simp [testSample]

@[simp] theorem motion_kept (d : Nat) (s : State) : (motion d s).kept = s.kept := by
  simp [motion]

@[simp] theorem State.sendRefs_kept (s : State) : (State.sendRefs s).kept = s.kept := by
  unfold State.sendRefs
  repeat' first | (simp; done) | split | (refine (forL_kept _ _ _ fun _ _ => ?_).trans ?_)

@[simp] theorem countSat_kept (was : LoopState) (d : Nat) (s : State) : (countSat was d s).kept = s.kept := by
  simp [countSat]

@[simp] theorem State.tuneEnter_kept (s : State) : (State.tuneEnter s).kept = s.kept := by
  unfold State.tuneEnter; (repeat' split) <;> simp

@[simp] theorem State.tuneFinish_kept (s : State) (res : Nat) : (State.tuneFinish s res).kept = s.kept := by
  unfold State.tuneFinish; (repeat' split) <;> simp

@[simp] theorem State.tuneAbort_kept (s : State) (d : Nat) : (State.tuneAbort s d).1.kept = s.kept := by
  unfold State.tuneAbort; (repeat' split) <;> simp

@[simp] theorem State.latchFin_kept (s : State) : (State.latchFin s).kept = s.kept := by
  unfold State.latchFin
  exact forL_kept _ _ _ fun _ _ => by simp

@[simp] theorem State.engineSample_kept (s : State) (ups : List (Nat × Nat)) : (State.engineSample s ups).kept = s.kept := by
  unfold State.engineSample
  repeat' (first | (simp; done) | split | (refine (forL_kept _ _ _ (fun _ _ => ?_)).trans ?_) | (refine (forIdx_kept _ _ _ (fun _ _ => ?_)).trans ?_) | simp)

@[simp] theorem State.recordRetired_kept (s : State) : (State.recordRetired s).kept = s.kept := by
  unfold State.recordRetired
  repeat' first | (simp; done) | split | (refine (forL_kept _ _ _ fun _ _ => ?_).trans ?_)

@[simp] theorem State.groundBy_kept (s : State) (k : Nat) : (State.groundBy s k).kept = s.kept := by
  simp [State.groundBy]

@[simp] theorem groundDom_kept (d : Nat) (s : State) : (groundDom d s).kept = s.kept := by
  simp [groundDom]

@[simp] theorem State.enterGround_kept (s : State) (mask : Nat) : (State.enterGround s mask).kept = s.kept := by
  unfold State.enterGround; dsimp only; (repeat' split) <;> simp

@[simp] theorem zeroLaw_kept (d : Nat) (s : State) : (zeroLaw d s).kept = s.kept := by
  unfold zeroLaw
  exact forL_kept _ _ _ fun _ _ => by simp

@[simp] theorem ungroundDom_kept (d : Nat) (s : State) : (ungroundDom d s).kept = s.kept := by
  simp [ungroundDom]

@[simp] theorem State.leaveGround_kept (s : State) (mask : Nat) : (State.leaveGround s mask).kept = s.kept := by
  simp [State.leaveGround]

@[simp] theorem State.retireArrays_kept (s : State) : (State.retireArrays s).kept = s.kept := by
  simp [State.retireArrays]

@[simp] theorem chargeStatic_kept (d : Nat) (s : State) : (chargeStatic d s).kept = s.kept := by
  unfold chargeStatic
  repeat' first | (simp; done) | split | (refine (forL_kept _ _ _ fun _ _ => ?_).trans ?_)

@[simp] theorem closeDom_kept (d : Nat) (s : State) : (closeDom d s).kept = s.kept := by
  simp [closeDom]

@[simp] theorem State.closeField_kept (s : State) : (State.closeField s).kept = s.kept := by
  simp [State.closeField]

@[simp] theorem closeMargin_kept (d : Nat) (s : State) : (closeMargin d s).kept = s.kept := by
  unfold closeMargin
  repeat' first | (simp; done) | split | (refine (forL_kept _ _ _ fun _ _ => ?_).trans ?_) | simp

@[simp] theorem State.updLadder_kept (s : State) (k : Nat) (f : Ladder → Ladder) : (State.updLadder s k f).kept = s.kept := by
  simp [State.updLadder]

@[simp] theorem closeLadder_kept (k : Nat) (s : State) : (closeLadder k s).kept = s.kept := by
  simp [closeLadder]

@[simp] theorem State.closeFrame_kept (s : State) : (State.closeFrame s).kept = s.kept := by
  simp [State.closeFrame]

@[simp] theorem notchDom_kept (down : Bool) (bySp : Bool) (d : Nat) (s : State) : (notchDom down bySp d s).kept = s.kept := by
  simp [notchDom]

@[simp] theorem limitDom_kept (d : Nat) (s : State) : (limitDom d s).kept = s.kept := by
  simp [limitDom]

@[simp] theorem State.limitField_kept (s : State) : (State.limitField s).kept = s.kept := by
  unfold State.limitField; dsimp only
  repeat' first | (simp; done) | split | (refine (forL_kept _ _ _ fun _ _ => ?_).trans ?_) | simp

@[simp] theorem relaxSp_kept (d : Nat) (s : State) : (relaxSp d s).kept = s.kept := by
  simp [relaxSp]

@[simp] theorem State.limitFrame_kept (s : State) : (State.limitFrame s).kept = s.kept := by
  simp [State.limitFrame]

@[simp] theorem State.addDec_kept (s : State) (eff : Nat) (k : DecKind) : (State.addDec s eff k).kept = s.kept := by
  simp [State.addDec]

@[simp] theorem State.dropDecs_kept (s : State) (f : DecKind → Bool) : (State.dropDecs s f).kept = s.kept := by
  simp [State.dropDecs]

@[simp] theorem State.takeDec_kept (s : State) (eff : Nat) (k : DecKind) : (State.takeDec s eff k).kept = s.kept := by
  simp [State.takeDec]

@[simp] theorem State.sendMode_kept (s : State) (eff : Nat) (m : Mode) : (State.sendMode s eff m).kept = s.kept := by
  simp [State.sendMode]

@[simp] theorem State.sendAlloc_kept (s : State) (eff : Nat) (fld : Nat) (k : Nat) (mw : Nat) :
    (State.sendAlloc s eff fld k mw).kept = s.kept := by
  unfold State.sendAlloc; dsimp only; (repeat' split) <;> simp

@[simp] theorem State.takeMode_kept (s : State) (m : Mode) : (State.takeMode s m).kept = s.kept := by
  simp [State.takeMode]

@[simp] theorem State.takeRun_kept (s : State) (tOn : Nat) (tReady : Nat) : (State.takeRun s tOn tReady).kept = s.kept := by
  unfold State.takeRun; dsimp only; (repeat' split) <;> simp

@[simp] theorem State.applyDec_kept (s : State) (k : DecKind) : (State.applyDec s k).kept = s.kept := by
  unfold State.applyDec; (repeat' split) <;> simp

@[simp] theorem State.reportPart_kept (s : State) (fld : Nat) (rnd : Nat) (f : Report → Report) :
    (State.reportPart s fld rnd f).kept = s.kept := by
  simp [State.reportPart]

@[simp] theorem State.addJob_kept (s : State) (job : Nat) (uj : Nat) : (State.addJob s job uj).kept = s.kept := by
  unfold State.addJob; dsimp only; (repeat' split) <;> simp

@[simp] theorem State.sendJob_kept (s : State) (rnd : Nat) (job : Nat) (uj : Nat) :
    (State.sendJob s rnd job uj).kept = s.kept := by
  simp [State.sendJob]

@[simp] theorem State.sendJobs_kept (s : State) (rnd : Nat) : (State.sendJobs s rnd).kept = s.kept := by
  simp [State.sendJobs]

@[simp] theorem State.sendReport_kept (s : State) (rnd : Nat) : (State.sendReport s rnd).kept = s.kept := by
  simp [State.sendReport]

@[simp] theorem State.newSums_kept (s : State) : (State.newSums s).kept = s.kept := by
  simp [State.newSums]

@[simp] theorem State.newRound_kept (s : State) : (State.newRound s).kept = s.kept := by
  unfold State.newRound
  exact forL_kept _ _ _ fun _ _ => by simp

@[simp] theorem State.roundPowers_kept (s : State) : (State.roundPowers s).kept = s.kept := by
  simp [State.roundPowers]

@[simp] theorem State.judgeFloor_kept (s : State) (rnd : Nat) : (State.judgeFloor s rnd).kept = s.kept := by
  simp [State.judgeFloor]

@[simp] theorem countMissed_kept (rnd : Nat) (f : Nat) (s : State) : (countMissed rnd f s).kept = s.kept := by
  simp [countMissed]

@[simp] theorem addResid_kept (k : Nat) (x : Int) (s : State) : (addResid k x s).kept = s.kept := by
  simp [addResid]

@[simp] theorem State.judgeResid_kept (rnd : Nat) (s : State) : (State.judgeResid rnd s).kept = s.kept := by
  simp [State.judgeResid]

@[simp] theorem disputeFld_kept (eff : Nat) (rnd : Nat) (f : Nat) (s : State) : (disputeFld eff rnd f s).kept = s.kept := by
  simp [disputeFld]

@[simp] theorem State.allocate_kept (s : State) : (State.allocate s).kept = s.kept := by
  unfold State.allocate; dsimp only; (repeat' split) <;> simp

@[simp] theorem State.ownResid_kept (s : State) : (State.ownResid s).kept = s.kept := by
  simp [State.ownResid]

@[simp] theorem State.updAdc_kept (s : State) (i : Nat) (f : AdcEnt → AdcEnt) : (State.updAdc s i f).kept = s.kept := by
  simp [State.updAdc]

@[simp] theorem State.coolOff_kept (s : State) (d : Nat) : (State.coolOff s d).kept = s.kept := by
  simp [State.coolOff]

@[simp] theorem coolDomain_kept (d : Nat) (s : State) : (coolDomain d s).kept = s.kept := by
  simp [coolDomain]

@[simp] theorem State.dropNotch_kept (s : State) (d : Nat) : (State.dropNotch s d).kept = s.kept := by
  unfold State.dropNotch; dsimp only; (repeat' split) <;> simp

@[simp] theorem State.critDomain_kept (s : State) (d : Nat) : (State.critDomain s d).kept = s.kept := by
  simp [State.critDomain]

@[simp] theorem State.roundSensors_kept (s : State) : (State.roundSensors s).kept = s.kept := by
  simp [State.roundSensors]

@[simp] theorem tempSpare_kept (m : Nat) (s : State) : (tempSpare m s).kept = s.kept := by
  simp [tempSpare]

@[simp] theorem tempDom_kept (d : Nat) (s : State) : (tempDom d s).kept = s.kept := by
  unfold tempDom
  repeat' first | (simp; done) | split | (refine (forL_kept _ _ _ fun _ _ => ?_).trans ?_) | simp

@[simp] theorem thermRows_kept (d : Nat) (s : State) : (thermRows d s).kept = s.kept := by
  simp [thermRows]

@[simp] theorem thermLow_kept (d : Nat) (s : State) : (thermLow d s).kept = s.kept := by
  simp [thermLow]

@[simp] theorem thermExt_kept (i : Nat) (s : State) : (thermExt i s).kept = s.kept := by
  unfold thermExt; (repeat' split) <;> simp

@[simp] theorem State.thermRound_kept (s : State) : (State.thermRound s).kept = s.kept := by
  simp [State.thermRound]

@[simp] theorem State.trainRing_kept (s : State) (f : Flit) (r : Ring) : (State.trainRing s f r).kept = s.kept := by
  simp [State.trainRing]

@[simp] theorem State.sendXtTrain_kept (s : State) : (State.sendXtTrain s).kept = s.kept := by
  simp [State.sendXtTrain]

@[simp] theorem State.trainXt_kept (s : State) (f : Flit) : (State.trainXt s f).kept = s.kept := by
  simp [State.trainXt]

@[simp] theorem State.sendEcho_kept (s : State) (rings : Nat) : (State.sendEcho s rings).kept = s.kept := by
  simp [State.sendEcho]

@[simp] theorem State.takeTraining_kept (s : State) (ring1 : Bool) (ring2 : Bool) :
    (State.takeTraining s ring1 ring2).kept = s.kept := by
  unfold State.takeTraining; dsimp only; (repeat' split) <;> simp

@[simp] theorem State.steerBy_kept (s : State) (off : Int) : (State.steerBy s off).kept = s.kept := by
  simp [State.steerBy]

@[simp] theorem State.managerBack_kept (s : State) : (State.managerBack s).kept = s.kept := by
  simp [State.managerBack]

@[simp] theorem State.pllMove_kept (s : State) : (State.pllMove s).kept = s.kept := by
  simp [State.pllMove]

@[simp] theorem State.moveOwn_kept (s : State) : (State.moveOwn s).kept = s.kept := by
  simp [State.moveOwn]

@[simp] theorem State.takeRingDown_kept (s : State) (ring : Nat) : (State.takeRingDown s ring).kept = s.kept := by
  unfold State.takeRingDown; dsimp only; (repeat' split) <;> simp

@[simp] theorem State.sendLinkDown_kept (s : State) (ring : Nat) : (State.sendLinkDown s ring).kept = s.kept := by
  simp [State.sendLinkDown]

@[simp] theorem State.retrain_kept (s : State) : (State.retrain s).kept = s.kept := by
  simp [State.retrain]

@[simp] theorem State.sendTime_kept (s : State) : (State.sendTime s).kept = s.kept := by
  simp [State.sendTime]

@[simp] theorem State.tryRingUp_kept (s : State) (ring : Nat) : (State.tryRingUp s ring).kept = s.kept := by
  simp [State.tryRingUp]

@[simp] theorem State.repeatLinkDown_kept (s : State) : (State.repeatLinkDown s).kept = s.kept := by
  simp [State.repeatLinkDown]

@[simp] theorem State.xtHear_kept (s : State) (f : Flit) : (State.xtHear s f).kept = s.kept := by
  simp [State.xtHear]

@[simp] theorem State.xtClash_kept (s : State) : (State.xtClash s).kept = s.kept := by
  simp [State.xtClash]

@[simp] theorem State.sendThr_kept (s : State) : (State.sendThr s).kept = s.kept := by
  simp [State.sendThr]

@[simp] theorem State.withLoad_kept (v : State) (lane : Nat) (pl : Option (Nat × Nat × Nat × Nat)) :
    (State.withLoad v lane pl).kept = v.kept := by
  simp [State.withLoad]

@[simp] theorem State.placeDomains_kept (s : State) : (State.placeDomains s).kept = s.kept := by
  simp [State.placeDomains]

@[simp] theorem State.lostAtStart_kept (s : State) : (State.lostAtStart s).kept = s.kept := by
  simp [State.lostAtStart]

@[simp] theorem State.sendPars_kept (s : State) (q : Nat) : (State.sendPars s q).kept = s.kept := by
  simp [State.sendPars]

@[simp] theorem sendSection_kept (e : Sect) (k : Nat) (s : State) : (sendSection e k s).kept = s.kept := by
  simp [sendSection]

@[simp] theorem State.sendVerdict_kept (s : State) (good : Bool) (rc : Nat) : (State.sendVerdict s good rc).kept = s.kept := by
  simp [State.sendVerdict]

@[simp] theorem State.sendHold_kept (s : State) (f : Nat) (code : Nat) : (State.sendHold s f code).kept = s.kept := by
  simp [State.sendHold]

@[simp] theorem State.sendHash_kept (s : State) : (State.sendHash s).kept = s.kept := by
  simp [State.sendHash]

@[simp] theorem State.hashTick_kept (s : State) : (State.hashTick s).kept = s.kept := by
  simp [State.hashTick]

@[simp] theorem State.judgeHash_kept (s : State) (f : Nat) : (State.judgeHash s f).kept = s.kept := by
  simp [State.judgeHash]

@[simp] theorem State.tryRun_kept (s : State) : (State.tryRun s).kept = s.kept := by
  simp [State.tryRun]

@[simp] theorem State.safeNext_kept (s : State) : (State.safeNext s).kept = s.kept := by
  unfold State.safeNext; dsimp only; (repeat' split) <;> simp

end Sys2Proof.Machine
end

