-- ==== Sys2Proof/Laws/KeptHost.lean ====
section
/-! SUPPORT. The host, recorder and frame operations that write no table leave the kept fields as they are. -/

namespace Sys2Proof.Machine

@[simp] theorem State.rsp_kept (s : State) (st : HostSt) (data : Nat) : (State.rsp s st data).kept = s.kept := by
  simp [State.rsp]

@[simp] theorem State.okay_kept (s : State) : (State.okay s).kept = s.kept := by
  simp [State.okay]

@[simp] theorem State.refuse_kept (s : State) : (State.refuse s).kept = s.kept := by
  simp [State.refuse]

@[simp] theorem State.privFail_kept (s : State) (addr : Nat) (write : Bool) : (State.privFail s addr write).kept = s.kept := by
  simp [State.privFail]

@[simp] theorem State.acceptCmd_kept (s : State) (code : Nat) (cool : Bool) : (State.acceptCmd s code cool).kept = s.kept := by
  simp [State.acceptCmd]

@[simp] theorem State.startBody_kept (s : State) (code : Nat) (body : State → State) (h : ∀ s, (body s).kept = s.kept) :
    (s.startBody code body).kept = s.kept := by
  unfold State.startBody
  split
  · simp
  · exact h s

@[simp] theorem State.readPriv_kept (s : State) (addr : Nat) : (State.readPriv s addr).kept = s.kept := by
  simp [State.readPriv]

@[simp] theorem State.unlockPoints_kept (s : State) (w : Nat) : (State.unlockPoints s w).kept = s.kept := by
  unfold State.unlockPoints
  split
  · exact forL_kept _ _ _ fun _ _ => rfl
  · rfl

@[simp] theorem State.decideClear_kept (s : State) : (State.decideClear s).kept = s.kept := by
  simp [State.decideClear]

@[simp] theorem State.closeCleared_kept (s : State) (last : Bool) : (State.closeCleared s last).kept = s.kept := by
  simp [State.closeCleared]

@[simp] theorem State.clearFrame_kept (s : State) : (State.clearFrame s).kept = s.kept := by
  unfold State.clearFrame; (repeat' split) <;> simp

@[simp] theorem derateDom_kept (d : Nat) (s : State) : (derateDom d s).kept = s.kept := by
  simp [derateDom]

@[simp] theorem State.rungOffDom_kept (s : State) (d : Nat) : (State.rungOffDom s d).kept = s.kept := by
  simp [State.rungOffDom]

@[simp] theorem rungDom_kept (rs : List (Nat × Nat × Nat)) (d : Nat) (s : State) : (rungDom rs d s).kept = s.kept := by
  simp [rungDom]

@[simp] theorem heldOff_kept (d : Nat) (s : State) : (heldOff d s).kept = s.kept := by
  simp [heldOff]

@[simp] theorem State.vinFrame_kept (s : State) : (State.vinFrame s).kept = s.kept := by
  simp [State.vinFrame]

@[simp] theorem adcSample_kept (uv : List Int) (i : Nat) (s : State) : (adcSample uv i s).kept = s.kept := by
  simp [adcSample]

@[simp] theorem adcJudge_kept (i : Nat) (s : State) : (adcJudge i s).kept = s.kept := by
  unfold adcJudge; dsimp only; (repeat' split) <;> simp

@[simp] theorem closeCluster_kept (c : Nat) (s : State) : (closeCluster c s).kept = s.kept := by
  simp [closeCluster]

@[simp] theorem State.closeRound_kept (s : State) (tests : Bool) : (State.closeRound s tests).kept = s.kept := by
  simp [State.closeRound]

@[simp] theorem asideDom_kept (d : Nat) (s : State) : (asideDom d s).kept = s.kept := by
  simp [asideDom]

@[simp] theorem restartDom_kept (d : Nat) (s : State) : (restartDom d s).kept = s.kept := by
  simp [restartDom]

@[simp] theorem State.asideWindow_kept (s : State) : (State.asideWindow s).kept = s.kept := by
  simp [State.asideWindow]

@[simp] theorem State.restartWindow_kept (s : State) : (State.restartWindow s).kept = s.kept := by
  simp [State.restartWindow]

@[simp] theorem publishDom_kept (d : Nat) (s : State) : (publishDom d s).kept = s.kept := by
  simp [publishDom]

@[simp] theorem State.publish_kept (s : State) (n : Nat) : (State.publish s n).kept = s.kept := by
  simp [State.publish]

@[simp] theorem State.updPdev_kept (s : State) (i : Nat) (f : PmbDev → PmbDev) : (State.updPdev s i f).kept = s.kept := by
  simp [State.updPdev]

@[simp] theorem pmbDiscovered_kept (x : PmbAnswer) (i : Nat) (s : State) : (pmbDiscovered x i s).kept = s.kept := by
  simp [pmbDiscovered]

@[simp] theorem State.pmbStatus_kept (s : State) (i : Nat) (st : Nat) (temp : Nat) :
    (State.pmbStatus s i st temp).kept = s.kept := by
  simp [State.pmbStatus]

@[simp] theorem State.pmbLimit_kept (s : State) (i : Nat) (b : Nat) (code : Nat) (v : Int) (out : Bool) :
    (State.pmbLimit s i b code v out).kept = s.kept := by
  simp [State.pmbLimit]

@[simp] theorem State.pmbTake_kept (s : State) (i : Nat) (p : PmbPolled) : (State.pmbTake s i p).kept = s.kept := by
  simp [State.pmbTake]

@[simp] theorem State.pmbFirstFail_kept (s : State) (i : Nat) : (State.pmbFirstFail s i).kept = s.kept := by
  simp [State.pmbFirstFail]

@[simp] theorem State.pmbSecondFail_kept (s : State) (i : Nat) (reason : Nat) :
    (State.pmbSecondFail s i reason).kept = s.kept := by
  simp [State.pmbSecondFail]

@[simp] theorem State.readyIn_kept (s : State) (bound : Nat) : (State.readyIn s bound).kept = s.kept := by
  simp [State.readyIn]

@[simp] theorem State.putWin_kept (s : State) (n : Nat) : (State.putWin s n).kept = s.kept := by
  simp [State.putWin]

@[simp] theorem State.stage_kept (s : State) : (State.stage s).kept = s.kept := by
  unfold State.stage
  repeat' first | (simp; done) | split | (refine (State.updLog_kept _ _ rfl).trans ?_) | simp

@[simp] theorem State.advance_kept (s : State) : (State.advance s).kept = s.kept := by
  unfold State.advance; dsimp only; (repeat' split) <;> simp

@[simp] theorem State.dropAsm_kept (s : State) (fld : Nat) (f : Asm → Bool) : (State.dropAsm s fld f).kept = s.kept := by
  simp [State.dropAsm]

@[simp] theorem State.takeRec_kept (s : State) (fld : Nat) (msg : Nat) : (State.takeRec s fld msg).kept = s.kept := by
  unfold State.takeRec; dsimp only
  repeat' first | (simp; done) | split | (refine (State.updLog_kept _ _ rfl).trans ?_)

@[simp] theorem State.startProgram_kept (s : State) (l : List (Nat × Rec)) : (State.startProgram s l).kept = s.kept := by
  simp [State.startProgram]

@[simp] theorem dropLow_kept (r : Rec) (s : State) : (dropLow r s).kept = s.kept := by
  simp [dropLow]

@[simp] theorem State.dropBelow_kept (s : State) : (State.dropBelow s).kept = s.kept := by
  simp [State.dropBelow]

@[simp] theorem State.beginReclaim_kept (s : State) : (State.beginReclaim s).kept = s.kept := by
  unfold State.beginReclaim; dsimp only; (repeat' split) <;> simp

@[simp] theorem State.endPf_kept (s : State) : (State.endPf s).kept = s.kept := by
  simp [State.endPf]

@[simp] theorem State.flashNext_kept (s : State) : (State.flashNext s).kept = s.kept := by
  unfold State.flashNext; dsimp only; (repeat' split) <;> simp

@[simp] theorem State.noteFlushed_kept (s : State) : (State.noteFlushed s).kept = s.kept := by
  simp [State.noteFlushed]

@[simp] theorem State.stageAfter_kept (s : State) : (State.stageAfter s).kept = s.kept := by
  simp [State.stageAfter]

@[simp] theorem State.flashFail_kept (s : State) : (State.flashFail s).kept = s.kept := by
  simp [State.flashFail]

@[simp] theorem State.nvmWindow_kept (s : State) : (State.nvmWindow s).kept = s.kept := by
  simp [State.nvmWindow]

@[simp] theorem State.clearCtrs_kept (s : State) : (State.clearCtrs s).kept = s.kept := by
  simp [State.clearCtrs]

@[simp] theorem State.openClock_kept (s : State) (e : Nat) : (State.openClock s e).kept = s.kept := by
  simp [State.openClock]

@[simp] theorem State.countPort_kept (s : State) (e : Nat) (r : Ring) : (State.countPort s e r).kept = s.kept := by
  simp [State.countPort]

@[simp] theorem State.tickCtrs_kept (s : State) : (State.tickCtrs s).kept = s.kept := by
  simp [State.tickCtrs]

@[simp] theorem State.trcRsp_kept (s : State) (v : Nat) : (State.trcRsp s v).kept = s.kept := by
  simp [State.trcRsp]

@[simp] theorem State.setThaw_kept (s : State) (tt : Nat) : (State.setThaw s tt).kept = s.kept := by
  simp [State.setThaw]

@[simp] theorem State.orderStop_kept (s : State) (cause : Nat) (fld : Nat) : (State.orderStop s cause fld).kept = s.kept := by
  simp [State.orderStop]

@[simp] theorem State.tellLoss_kept (s : State) (cause : Nat) : (State.tellLoss s cause).kept = s.kept := by
  simp [State.tellLoss]

@[simp] theorem State.coolActions_kept (s : State) (cause : Nat) : (State.coolActions s cause).kept = s.kept := by
  simp [State.coolActions]

@[simp] theorem State.stopDie_kept (s : State) (cause : Nat) : (State.stopDie s cause).kept = s.kept := by
  simp [State.stopDie]

@[simp] theorem powerDom_kept (d : Nat) (s : State) : (powerDom d s).kept = s.kept := by
  simp [powerDom]

@[simp] theorem State.powerActions_kept (s : State) : (State.powerActions s).kept = s.kept := by
  simp [State.powerActions]

@[simp] theorem State.tripActions_kept (s : State) : (State.tripActions s).kept = s.kept := by
  simp [State.tripActions]

@[simp] theorem State.coolFrame_kept (s : State) : (State.coolFrame s).kept = s.kept := by
  unfold State.coolFrame; dsimp only
  repeat' first | (simp; done) | split | (refine (forL_kept _ _ _ fun _ _ => ?_).trans ?_)

@[simp] theorem State.refuseOn_kept (s : State) (d : Nat) (st : BringSt) : (State.refuseOn s d st).kept = s.kept := by
  simp [State.refuseOn]

@[simp] theorem State.bodyOn_kept (s : State) : (State.bodyOn s).kept = s.kept := by
  simp [State.bodyOn]

@[simp] theorem State.resumed_kept (s : State) (d : Nat) (accAt : Nat) : (State.resumed s d accAt).kept = s.kept := by
  simp [State.resumed]

@[simp] theorem State.pollOn_kept (s : State) (c : Cmd) : (State.pollOn s c).kept = s.kept := by
  unfold State.pollOn; dsimp only; (repeat' split) <;> simp

@[simp] theorem State.bodyOff_kept (s : State) : (State.bodyOff s).kept = s.kept := by
  simp [State.bodyOff]

@[simp] theorem State.pollOff_kept (s : State) (c : Cmd) : (State.pollOff s c).kept = s.kept := by
  simp [State.pollOff]

@[simp] theorem State.pollCmd_kept (s : State) : (State.pollCmd s).kept = s.kept := by
  unfold State.pollCmd; (repeat' split) <;> simp

@[simp] theorem State.bodyMode_kept (s : State) : (State.bodyMode s).kept = s.kept := by
  simp [State.bodyMode]

@[simp] theorem State.bodyTune_kept (s : State) : (State.bodyTune s).kept = s.kept := by
  unfold State.bodyTune; dsimp only; (repeat' split) <;> simp

@[simp] theorem State.bodyCap_kept (s : State) : (State.bodyCap s).kept = s.kept := by
  simp [State.bodyCap]

@[simp] theorem State.bodyFreeze_kept (s : State) : (State.bodyFreeze s).kept = s.kept := by
  simp [State.bodyFreeze]

@[simp] theorem State.bodyThaw_kept (s : State) : (State.bodyThaw s).kept = s.kept := by
  simp [State.bodyThaw]

@[simp] theorem State.bodyDump_kept (s : State) : (State.bodyDump s).kept = s.kept := by
  simp [State.bodyDump]

@[simp] theorem State.bodyFlush_kept (s : State) : (State.bodyFlush s).kept = s.kept := by
  simp [State.bodyFlush]

@[simp] theorem State.cmdBody_kept (s : State) (code : Nat) : (State.cmdBody s code).kept = s.kept := by
  unfold State.cmdBody; (repeat' split) <;> simp

@[simp] theorem State.stopRamp_kept (s : State) (d : Nat) : (State.stopRamp s d).1.kept = s.kept := by
  unfold State.stopRamp; dsimp only; (repeat' split) <;> simp

@[simp] theorem State.stopBridle_kept (s : State) (d : Nat) : (State.stopBridle s d).1.kept = s.kept := by
  unfold State.stopBridle; (repeat' split) <;> simp

@[simp] theorem State.stopTune_kept (s : State) (d : Nat) : (State.stopTune s d).1.kept = s.kept := by
  unfold State.stopTune; (repeat' split) <;> simp

@[simp] theorem State.stopFlush_kept (s : State) : (State.stopFlush s).1.kept = s.kept := by
  unfold State.stopFlush; (repeat' split) <;> simp

@[simp] theorem State.stopDump_kept (s : State) (old : Option Cmd) : (State.stopDump s old).1.kept = s.kept := by
  unfold State.stopDump; (repeat' split) <;> simp

@[simp] theorem State.stopTrace_kept (s : State) : (State.stopTrace s).1.kept = s.kept := by
  unfold State.stopTrace; (repeat' split) <;> simp

@[simp] theorem State.cancelWaiting_kept (s : State) (d : Nat) : (State.cancelWaiting s d).kept = s.kept := by
  simp [State.cancelWaiting]

@[simp] theorem State.dropCmd_kept (s : State) : (State.dropCmd s).kept = s.kept := by
  simp [State.dropCmd]

@[simp] theorem lockstepDom_kept (d : Nat) (s : State) : (lockstepDom d s).kept = s.kept := by
  simp [lockstepDom]

@[simp] theorem State.holdWrite_kept (s : State) (a : Nat) (w : Nat) : (State.holdWrite s a w).kept = s.kept := by
  simp [State.holdWrite]

@[simp] theorem putVreq_kept (d : Nat) (w : Nat) (s : State) : (putVreq d w s).kept = s.kept := by
  simp [putVreq]

@[simp] theorem putUcal_kept (d : Nat) (w : Nat) (s : State) : (putUcal d w s).kept = s.kept := by
  simp [putUcal]

@[simp] theorem putLawB_kept (d : Nat) (w : Nat) (s : State) : (putLawB d w s).kept = s.kept := by
  simp [putLawB]

@[simp] theorem putPg_kept (d : Nat) (w : Nat) (s : State) : (putPg d w s).kept = s.kept := by
  simp [putPg]

@[simp] theorem putTileCtl_kept (t : Nat) (w : Nat) (s : State) : (putTileCtl t w s).kept = s.kept := by
  simp [putTileCtl]

@[simp] theorem putPar_kept (k : Nat) (w : Nat) (s : State) : (putPar k w s).kept = s.kept := by
  unfold putPar
  exact forL_kept _ _ _ fun _ _ => by simp

@[simp] theorem putQmax_kept (w : Nat) (s : State) : (putQmax w s).kept = s.kept := by
  simp [putQmax]

@[simp] theorem putSgLead_kept (w : Nat) (s : State) : (putSgLead w s).kept = s.kept := by
  simp [putSgLead]

@[simp] theorem State.dropGroup_kept (s : State) (g : Nat) : (State.dropGroup s g).kept = s.kept := by
  simp [State.dropGroup]

@[simp] theorem putSgMask_kept (g : Nat) (i : Nat) (w : Nat) (s : State) : (putSgMask g i w s).kept = s.kept := by
  simp [putSgMask]

@[simp] theorem putHk_kept (w : Nat) (s : State) : (putHk w s).kept = s.kept := by
  simp [putHk]

@[simp] theorem putTlm_kept (w : Nat) (s : State) : (putTlm w s).kept = s.kept := by
  simp [putTlm]

@[simp] theorem putBud_kept (w : Nat) (s : State) : (putBud w s).kept = s.kept := by
  simp [putBud]

@[simp] theorem putCommit_kept (s : State) : (putCommit s).kept = s.kept := by
  simp [putCommit]

@[simp] theorem putJobRel_kept (w : Nat) (s : State) : (putJobRel w s).kept = s.kept := by
  unfold putJobRel; (repeat' split) <;> simp

@[simp] theorem State.rspWordOf_kept (s : State) (x : RegWord) : (State.rspWordOf s x).kept = s.kept := by
  simp [State.rspWordOf]

@[simp] theorem State.readLow_kept (s : State) (a : Nat) (v : Nat) : (State.readLow s a v).kept = s.kept := by
  simp [State.readLow]

@[simp] theorem State.readHigh_kept (s : State) (a : Nat) (v : Nat) : (State.readHigh s a v).kept = s.kept := by
  unfold State.readHigh; (repeat' split) <;> simp

@[simp] theorem State.extendBy_kept (s : State) (tf n d : Nat) : (s.extendBy tf n d).kept = s.kept := by
  simp only [State.extendBy, kept_doms, State.updFlt_kept, State.updTth_kept, State.updMgr_kept, State.updTk_kept]

@[simp] theorem State.runHeld_kept (s : State) : (State.runHeld s).kept = s.kept := by
  unfold State.runHeld; (repeat' split) <;> simp

@[simp] theorem State.frameBudgets_kept (s : State) : (State.frameBudgets s).kept = s.kept := by
  unfold State.frameBudgets; (repeat' split) <;> simp

@[simp] theorem State.framePages_kept (s : State) : (State.framePages s).kept = s.kept := by
  simp [State.framePages]

@[simp] theorem targetDom_kept (d : Nat) (s : State) : (targetDom d s).kept = s.kept := by
  unfold targetDom; (repeat' split) <;> simp

@[simp] theorem State.frameTickets_kept (s : State) : (State.frameTickets s).kept = s.kept := by
  simp [State.frameTickets]

@[simp] theorem shedFrame_kept (d : Nat) (s : State) : (shedFrame d s).kept = s.kept := by
  unfold shedFrame; dsimp only; (repeat' split) <;> simp

@[simp] theorem State.shedTo_kept (s : State) (d : Nat) (lvl : Nat) : (State.shedTo s d lvl).kept = s.kept := by
  simp [State.shedTo]

@[simp] theorem State.frameLedger_kept (s : State) : (State.frameLedger s).kept = s.kept := by
  simp [State.frameLedger]

@[simp] theorem State.frameEngine_kept (s : State) : (State.frameEngine s).kept = s.kept := by
  simp [State.frameEngine]

@[simp] theorem State.frameShares_kept (s : State) : (State.frameShares s).kept = s.kept := by
  simp [State.frameShares]

@[simp] theorem frameRetry_kept (d : Nat) (s : State) : (frameRetry d s).kept = s.kept := by
  simp [frameRetry]

@[simp] theorem State.frameRungs_kept (s : State) : (State.frameRungs s).kept = s.kept := by
  simp [State.frameRungs]

@[simp] theorem State.frameTargets_kept (s : State) : (State.frameTargets s).kept = s.kept := by
  simp [State.frameTargets]

end Sys2Proof.Machine
end

