-- ==== Sys2Proof/Laws/Tables.lean ====
section
/-!
SUPPORT. Tables and byte memories: reading what was written, and the canonical form, which every write keeps.
-/

namespace Sys2Proof.Machine

variable {α : Type} [DecidableEq α]

/-- The canonical form, as a proposition that inductions use: every index lies above `lo`. -/
def Above (lo : Option Nat) (k : Nat) : Prop := ∀ l, lo = some l → l < k

theorem twfFrom_cons (d : α) (lo : Option Nat) (i : Nat) (v : α) (r : Tbl α) :
    twfFrom d lo ((i, v) :: r) = true ↔ Above lo i ∧ v ≠ d ∧ twfFrom d (some i) r = true := by
  cases lo <;> simp [twfFrom, Above, and_assoc]

theorem twfFrom_mono (d : α) {lo : Option Nat} {i : Nat} {t : Tbl α} (ha : Above lo i) (h : twfFrom d (some i) t = true) :
    twfFrom d lo t = true := by
  cases t with
  | nil => cases lo <;> rfl
  | cons e r =>
    obtain ⟨j, v⟩ := e
    rw [twfFrom_cons] at h ⊢
    exact ⟨fun l hl => Nat.lt_trans (ha l hl) (h.1 i rfl), h.2⟩

theorem twfFrom_tset (d : α) {t : Tbl α} : ∀ {lo : Option Nat} {k : Nat} {v : α}, Above lo k → twfFrom d lo t = true →
    twfFrom d lo (tset d t k v) = true := by
  induction t with
  | nil =>
    intro lo k v ha _
    by_cases hv : v = d
    · simp [tset, hv, twfFrom]
    · simp only [tset, hv, if_false, twfFrom_cons]
      exact ⟨ha, hv, rfl⟩
  | cons e r ih =>
    obtain ⟨i, x⟩ := e
    intro lo k v ha h
    rw [twfFrom_cons] at h
    obtain ⟨h1, h2, h3⟩ := h
    simp only [tset]
    split
    · split
      · exact (twfFrom_cons ..).2 ⟨h1, h2, h3⟩
      · rename_i hki hv
        refine (twfFrom_cons ..).2 ⟨ha, hv, (twfFrom_cons ..).2 ⟨?_, h2, h3⟩⟩
        intro l hl; cases hl; exact hki
    · split
      · split
        · exact twfFrom_mono d h1 h3
        · rename_i hk hv
          subst hk
          exact (twfFrom_cons ..).2 ⟨h1, hv, h3⟩
      · rename_i hlt hne
        refine (twfFrom_cons ..).2 ⟨h1, h2, ih ?_ h3⟩
        intro l hl; cases hl; omega

/-- A write keeps the canonical form. -/
theorem twf_tset (d : α) (t : Tbl α) (k : Nat) (v : α) (h : twf d t = true) : twf d (tset d t k v) = true :=
  twfFrom_tset d (fun _ hl => nomatch hl) h

/-- The empty table is canonical. -/
@[simp] theorem twf_nil (d : α) : twf d ([] : Tbl α) = true := rfl

/-- An entry written is read back. -/
@[simp] theorem tget_tset_same (d : α) (t : Tbl α) (k : Nat) (v : α) (h : twf d t = true) : tget d (tset d t k v) k = v := by
  suffices g : ∀ (t : Tbl α) (lo : Option Nat), twfFrom d lo t = true → tget d (tset d t k v) k = v from g t none h
  intro t
  induction t with
  | nil => intro lo _; by_cases hv : v = d <;> simp [tset, tget, hv]
  | cons e r ih =>
    obtain ⟨i, x⟩ := e
    intro lo hw
    rw [twfFrom_cons] at hw
    have below : ∀ (u : Tbl α) (j : Nat), twfFrom d (some j) u = true → k ≤ j → tget d u k = d := by
      intro u
      induction u with
      | nil => intros; rfl
      | cons f w ihw =>
        obtain ⟨a, b⟩ := f
        intro j hj hk
        rw [twfFrom_cons] at hj
        have ha := hj.1 j rfl
        simp only [tget]
        rw [if_neg (by omega)]
        exact ihw a hj.2.2 (by omega)
    simp only [tset]
    split
    · rename_i hki
      split
      · rename_i hv
        simp only [tget]
        rw [if_neg (by omega), hv]
        exact below r i hw.2.2 (by omega)
      · simp [tget]
    · split
      · rename_i hk
        subst hk
        split
        · rename_i hv
          rw [hv]
          exact below r _ hw.2.2 (Nat.le_refl _)
        · simp [tget]
      · rename_i hlt hne
        simp only [tget]
        rw [if_neg (fun h => hne h.symm)]
        exact ih (some i) hw.2.2

/-- A write leaves every other entry alone. -/
@[simp] theorem tget_tset_other (d : α) (t : Tbl α) (k j : Nat) (v : α) (h : j ≠ k) : tget d (tset d t k v) j = tget d t j := by
  induction t with
  | nil => by_cases hv : v = d <;> simp [tset, tget, hv, Ne.symm h]
  | cons e r ih =>
    obtain ⟨i, x⟩ := e
    simp only [tset]
    split
    · split
      · rfl
      · simp [tget, Ne.symm h]
    · split
      · rename_i hk
        subst hk
        split <;> simp [tget, Ne.symm h]
      · simp only [tget, ih]

/-! ### Byte memories -/

theorem wf_tset (d : BitVec 8) (m : List Host.Cell) (a : Nat) (b : BitVec 8) (h : Memory.wf d m = true) :
    Memory.wf d (tset d m a b) = true := twf_tset d m a b h

theorem wf_writeLE (d : BitVec 8) (n : Nat) : ∀ (m : List Host.Cell) (a v : Nat), Memory.wf d m = true →
    Memory.wf d (writeLE d m a n v) = true := by
  induction n with
  | zero => intro m a v h; exact h
  | succ n ih => intro m a v h; exact ih _ _ _ (wf_tset d m a _ h)

theorem wf_writeBytes (d : BitVec 8) (l : List (BitVec 8)) : ∀ (m : List Host.Cell) (a : Nat), Memory.wf d m = true →
    Memory.wf d (writeBytes d m a l) = true := by
  induction l with
  | nil => intro m a h; exact h
  | cons b r ih => intro m a h; exact ih _ _ (wf_tset d m a b h)

theorem wf_foldl {β : Type} (d : BitVec 8) (l : List β) (f : List Host.Cell → β → List Host.Cell)
    (hf : ∀ m x, Memory.wf d m = true → Memory.wf d (f m x) = true) :
    ∀ m, Memory.wf d m = true → Memory.wf d (l.foldl f m) = true := by
  induction l with
  | nil => intro m h; exact h
  | cons x r ih => intro m h; exact ih _ (hf m x h)

/-- A byte outside those written reads as before. -/
theorem tget_writeBytes_other (d : BitVec 8) (l : List (BitVec 8)) : ∀ (m : List Host.Cell) (a j : Nat),
    j < a ∨ a + l.length ≤ j → tget d (writeBytes d m a l) j = tget d m j := by
  induction l with
  | nil => intro m a j _; rfl
  | cons b r ih =>
    intro m a j h
    simp only [List.length_cons] at h
    rw [writeBytes, ih _ _ _ (by omega), tget_tset_other _ _ _ _ _ (by omega)]

/-- The bytes written are read back. -/
theorem readBytes_writeBytes (d : BitVec 8) (l : List (BitVec 8)) (m : List Host.Cell) (a : Nat) (h : Memory.wf d m = true) :
    readBytes d (writeBytes d m a l) a l.length = l := by
  suffices g : ∀ (l : List (BitVec 8)) (m : List Host.Cell) (a i : Nat), Memory.wf d m = true → i < l.length →
      tget d (writeBytes d m a l) (a + i) = l.getD i 0 by
    apply List.ext_getElem
    · simp [readBytes]
    · intro i h1 h2
      simp only [readBytes, List.getElem_map, List.getElem_range]
      rw [g l m a i h h2]
      simp [List.getD, List.getElem?_eq_getElem h2]
  intro l
  induction l with
  | nil => intro m a i _ hi; simp at hi
  | cons b r ih =>
    intro m a i hm hi
    cases i with
    | zero =>
      rw [writeBytes, tget_writeBytes_other d r _ _ _ (by omega)]
      simpa using tget_tset_same d m a b hm
    | succ i =>
      rw [writeBytes]
      have := ih (tset d m a b) (a + 1) i (wf_tset d m a b hm) (by simpa using hi)
      rw [show a + (i + 1) = a + 1 + i by omega, this]
      simp

end Sys2Proof.Machine
end

