-- ==== Sys2Proof/Laws/Invariant.lean ====
section
/-!
SUPPORT. What keeps the invariant: the operations that do write a byte memory, TETHER_TIME or a strap. One lemma each, beside
the lemmas on the kept part for the operations that write none of them.
-/

namespace Sys2Proof.Machine

/-- What no command between two resets changes: the straps and the queue of waiting commands. -/
structure Held where
  manager : Bool
  fieldId : Nat
  nvmEn : Bool
  pending : List Instr

/-- That part of the kept part. -/
def Kept.held (k : Kept) : Held := { manager := k.manager, fieldId := k.fieldId, nvmEn := k.nvmEn, pending := k.pending }

/-- The invariant, with the straps and the queue at given values. -/
def State.Good (s : State) (q : Held) : Prop := s.Inv ∧ s.kept.held = q

theorem State.Good.of_kept {s t : State} {q : Held} (hs : s.Good q) (h : t.kept = s.kept) : t.Good q :=
  ⟨State.Inv.of_kept h hs.1, (congrArg Kept.held h).trans hs.2⟩

theorem State.good_of_kept {s t : State} {q : Held} (h : t.kept = s.kept) (hs : s.Good q) : t.Good q := hs.of_kept h

/-! ### Writes of one memory -/

theorem State.Good.updEng {s : State} {q : Held} (h : s.Good q) (f : Engine → Engine)
    (g : Memory.wf 0 (f s.eng).mem = true ∧ Memory.wf 0 (f s.eng).copies = true ∧ Memory.wf 0 (f s.eng).tblBuf = true ∧
      Memory.wf 0 (f s.eng).reload = true) : (s.updEng f).Good q := by
  obtain ⟨⟨⟨a, b, _, _, _, _, c⟩, d⟩, z⟩ := h
  exact ⟨⟨⟨a, b, g.1, g.2.1, g.2.2.1, g.2.2.2, c⟩, d⟩, z⟩

theorem State.Good.updLog {s : State} {q : Held} (h : s.Good q) (f : Recorder → Recorder) (g : Memory.wf 0xFF (f s.log).nvm = true) :
    (s.updLog f).Good q := by
  obtain ⟨⟨⟨a, b, c, d, e, i, _, j⟩, k⟩, z⟩ := h
  exact ⟨⟨⟨a, b, c, d, e, i, g, j⟩, k⟩, z⟩

theorem State.Good.setNvm {s : State} {q : Held} (h : s.Good q) (m : List Host.Cell) (g : Memory.wf 0xFF m = true) (f : Recorder → Recorder)
    (e : (f s.log).nvm = m) : (s.updLog f).Good q := h.updLog f (by rw [e]; exact g)

theorem State.Good.updObs {s : State} {q : Held} (h : s.Good q) (f : Observe → Observe)
    (g : Memory.wf 0 (f s.obs).dumpArea = true ∧ Memory.wf 0 (f s.obs).snapMem = true) : (s.updObs f).Good q := by
  obtain ⟨⟨⟨a, b, c, d, e, i, j, _⟩, k⟩, z⟩ := h
  exact ⟨⟨⟨a, b, c, d, e, i, j, g⟩, k⟩, z⟩

theorem State.Good.sections {s : State} {q : Held} (h : s.Good q) (c p : List Host.Cell) (hc : Memory.wf 0 c = true) (hp : Memory.wf 0 p = true) :
    ({ s with cfg := c, pend := p } : State).Good q := by
  obtain ⟨⟨⟨_, _, a⟩, k⟩, z⟩ := h
  exact ⟨⟨⟨hc, hp, a⟩, k⟩, z⟩

theorem State.Good.withFresh {s : State} {q : Held} (h : s.Good q) (n : Nat) : ({ s with fresh := n } : State).Good q := h

theorem State.Good.mem {s : State} {q : Held} (h : s.Good q) : Memory.wf 0 s.eng.mem = true := h.1.1.2.2.1
theorem State.Good.copies {s : State} {q : Held} (h : s.Good q) : Memory.wf 0 s.eng.copies = true := h.1.1.2.2.2.1
theorem State.Good.tblBuf {s : State} {q : Held} (h : s.Good q) : Memory.wf 0 s.eng.tblBuf = true := h.1.1.2.2.2.2.1
theorem State.Good.reload {s : State} {q : Held} (h : s.Good q) : Memory.wf 0 s.eng.reload = true := h.1.1.2.2.2.2.2.1
theorem State.Good.nvm {s : State} {q : Held} (h : s.Good q) : Memory.wf 0xFF s.log.nvm = true := h.1.1.2.2.2.2.2.2.1
theorem State.Good.dumpArea {s : State} {q : Held} (h : s.Good q) : Memory.wf 0 s.obs.dumpArea = true := h.1.1.2.2.2.2.2.2.2.1
theorem State.Good.snapMem {s : State} {q : Held} (h : s.Good q) : Memory.wf 0 s.obs.snapMem = true := h.1.1.2.2.2.2.2.2.2.2

theorem forL_good {α : Type} {q : Held} (f : α → State → State) (h : ∀ x s, s.Good q → (f x s).Good q) :
    ∀ (l : List α) (s : State), s.Good q → (forL l f s).Good q := by
  intro l
  induction l with
  | nil => intro s hs; exact hs
  | cons x r ih => intro s hs; exact ih (f x s) (h x s hs)

theorem forIdx_good {q : Held} (f : Nat → State → State) (n : Nat) (h : ∀ x s, s.Good q → (f x s).Good q) (s : State) (hs : s.Good q) :
    (forIdx n f s).Good q := forL_good f h (List.range n) s hs

/-! ### Table pages -/

theorem State.writePage_good {s : State} {q : Held} (h : s.Good q) (pg : Nat) (l : List (BitVec 8)) : (s.writePage pg l).Good q :=
  h.updEng _ ⟨wf_writeBytes _ _ _ _ h.mem, h.copies, h.tblBuf, h.reload⟩

theorem State.writeHostPage_good {s : State} {q : Held} (h : s.Good q) (pg : Nat) (l : List (BitVec 8)) : (s.writeHostPage pg l).Good q := by
  have k := State.writePage_good h pg l
  exact k.updEng _ ⟨k.mem, wf_writeBytes _ _ _ _ k.copies, k.tblBuf, k.reload⟩

theorem State.landCommit_good {s : State} {q : Held} (h : s.Good q) : s.landCommit.Good q := by
  unfold State.landCommit
  split
  · exact h
  · dsimp only
    split
    · exact h
    · rename_i pg t _ _
      have k := State.writeHostPage_good h pg (readBytes 0 s.eng.tblBuf 0 256)
      generalize s.writeHostPage pg (readBytes 0 s.eng.tblBuf 0 256) = u at k
      refine State.good_of_kept (State.updBad_kept _ _ _) ?_
      exact k.updEng _ ⟨k.mem, k.copies, k.tblBuf, k.reload⟩

theorem State.putLaw_good {s : State} {q : Held} (h : s.Good q) (d kp ki kd ulim : Nat) : (s.putLaw d kp ki kd ulim).Good q := by
  unfold State.putLaw
  split
  · exact h.of_kept (by simp)
  · exact State.writeHostPage_good h _ _

theorem State.loadPages_good {s : State} {q : Held} (h : s.Good q) (a b : Nat) : (s.loadPages a b).Good q := by
  refine forL_good _ (fun x s hs => State.writePage_good hs _ _) _ _ ?_
  exact h.updEng _ ⟨rfl, rfl, h.tblBuf, h.reload⟩

theorem State.restorePage_good {s : State} {q : Held} (h : s.Good q) (pg : Nat) : (s.restorePage pg).Good q := by
  unfold State.restorePage
  lift_lets
  intro ok u
  have hu : u.Good q := State.writePage_good (h.withFresh _) pg _
  clear_value u
  split
  · exact hu.of_kept (by simp)
  · exact hu.of_kept (by simp)

theorem State.reloadPage_good {s : State} {q : Held} (h : s.Good q) (pg : Nat) : (s.reloadPage pg).Good q := by
  unfold State.reloadPage
  split
  · exact State.restorePage_good h pg
  · exact h.of_kept (by simp)

theorem State.retryPages_good {s : State} {q : Held} (h : s.Good q) : s.retryPages.Good q :=
  forL_good _ (fun _ _ h => State.reloadPage_good (h.of_kept (State.updBad_kept _ _ _)) _) _ _ h

theorem State.evalRound_good {s : State} {q : Held} (h : s.Good q) : s.evalRound.Good q := by
  unfold State.evalRound
  lift_lets
  intro rnd u
  have hu : u.Good q := h.of_kept (by simp [u])
  clear_value u
  intro v
  have hv : v.Good q := hu.of_kept (by simp [v])
  clear_value v
  exact State.good_of_kept (State.sendThr_kept _) (State.retryPages_good (hv.of_kept (State.updEng_kept _ _ ⟨rfl, rfl, rfl, rfl⟩)))

theorem State.takeChunk_good {s : State} {q : Held} (h : s.Good q) (pg i v : Nat) : (s.takeChunk pg i v).Good q := by
  unfold State.takeChunk
  dsimp only
  have k : (if s.eng.loadPage = some pg then s
      else s.updEng fun e => { e with loadPage := some pg, reload := [], reloadGot := [] }).Good q := by
    split
    · exact h
    · exact h.updEng _ ⟨h.mem, h.copies, h.tblBuf, rfl⟩
  exact k.updEng _ ⟨k.mem, k.copies, k.tblBuf, wf_writeLE _ _ _ _ _ k.reload⟩

theorem putPage_good {s : State} {q : Held} (h : s.Good q) (w : Nat) : (putPage w s).Good q := by
  have k : Memory.wf 0 (writeBytes 0 [] 0 (s.pageBytes (w % 8192))) = true := wf_writeBytes _ _ _ _ rfl
  unfold putPage
  dsimp only
  generalize writeBytes 0 [] 0 (s.pageBytes (w % 8192)) = m at k ⊢
  exact h.updEng _ ⟨h.mem, h.copies, k, h.reload⟩

/-! ### The flash -/

theorem State.programmed_good {s : State} {q : Held} (h : s.Good q) : s.programmed.Good q :=
  h.updLog _ (wf_foldl _ _ _ (fun _ _ k => wf_writeBytes _ _ _ _ k) _ h.nvm)

theorem State.spoilSlots_nvm {s : State} {q : Held} (h : s.Good q) : Memory.wf 0xFF s.spoilSlots.log.nvm = true :=
  wf_foldl _ _ _ (fun _ _ k => wf_writeBytes _ _ _ _ k) _ h.nvm

theorem State.spoilSlots_good {s : State} {q : Held} (h : s.Good q) : s.spoilSlots.Good q := by
  have k := State.spoilSlots_nvm h
  unfold State.spoilSlots at k ⊢
  dsimp only at k ⊢
  exact (h.withFresh _).setNvm _ k _ rfl

theorem State.programFailed_good {s : State} {q : Held} (h : s.Good q) : s.programFailed.Good q := by
  have k := State.spoilSlots_good h
  unfold State.programFailed
  dsimp only
  split
  · exact k.of_kept (by simp)
  · exact k.of_kept (by simp)

theorem State.halfErase_good {s : State} {q : Held} (h : s.Good q) (v : Nat) : (s.halfErase v).Good q := by
  have k := wf_foldl 0xFF (List.range 4096) (fun m i => tset 0xFF m (s.slotAddr (64 * v) + i) (tget 0xFF m (s.slotAddr (64 * v) + i) |||
    (Config.freeWord (s.fresh + i)).truncate 8)) (fun _ _ k => wf_tset _ _ _ _ k) _ h.nvm
  unfold State.halfErase
  dsimp only
  generalize List.range 4096 = r at k ⊢
  exact (h.withFresh _).setNvm _ k _ rfl

theorem State.cutFlash_wf {s : State} {q : Held} (h : s.Good q) : Memory.wf 0xFF s.cutFlash = true := by
  unfold State.cutFlash
  have k : Memory.wf 0xFF (s.log.prog.foldl (fun m e => (e.2.2.flashBytes.zipIdx).foldl (fun m (b, i) =>
      let a := s.slotAddr e.1 + i
      tset 0xFF m a (tget 0xFF m a &&& (b ||| (Config.freeWord (s.fresh + a)).truncate 8))) m) s.log.nvm) = true :=
    wf_foldl _ _ _ (fun _ _ k => wf_foldl _ _ _ (fun _ _ k => wf_tset _ _ _ _ k) _ k) _ h.nvm
  dsimp only
  split
  · exact k
  · exact (State.halfErase_good (s := { s with log := { s.log with nvm := _ } }) (h.updLog (fun l => { l with nvm := _ }) k) _).nvm

/-! ### Snapshots and dumps -/

theorem snapPut_wf {m : List Host.Cell} (h : Memory.wf 0 m = true) (a n v : Nat) : Memory.wf 0 (snapPut m a n v) = true :=
  wf_writeLE _ _ _ _ _ h

theorem State.snapshot_wf (s : State) : Memory.wf 0 s.snapshot = true := by
  unfold State.snapshot
  dsimp only
  split
  all_goals
    repeat' first
      | with_reducible exact rfl
      | with_reducible apply snapPut_wf
      | with_reducible refine wf_foldl _ _ _ (fun _ _ k => snapPut_wf k _ _ _) _ ?_
  all_goals rfl

theorem State.latchSnap_good {s : State} {q : Held} (h : s.Good q) : s.latchSnap.Good q := by
  have g := s.snapshot_wf
  unfold State.latchSnap
  generalize s.snapshot = m at g ⊢
  refine State.good_of_kept (State.cmdDone_kept _ _ _) ?_
  exact (h.withFresh _).updObs _ ⟨h.dumpArea, g⟩

theorem State.copyDump_good {s : State} {q : Held} (h : s.Good q) (cut : Bool) : (s.copyDump cut).Good q := by
  have k : ∀ f : Observe → Observe, (f s.obs).dumpArea = writeBytes 0 [] 0 s.dumpBytes.1 ∧ (f s.obs).snapMem = s.obs.snapMem →
      (s.updObs f).Good q := by
    intro f hf
    exact h.updObs f ⟨by rw [hf.1]; exact wf_writeBytes _ _ _ _ rfl, by rw [hf.2]; exact h.snapMem⟩
  unfold State.copyDump
  dsimp only
  split
  · exact State.good_of_kept (State.cmdAt_kept _ _ _) (k _ ⟨rfl, rfl⟩)
  · exact k _ ⟨rfl, rfl⟩

theorem State.stopSnap_good {s : State} {q : Held} (h : s.Good q) : s.stopSnap.1.Good q := by
  unfold State.stopSnap
  split
  · exact h.updObs _ ⟨h.dumpArea, wf_tset _ _ _ _ h.snapMem⟩
  · exact h

theorem State.bodySnap_good {s : State} {q : Held} (h : s.Good q) : s.bodySnap.Good q := by
  unfold State.bodySnap
  split
  · exact State.latchSnap_good h
  · exact h.of_kept (by simp)

/-! ### The ABORT command -/

theorem State.stopBusy_good {s : State} {q : Held} (h : s.Good q) (old : Option Cmd) : (s.stopBusy old).1.Good q := by
  unfold State.stopBusy
  dsimp only
  repeat' split
  all_goals first
    | exact h
    | exact State.stopSnap_good h
    | exact h.of_kept (by simp [doneUnless])

theorem State.abortFn_good {s : State} {q : Held} (h : s.Good q) (arg : Nat) (old : Option Cmd) : (s.abortFn arg old).1.Good q := by
  unfold State.abortFn
  dsimp only
  split
  all_goals first
    | exact h
    | exact State.stopSnap_good h
    | exact State.stopBusy_good h _
    | exact h.of_kept (by simp)

theorem State.abortNow_good {s : State} {q : Held} (h : s.Good q) (arg : Nat) (old : Option Cmd) : (s.abortNow arg old).Good q := by
  unfold State.abortNow
  dsimp only
  split
  · exact h.of_kept (State.cmdAt_kept _ _ _)
  · exact (State.abortFn_good h arg old).of_kept (State.cmdAt_kept _ _ _)

theorem State.dropRunning_good {s : State} {q : Held} (h : s.Good q) : s.dropRunning.Good q := by
  unfold State.dropRunning
  lift_lets
  intro u
  have hu : u.Good q := by unfold u; split <;> exact h.of_kept (by simp)
  clear_value u
  exact State.stopSnap_good (hu.of_kept (by simp))

/-! ### Time -/

theorem State.stepTime_good {s : State} {q : Held} (h : s.Good q) (k : Int) : (s.stepTime k).Good q := by
  obtain ⟨⟨a, _, c⟩, z⟩ := h
  refine ⟨⟨a, ?_, c⟩, z⟩
  show (((s.time : Int) - k) % 2 ^ 64).toNat < 2 ^ 64
  omega

theorem State.estimate_good {s : State} {q : Held} (h : s.Good q) (off : Int) : (s.estimate off).Good q := by
  unfold State.estimate
  dsimp only
  repeat' split
  all_goals first
    | (refine State.stepTime_good (h.of_kept ?_) _; simp)
    | exact h.of_kept (by simp)

theorem State.tryEstimate_good {s : State} {q : Held} (h : s.Good q) (last : Bool) : (s.tryEstimate last).Good q := by
  unfold State.tryEstimate
  dsimp only
  split
  · exact State.estimate_good (h.of_kept (State.updTth_kept _ _)) _
  · split
    · exact State.estimate_good h _
    · exact h
  · split
    · exact State.estimate_good h _
    · exact h
  · exact h

theorem State.workerTime_good {s : State} {q : Held} (h : s.Good q) (f : Flit) (r : Ring) (arr : Nat) : (s.workerTime f r arr).Good q := by
  unfold State.workerTime
  dsimp only
  refine State.good_of_kept (State.managerBack_kept _) (State.tryEstimate_good (h.of_kept ?_) _)
  split <;> simp

theorem State.tetherFrame_good {s : State} {q : Held} (h : s.Good q) : s.tetherFrame.Good q := by
  unfold State.tetherFrame
  dsimp only
  split
  · exact h.of_kept (by split <;> simp)
  · exact State.good_of_kept (State.updTth_kept _ _) (State.tryEstimate_good (h.of_kept (by simp)) _)

theorem State.xtOffset_good {s : State} {q : Held} (h : s.Good q) (ofs : Int) : (s.xtOffset ofs).Good q := by
  unfold State.xtOffset
  dsimp only
  split
  · refine State.good_of_kept (State.updMgr_kept _ _) (State.stepTime_good (h.of_kept ?_) _); simp
  · exact h.of_kept (by (repeat' split) <;> simp)

@[simp] theorem State.tickCool_kept (s : State) : s.tickCool.kept = s.kept := State.updLim_kept _ _

theorem State.tick_good {s : State} {q : Held} (h : s.Good q) : s.tick.Good q := by
  have hu : s.linkTick.Good q := h.of_kept (State.linkTick_kept _)
  unfold State.tick
  dsimp only
  generalize s.linkTick = u at hu ⊢
  have hv : ({ u with time := (u.time + 1) % 2 ^ 64 } : State).Good q := by
    obtain ⟨⟨a, _, c⟩, z⟩ := hu
    refine ⟨⟨a, ?_, c⟩, z⟩
    show (u.time + 1) % 2 ^ 64 < 2 ^ 64
    omega
  generalize ({ u with time := (u.time + 1) % 2 ^ 64 } : State) = v at hv ⊢
  exact hv.of_kept (by split <;> simp)

/-! ### The sections -/

theorem State.factoryStart_good {s : State} {q : Held} (h : s.Good q) : s.factoryStart.Good q := by
  unfold State.factoryStart
  split
  · exact h
  · dsimp only
    refine State.good_of_kept (s := { s with cfg := [], pend := [] }) (by simp) (h.sections _ _ rfl rfl)

theorem State.shareOf_wf (s : State) (f : Nat) (mgr : Bool) : Memory.wf 0 (s.shareOf f mgr) = true :=
  wf_foldl _ _ _ (fun _ _ k => wf_writeBytes _ _ _ _ k) _ rfl

theorem commitCal_good {s : State} {q : Held} (h : s.Good q) (d : Nat) : (commitCal d s).Good q := by
  unfold commitCal
  dsimp only
  split
  · refine State.putLaw_good (h.of_kept ?_) ..; simp
  · exact h.of_kept (by simp)

end Sys2Proof.Machine
end

