-- ==== Sys2Proof/Laws/KeptExec.lean ====
section
/-! SUPPORT. The commands that write no byte memory, no strap and no time leave the kept fields as they are: one lemma each. -/

namespace Sys2Proof.Machine

theorem leads_recv (s : State) (kind : Nat) (r : Ring) (f : Flit) (c : Instr) (act : State → State)
    (h : ∀ u, (act u).kept = u.kept) : Leads (s.recv kind r f c act) fun t => t.kept = s.kept := by
  unfold State.recv
  dsimp only
  repeat' split
  · simp
  · exact (leads_next _ _).2 ((h _).trans (by simp))
  · simp

theorem leads_runCmd (s : State) (code : Nat) (np mo p cool : Bool) (body : State → State)
    (h : ∀ u, (body u).kept = u.kept) : Leads (s.runCmd code np mo p cool body) fun t => t.kept = s.kept := by
  unfold State.runCmd
  dsimp only
  repeat' split
  all_goals first | (simp; done) | simpa using (State.startBody_kept _ _ _ h).trans (by simp)

theorem leads_hostPut (s : State) (a w : Nat) (p early frz bad : Bool) (note put : State → State)
    (h : (note s).kept = s.kept) (g : (put s).kept = s.kept) :
    Leads (s.hostPut a w p early frz bad note put) fun t => t.kept = s.kept := by
  unfold State.hostPut
  repeat' split
  all_goals simp [h, g]

theorem leads_ite {c : Prop} [Decidable c] {a b : Out} {P : State → Prop} (h : Leads a P) (g : Leads b P) :
    Leads (if c then a else b) P := by
  split
  · exact h
  · exact g

theorem execSwitchingPeriod_kept (t : Fin 192) (x : PeriodMeas) (s : State) : Leads (execSwitchingPeriod t x s) fun t => t.kept = s.kept := by
  unfold execSwitchingPeriod; (repeat' split) <;> simp

theorem execTileSampleBoundary_kept (t : Fin 192) (s : State) : Leads (execTileSampleBoundary t s) fun t => t.kept = s.kept := by
  unfold execTileSampleBoundary; split <;> simp

theorem execDroopAssert_kept (m : Fin 32) (s : State) : Leads (execDroopAssert m s) fun t => t.kept = s.kept := by
  unfold execDroopAssert
  exact (leads_next _ _).2 (forIdx_kept _ _ _ fun _ _ => by simp)

theorem execDroopHoldExpiry_kept (t : Fin 192) (s : State) : Leads (execDroopHoldExpiry t s) fun t => t.kept = s.kept := by
  simp [execDroopHoldExpiry]

theorem execIlimPk_kept (t : Fin 192) (k : Fin 4) (s : State) : Leads (execIlimPk t k s) fun t => t.kept = s.kept := by
  simp [execIlimPk]

theorem execIlimNeg_kept (t : Fin 192) (k : Fin 4) (s : State) : Leads (execIlimNeg t k s) fun t => t.kept = s.kept := by
  simp [execIlimNeg]

theorem execIlimHold_kept (t : Fin 192) (k : Fin 4) (s : State) : Leads (execIlimHold t k s) fun t => t.kept = s.kept := by
  unfold execIlimHold; (try dsimp only); (repeat' split) <;> simp

theorem execMcrbN_kept (m : Fin 32) (s : State) : Leads (execMcrbN m s) fun t => t.kept = s.kept := by
  unfold execMcrbN
  exact (leads_next _ _).2 (forIdx_kept _ _ _ fun _ _ => by simp)

theorem execMfltN_kept (m : Fin 32) (s : State) : Leads (execMfltN m s) fun t => t.kept = s.kept := by
  unfold execMfltN
  exact (leads_next _ _).2 (forIdx_kept _ _ _ fun _ _ => by simp)

theorem execVsnsOpen_kept (t : Fin 192) (s : State) : Leads (execVsnsOpen t s) fun t => t.kept = s.kept := by
  simp [execVsnsOpen]

theorem execVsnsOpenExit_kept (t : Fin 192) (s : State) : Leads (execVsnsOpenExit t s) fun t => t.kept = s.kept := by
  simp [execVsnsOpenExit]

theorem execOpenPhase_kept (t : Fin 192) (k : Fin 4) (s : State) : Leads (execOpenPhase t k s) fun t => t.kept = s.kept := by
  simp [execOpenPhase]

theorem execPrechargeDone_kept (t : Fin 192) (x : StartPulses) (s : State) : Leads (execPrechargeDone t x s) fun t => t.kept = s.kept := by
  simp [execPrechargeDone]

theorem execCapDone_kept (t : Fin 192) (s : State) : Leads (execCapDone t s) fun t => t.kept = s.kept := by
  simp [execCapDone]

theorem execRampEnd_kept (t : Fin 192) (s : State) : Leads (execRampEnd t s) fun t => t.kept = s.kept := by
  simp [execRampEnd]

theorem execSpineLoss_kept (t : Fin 192) (s : State) : Leads (execSpineLoss t s) fun t => t.kept = s.kept := by
  simp [execSpineLoss]

theorem execPendingEventExpiry_kept (t : Fin 192) (s : State) : Leads (execPendingEventExpiry t s) fun t => t.kept = s.kept := by
  simp [execPendingEventExpiry]

theorem execTileNop_kept (c : TileRx) (s : State) : Leads (execTileNop c s) fun t => t.kept = s.kept := by
  simp [execTileNop]

theorem execStart_kept (c : TileRx) (s : State) : Leads (execStart c s) fun t => t.kept = s.kept := by
  simp [execStart]

theorem execSsTarget_kept (t : Fin 192) (w : RxWord) (s : State) : Leads (execSsTarget t w s) fun t => t.kept = s.kept := by
  simp [execSsTarget]

theorem execSsGo_kept (t : Fin 192) (w : RxWord) (s : State) : Leads (execSsGo t w s) fun t => t.kept = s.kept := by
  simp [execSsGo]

theorem execStop_kept (c : TileRx) (s : State) : Leads (execStop c s) fun t => t.kept = s.kept := by
  simp [execStop]

theorem execShed_kept (t : Fin 192) (w : RxWord) (s : State) : Leads (execShed t w s) fun t => t.kept = s.kept := by
  simp [execShed]

theorem execUnshed_kept (t : Fin 192) (w : RxWord) (s : State) : Leads (execUnshed t w s) fun t => t.kept = s.kept := by
  simp [execUnshed]

theorem execRetirePhase_kept (t : Fin 192) (w : RxWord) (s : State) : Leads (execRetirePhase t w s) fun t => t.kept = s.kept := by
  simp [execRetirePhase]

theorem execRetireTile_kept (c : TileRx) (s : State) : Leads (execRetireTile c s) fun t => t.kept = s.kept := by
  simp [execRetireTile]

theorem execCrowbar_kept (c : TileRx) (s : State) : Leads (execCrowbar c s) fun t => t.kept = s.kept := by
  simp [execCrowbar]

theorem execClear_kept (c : TileRx) (s : State) : Leads (execClear c s) fun t => t.kept = s.kept := by
  simp [execClear]

theorem execSetOfs_kept (t : Fin 192) (w : RxWord) (s : State) : Leads (execSetOfs t w s) fun t => t.kept = s.kept := by
  simp [execSetOfs]

theorem execSetShare_kept (t : Fin 192) (w : RxWord) (s : State) : Leads (execSetShare t w s) fun t => t.kept = s.kept := by
  simp [execSetShare]

theorem execCapTest_kept (t : Fin 192) (w : RxWord) (s : State) : Leads (execCapTest t w s) fun t => t.kept = s.kept := by
  simp [execCapTest]

theorem execSync_kept (t : Fin 192) (w : Word) (chk : BitVec 4) (s : State) : Leads (execSync t w chk s) fun t => t.kept = s.kept := by
  simp [execSync]

theorem execMref_kept (t : Fin 192) (w : Word) (chk : BitVec 4) (s : State) : Leads (execMref t w chk s) fun t => t.kept = s.kept := by
  simp [execMref]

theorem execMsum_kept (t : Fin 192) (w : Word) (chk : BitVec 4) (s : State) : Leads (execMsum t w chk s) fun t => t.kept = s.kept := by
  simp [execMsum]

theorem execCfg_kept (t : Fin 192) (w : Word) (chk : BitVec 4) (s : State) : Leads (execCfg t w chk s) fun t => t.kept = s.kept := by
  simp [execCfg]

theorem execBringUpStart_kept (d : Fin 32) (s : State) : Leads (execBringUpStart d s) fun t => t.kept = s.kept := by
  unfold execBringUpStart; (repeat' split) <;> simp

theorem execBringWindow_kept (d : Fin 32) (s : State) : Leads (execBringWindow d s) fun t => t.kept = s.kept := by
  unfold execBringWindow; (repeat' split) <;> simp

theorem execBridleStart_kept (d : Fin 32) (s : State) : Leads (execBridleStart d s) fun t => t.kept = s.kept := by
  unfold execBridleStart; split <;> simp

theorem execBridleStage_kept (d : Fin 32) (s : State) : Leads (execBridleStage d s) fun t => t.kept = s.kept := by
  unfold execBridleStage; dsimp only; (repeat' split) <;> simp

theorem execBridleHold_kept (d : Fin 32) (s : State) : Leads (execBridleHold d s) fun t => t.kept = s.kept := by
  unfold execBridleHold; dsimp only; (repeat' split) <;> simp

theorem execBridleRetry_kept (d : Fin 32) (s : State) : Leads (execBridleRetry d s) fun t => t.kept = s.kept := by
  unfold execBridleRetry; dsimp only; (repeat' split) <;> simp

theorem execOffSequenceStart_kept (d : Fin 32) (s : State) : Leads (execOffSequenceStart d s) fun t => t.kept = s.kept := by
  unfold execOffSequenceStart; dsimp only; (repeat' split) <;> simp

theorem execRetryGap_kept (d : Fin 32) (s : State) : Leads (execRetryGap d s) fun t => t.kept = s.kept := by
  unfold execRetryGap; dsimp only; (repeat' split) <;> simp

theorem execTrep_kept (q : Fin 8) (w : BitVec 64) (chk : BitVec 4) (s : State) : Leads (execTrep q w chk s) fun t => t.kept = s.kept := by
  unfold execTrep; (try dsimp only); (repeat' split) <;> simp

theorem execEvent_kept (q : Fin 8) (w : BitVec 64) (chk : BitVec 4) (s : State) : Leads (execEvent q w chk s) fun t => t.kept = s.kept := by
  unfold execEvent; (try dsimp only); (repeat' split) <;> simp

theorem execTileLost_kept (t : Fin 192) (s : State) : Leads (execTileLost t s) fun t => t.kept = s.kept := by
  unfold execTileLost; split <;> simp

theorem execWindowPreempt_kept (a : Activity) (l : Fin 4) (s : State) : Leads (execWindowPreempt a l s) fun t => t.kept = s.kept := by
  unfold execWindowPreempt; dsimp only
  repeat' first | (simp; done) | split | (refine (forL_kept _ _ _ fun _ _ => ?_).trans ?_) | simp

theorem execBallastMismatch_kept (d : Fin 32) (s : State) : Leads (execBallastMismatch d s) fun t => t.kept = s.kept := by
  unfold execBallastMismatch; split <;> simp

theorem execTicketRequest_kept (c : Fin 32) (w : BitVec 96) (whole : Bool) (s : State) : Leads (execTicketRequest c w whole s) fun t => t.kept = s.kept := by
  unfold execTicketRequest; dsimp only; (repeat' split) <;> simp

theorem execTicketResponse_kept (c : Fin 32) (s : State) : Leads (execTicketResponse c s) fun t => t.kept = s.kept := by
  unfold execTicketResponse; (repeat' split) <;> simp

theorem execTicketArm_kept (i : Fin 65536) (s : State) : Leads (execTicketArm i s) fun t => t.kept = s.kept := by
  unfold execTicketArm; dsimp only; (repeat' split) <;> simp

theorem execTicketLaunch_kept (i : Fin 65536) (s : State) : Leads (execTicketLaunch i s) fun t => t.kept = s.kept := by
  unfold execTicketLaunch; dsimp only; (repeat' split) <;> simp

theorem execTicketRun_kept (i : Fin 65536) (s : State) : Leads (execTicketRun i s) fun t => t.kept = s.kept := by
  unfold execTicketRun; dsimp only; (repeat' split) <;> simp

theorem execTicketExpiry_kept (i : Fin 65536) (s : State) : Leads (execTicketExpiry i s) fun t => t.kept = s.kept := by
  unfold execTicketExpiry; dsimp only; (repeat' split) <;> simp

theorem execDoneReport_kept (c : Fin 32) (w : Word) (whole : Bool) (s : State) : Leads (execDoneReport c w whole s) fun t => t.kept = s.kept := by
  unfold execDoneReport; dsimp only; (repeat' split) <;> simp

theorem execCountReport_kept (c : Fin 32) (w : BitVec 96) (whole : Bool) (s : State) : Leads (execCountReport c w whole s) fun t => t.kept = s.kept := by
  unfold execCountReport; dsimp only; (repeat' split) <;> simp

theorem execGrantPass_kept (s : State) : Leads (execGrantPass s) fun t => t.kept = s.kept := by
  unfold execGrantPass
  repeat' first | (simp; done) | split | (refine (forL_kept _ _ _ fun _ _ => ?_).trans ?_) | simp

theorem execClStretch_kept (c : Fin 32) (s : State) : Leads (execClStretch c s) fun t => t.kept = s.kept := by
  unfold execClStretch
  repeat' first | (simp; done) | split | (refine (forL_kept _ _ _ fun _ _ => ?_).trans ?_) | simp

theorem execClMargin_kept (c : Fin 32) (gray : BitVec 4) (s : State) : Leads (execClMargin c gray s) fun t => t.kept = s.kept := by
  simp [execClMargin]

theorem execSgFwd_kept (f : RxFlit) (s : State) : Leads (execSgFwd f s) fun t => t.kept = s.kept := by
  unfold execSgFwd
  refine leads_recv _ _ _ _ _ _ fun s => ?_
  try dsimp only
  (repeat' split) <;> simp

theorem execSgVote_kept (f : RxFlit) (s : State) : Leads (execSgVote f s) fun t => t.kept = s.kept := by
  unfold execSgVote
  refine leads_recv _ _ _ _ _ _ fun s => ?_
  try dsimp only
  (repeat' split) <;> simp

theorem execSgVoteTimeout_kept (g : Fin 64) (s : State) : Leads (execSgVoteTimeout g s) fun t => t.kept = s.kept := by
  unfold execSgVoteTimeout; (repeat' split) <;> simp

theorem execSgFail_kept (g : Fin 64) (s : State) : Leads (execSgFail g s) fun t => t.kept = s.kept := by
  unfold execSgFail; (repeat' split) <;> simp

theorem execSgDrop_kept (f : RxFlit) (s : State) : Leads (execSgDrop f s) fun t => t.kept = s.kept := by
  unfold execSgDrop
  refine leads_recv _ _ _ _ _ _ fun s => ?_
  try dsimp only
  (repeat' split) <;> simp

theorem execSgSet_kept (f : RxFlit) (s : State) : Leads (execSgSet f s) fun t => t.kept = s.kept := by
  unfold execSgSet
  refine leads_recv _ _ _ _ _ _ fun s => forIdx_kept _ _ _ fun _ _ => ?_
  dsimp only
  split
  · rfl
  · split <;> simp

theorem execSgProp_kept (f : RxFlit) (s : State) : Leads (execSgProp f s) fun t => t.kept = s.kept := by
  unfold execSgProp
  refine leads_recv _ _ _ _ _ _ fun s => ?_
  try dsimp only
  (repeat' split) <;> simp

theorem execSgCommit_kept (f : RxFlit) (s : State) : Leads (execSgCommit f s) fun t => t.kept = s.kept := by
  unfold execSgCommit
  refine leads_recv _ _ _ _ _ _ fun s => ?_
  dsimp only
  split
  · exact forL_kept _ _ _ fun _ _ => by split <;> simp
  · split <;> simp

theorem execSgCancel_kept (f : RxFlit) (s : State) : Leads (execSgCancel f s) fun t => t.kept = s.kept := by
  unfold execSgCancel
  refine leads_recv _ _ _ _ _ _ fun s => ?_
  try dsimp only
  (repeat' split) <;> simp

theorem execSgWd_kept (f : RxFlit) (s : State) : Leads (execSgWd f s) fun t => t.kept = s.kept := by
  unfold execSgWd
  refine leads_recv _ _ _ _ _ _ fun s => ?_
  try dsimp only
  (repeat' split) <;> simp

theorem execSenseTrust_kept (p : Fin 512) (s : State) : Leads (execSenseTrust p s) fun t => t.kept = s.kept := by
  unfold execSenseTrust; dsimp only; (repeat' split) <;> simp

theorem execTrustRegain_kept (p : Fin 512) (s : State) : Leads (execTrustRegain p s) fun t => t.kept = s.kept := by
  unfold execTrustRegain; dsimp only; (repeat' split) <;> simp

theorem execDomSat_kept (d : Fin 32) (s : State) : Leads (execDomSat d s) fun t => t.kept = s.kept := by
  unfold execDomSat; dsimp only; (repeat' split) <;> simp

theorem execDomSatPersist_kept (d : Fin 32) (s : State) : Leads (execDomSatPersist d s) fun t => t.kept = s.kept := by
  unfold execDomSatPersist; dsimp only; (repeat' split) <;> simp

theorem execTuneEnd_kept (s : State) : Leads (execTuneEnd s) fun t => t.kept = s.kept := by
  unfold execTuneEnd; (repeat' split) <;> simp

theorem execForecasterPeriod_kept (s : State) : Leads (execForecasterPeriod s) fun t => t.kept = s.kept := by
  unfold execForecasterPeriod
  repeat' first | (simp; done) | split | (refine (forL_kept _ _ _ fun _ _ => ?_).trans ?_) | simp

theorem execRedistSlow_kept (m : Fin 32) (s : State) : Leads (execRedistSlow m s) fun t => t.kept = s.kept := by
  unfold execRedistSlow; dsimp only; (repeat' split) <;> simp

theorem execShareOsc_kept (t : Fin 192) (s : State) : Leads (execShareOsc t s) fun t => t.kept = s.kept := by
  unfold execShareOsc; split <;> simp

theorem execEngArrayRetired_kept (a : Fin 4) (s : State) : Leads (execEngArrayRetired a s) fun t => t.kept = s.kept := by
  unfold execEngArrayRetired; split <;> simp

theorem execLadderNotchDown_kept (k : LadCls) (s : State) : Leads (execLadderNotchDown k s) fun t => t.kept = s.kept := by
  unfold execLadderNotchDown; dsimp only; (repeat' split) <;> simp

theorem execLadderNotchUp_kept (k : LadCls) (s : State) : Leads (execLadderNotchUp k s) fun t => t.kept = s.kept := by
  unfold execLadderNotchUp; dsimp only; (repeat' split) <;> simp

theorem execDdMode_kept (f : RxFlit) (s : State) : Leads (execDdMode f s) fun t => t.kept = s.kept := by
  unfold execDdMode
  refine leads_recv _ _ _ _ _ _ fun s => ?_
  try dsimp only
  (repeat' split) <;> simp

theorem execDdAlloc_kept (f : RxFlit) (s : State) : Leads (execDdAlloc f s) fun t => t.kept = s.kept := by
  unfold execDdAlloc
  refine leads_recv _ _ _ _ _ _ fun s => ?_
  try dsimp only
  (repeat' split) <;> simp

theorem execDieDecisionApply_kept (s : State) : Leads (execDieDecisionApply s) fun t => t.kept = s.kept := by
  unfold execDieDecisionApply; split <;> simp

theorem execRptClass_kept (f : RxFlit) (s : State) : Leads (execRptClass f s) fun t => t.kept = s.kept := by
  unfold execRptClass
  refine leads_recv _ _ _ _ _ _ fun s => ?_
  try dsimp only
  (repeat' split) <;> simp

theorem execRptDemand_kept (f : RxFlit) (s : State) : Leads (execRptDemand f s) fun t => t.kept = s.kept := by
  unfold execRptDemand
  refine leads_recv _ _ _ _ _ _ fun s => ?_
  try dsimp only
  (repeat' split) <;> simp

theorem execRptField_kept (f : RxFlit) (s : State) : Leads (execRptField f s) fun t => t.kept = s.kept := by
  unfold execRptField
  refine leads_recv _ _ _ _ _ _ fun s => ?_
  try dsimp only
  (repeat' split) <;> simp

theorem execJobNrg_kept (f : RxFlit) (s : State) : Leads (execJobNrg f s) fun t => t.kept = s.kept := by
  unfold execJobNrg
  refine leads_recv _ _ _ _ _ _ fun s => ?_
  try dsimp only
  (repeat' split) <;> simp

theorem execManagerAllocation_kept (s : State) : Leads (execManagerAllocation s) fun t => t.kept = s.kept := by
  unfold execManagerAllocation; split <;> simp

theorem execCapFloorEnd_kept (s : State) : Leads (execCapFloorEnd s) fun t => t.kept = s.kept := by
  unfold execCapFloorEnd; dsimp only; (repeat' split) <;> simp

theorem execAttrResidual_kept (s : State) : Leads (execAttrResidual s) fun t => t.kept = s.kept := by
  unfold execAttrResidual; split <;> simp

theorem execTempConversion_kept (i : Fin 128) (code : ℤ) (s : State) : Leads (execTempConversion i code s) fun t => t.kept = s.kept := by
  unfold execTempConversion; split <;> simp

theorem execThermCrit_kept (i : Fin 128) (code : ℤ) (s : State) : Leads (execThermCrit i code s) fun t => t.kept = s.kept := by
  unfold execThermCrit; dsimp only; (repeat' split) <;> simp

theorem execTrain_kept (f : Flit) (p : TrainPort) (s : State) : Leads (execTrain f p s) fun t => t.kept = s.kept := by
  unfold execTrain; (repeat' split) <;> simp

theorem execEcho_kept (back : Option Nat) (s : State) : Leads (execEcho back s) fun t => t.kept = s.kept := by
  unfold execEcho; (repeat' split) <;> simp

theorem execTimeValidSet_kept (s : State) : Leads (execTimeValidSet s) fun t => t.kept = s.kept := by
  unfold execTimeValidSet; split <;> simp

theorem execLinkDown_kept (f : RxFlit) (s : State) : Leads (execLinkDown f s) fun t => t.kept = s.kept := by
  unfold execLinkDown
  refine leads_recv _ _ _ _ _ _ fun s => ?_
  try dsimp only
  (repeat' split) <;> simp

theorem execTthLinkDown_kept (r : Ring) (crc : Bool) (s : State) : Leads (execTthLinkDown r crc s) fun t => t.kept = s.kept := by
  unfold execTthLinkDown; dsimp only; (repeat' split) <;> simp

theorem execRingUp_kept (f : RxFlit) (s : State) : Leads (execRingUp f s) fun t => t.kept = s.kept := by
  unfold execRingUp
  refine leads_recv _ _ _ _ _ _ fun s => ?_
  try dsimp only
  (repeat' split) <;> simp

theorem execFlitCrcFail_kept (r : Ring) (s : State) : Leads (execFlitCrcFail r s) fun t => t.kept = s.kept := by
  unfold execFlitCrcFail; split <;> simp

theorem execFlitReturn_kept (f : Flit) (_r : Ring) (s : State) : Leads (execFlitReturn f _r s) fun t => t.kept = s.kept := by
  unfold execFlitReturn; split <;> simp

theorem execFlitResend_kept (q : Fin 64) (s : State) : Leads (execFlitResend q s) fun t => t.kept = s.kept := by
  unfold execFlitResend; (repeat' split) <;> simp

theorem execTthMgrLost_kept (s : State) : Leads (execTthMgrLost s) fun t => t.kept = s.kept := by
  unfold execTthMgrLost; split <;> simp

theorem execMgrLostGrounded_kept (s : State) : Leads (execMgrLostGrounded s) fun t => t.kept = s.kept := by
  unfold execMgrLostGrounded; (repeat' split) <;> simp

theorem execTthWorkerLost_kept (fld : Fin 8) (s : State) : Leads (execTthWorkerLost fld s) fun t => t.kept = s.kept := by
  unfold execTthWorkerLost; split <;> simp

theorem execXtExchange_kept (s : State) : Leads (execXtExchange s) fun t => t.kept = s.kept := by
  unfold execXtExchange; split <;> simp

theorem execXtReq_kept (f : Flit) (frac : Fin 16) (s : State) : Leads (execXtReq f frac s) fun t => t.kept = s.kept := by
  unfold execXtReq; (try dsimp only); (repeat' split) <;> simp

theorem execXtThr_kept (f : Flit) (s : State) : Leads (execXtThr f s) fun t => t.kept = s.kept := by
  unfold execXtThr; split <;> simp

theorem execXtLinkDown_kept (clock : Bool) (s : State) : Leads (execXtLinkDown clock s) fun t => t.kept = s.kept := by
  unfold execXtLinkDown; split <;> simp

theorem execPllLock_kept (s : State) : Leads (execPllLock s) fun t => t.kept = s.kept := by
  unfold execPllLock; split <;> simp

theorem execNvmDiscovery_kept (x : Sfdp) (s : State) : Leads (execNvmDiscovery x s) fun t => t.kept = s.kept := by
  unfold execNvmDiscovery; split <;> simp

theorem execSpineEnumeration_kept (x : Enumerated) (s : State) : Leads (execSpineEnumeration x s) fun t => t.kept = s.kept := by
  unfold execSpineEnumeration
  repeat' first | (simp; done) | split | (refine (forL_kept _ _ _ fun _ _ => ?_).trans ?_) | simp

theorem execHash_kept (f : RxFlit) (s : State) : Leads (execHash f s) fun t => t.kept = s.kept := by
  unfold execHash
  refine leads_recv _ _ _ _ _ _ fun s => ?_
  try dsimp only
  (repeat' split) <;> simp

theorem execHashTimeout_kept (fld : Fin 8) (s : State) : Leads (execHashTimeout fld s) fun t => t.kept = s.kept := by
  unfold execHashTimeout; dsimp only; (repeat' split) <;> simp

theorem execRun_kept (f : RxFlit) (s : State) : Leads (execRun f s) fun t => t.kept = s.kept := by
  unfold execRun
  split
  · simp
  · exact leads_recv _ _ _ _ _ _ fun s => by dsimp only; (repeat' split) <;> simp

theorem execReady_kept (s : State) : Leads (execReady s) fun t => t.kept = s.kept := by
  unfold execReady
  repeat' first | (simp; done) | split | (refine (forL_kept _ _ _ fun _ _ => ?_).trans ?_) | simp

theorem execPageReq_kept (f : RxFlit) (s : State) : Leads (execPageReq f s) fun t => t.kept = s.kept := by
  unfold execPageReq
  refine leads_recv _ _ _ _ _ _ fun s => ?_
  try dsimp only
  (repeat' split) <;> simp

theorem execNop_kept (priv : Bool) (s : State) : Leads (execNop priv s) fun t => t.kept = s.kept := by
  unfold execNop
  exact leads_runCmd _ _ _ _ _ _ _ fun s => by simp

theorem execCmdReservedCode_kept (code : BitVec 8) (priv : Bool) (s : State) : Leads (execCmdReservedCode code priv s) fun t => t.kept = s.kept := by
  unfold execCmdReservedCode
  split <;> first | (simp; done) | exact leads_runCmd _ _ _ _ _ _ _ fun s => by simp

theorem execFltAck_kept (w : Word) (priv : Bool) (s : State) : Leads (execFltAck w priv s) fun t => t.kept = s.kept := by
  unfold execFltAck; (repeat' split) <;> simp

theorem execClearFault_kept (coolHigh : Bool) (priv : Bool) (s : State) : Leads (execClearFault coolHigh priv s) fun t => t.kept = s.kept := by
  unfold execClearFault
  exact leads_runCmd _ _ _ _ _ _ _ fun s => by simp

theorem execEscRung_kept (i : Fin 4096) (s : State) : Leads (execEscRung i s) fun t => t.kept = s.kept := by
  unfold execEscRung; dsimp only; (repeat' split) <;> simp

theorem execGroundedExit_kept (s : State) : Leads (execGroundedExit s) fun t => t.kept = s.kept := by
  unfold execGroundedExit; split <;> simp

theorem execVinRange_kept (s : State) : Leads (execVinRange s) fun t => t.kept = s.kept := by
  unfold execVinRange; split <;> simp

theorem execPllHoldover_kept (s : State) : Leads (execPllHoldover s) fun t => t.kept = s.kept := by
  unfold execPllHoldover; split <;> simp

theorem execPllRelock_kept (s : State) : Leads (execPllRelock s) fun t => t.kept = s.kept := by
  unfold execPllRelock; split <;> simp

theorem execAdcScan_kept (uv : List ℤ) (s : State) : Leads (execAdcScan uv s) fun t => t.kept = s.kept := by
  unfold execAdcScan; split <;> simp

theorem execHkThermRev_kept (i : Fin 16) (s : State) : Leads (execHkThermRev i s) fun t => t.kept = s.kept := by
  unfold execHkThermRev; dsimp only; (repeat' split) <;> simp

theorem execHkRange_kept (i : Fin 16) (s : State) : Leads (execHkRange i s) fun t => t.kept = s.kept := by
  unfold execHkRange; dsimp only; (repeat' split) <;> simp

theorem execTlmPublish_kept (s : State) : Leads (execTlmPublish s) fun t => t.kept = s.kept := by
  unfold execTlmPublish; split <;> simp

theorem execPmbDiscovery_kept (x : List PmbAnswer) (s : State) : Leads (execPmbDiscovery x s) fun t => t.kept = s.kept := by
  unfold execPmbDiscovery; split <;> simp

theorem execPmbPoll_kept (x : List PmbPolled) (s : State) : Leads (execPmbPoll x s) fun t => t.kept = s.kept := by
  unfold execPmbPoll
  repeat' first | (simp; done) | split | (refine (forL_kept _ _ _ fun _ _ => ?_).trans ?_) | simp

theorem execPmbRetry_kept (n : Fin 16) (x : PmbPolled) (s : State) : Leads (execPmbRetry n x s) fun t => t.kept = s.kept := by
  unfold execPmbRetry; (repeat' split) <;> simp

theorem execPmbAlertN_kept (x : PmbAlert) (s : State) : Leads (execPmbAlertN x s) fun t => t.kept = s.kept := by
  unfold execPmbAlertN
  repeat' first | (simp; done) | split | (refine (forL_kept _ _ _ fun _ _ => ?_).trans ?_) | simp

theorem execLogCur_kept (ctl : Bool) (w : Word) (priv : Bool) (s : State) : Leads (execLogCur ctl w priv s) fun t => t.kept = s.kept := by
  unfold execLogCur; dsimp only; (repeat' split) <;> simp

theorem execLogWin_kept (priv : Bool) (s : State) : Leads (execLogWin priv s) fun t => t.kept = s.kept := by
  unfold execLogWin; (repeat' split) <;> simp

theorem execLogLostcnt_kept (s : State) : Leads (execLogLostcnt s) fun t => t.kept = s.kept := by
  unfold execLogLostcnt; split <;> simp

theorem execLogForward_kept (s : State) : Leads (execLogForward s) fun t => t.kept = s.kept := by
  unfold execLogForward; (repeat' split) <;> simp

theorem execTrace_kept (f : RxFlit) (s : State) : Leads (execTrace f s) fun t => t.kept = s.kept := by
  unfold execTrace
  refine leads_recv _ _ _ _ _ _ fun s => ?_
  try dsimp only
  (repeat' split) <;> simp

theorem execRecAssemblyTimeout_kept (fld : Fin 8) (s : State) : Leads (execRecAssemblyTimeout fld s) fun t => t.kept = s.kept := by
  unfold execRecAssemblyTimeout; split <;> simp

theorem execLogFlushStart_kept (s : State) : Leads (execLogFlushStart s) fun t => t.kept = s.kept := by
  unfold execLogFlushStart; split <;> simp

theorem execPfFlush_kept (s : State) : Leads (execPfFlush s) fun t => t.kept = s.kept := by
  unfold execPfFlush; split <;> simp

theorem execLogScan_kept (s : State) : Leads (execLogScan s) fun t => t.kept = s.kept := by
  unfold execLogScan
  repeat' first | (simp; done) | split | (refine (forL_kept _ _ _ fun _ _ => ?_).trans ?_) | (refine (State.updLog_kept _ _ rfl).trans ?_) | simp

theorem execObsCntClr_kept (w : Word) (priv : Bool) (s : State) : Leads (execObsCntClr w priv s) fun t => t.kept = s.kept := by
  unfold execObsCntClr; (repeat' split) <;> simp

theorem execObsTrcCtl_kept (w : Word) (priv : Bool) (s : State) : Leads (execObsTrcCtl w priv s) fun t => t.kept = s.kept := by
  unfold execObsTrcCtl; dsimp only; (repeat' split) <;> simp

theorem execObsTrcMark_kept (w : Word) (priv : Bool) (s : State) : Leads (execObsTrcMark w priv s) fun t => t.kept = s.kept := by
  unfold execObsTrcMark; (repeat' split) <;> simp

theorem execObsTrcWin_kept (s : State) : Leads (execObsTrcWin s) fun t => t.kept = s.kept := by
  unfold execObsTrcWin; split <;> simp

theorem execFreezeFlit_kept (f : RxFlit) (s : State) : Leads (execFreezeFlit f s) fun t => t.kept = s.kept := by
  unfold execFreezeFlit
  refine leads_recv _ _ _ _ _ _ fun s => ?_
  try dsimp only
  (repeat' split) <;> simp

theorem execThawFlit_kept (f : RxFlit) (s : State) : Leads (execThawFlit f s) fun t => t.kept = s.kept := by
  unfold execThawFlit
  refine leads_recv _ _ _ _ _ _ fun s => ?_
  try dsimp only
  (repeat' split) <;> simp

theorem execFreezeCut_kept (s : State) : Leads (execFreezeCut s) fun t => t.kept = s.kept := by
  unfold execFreezeCut
  repeat' first | (simp; done) | split | (refine (forL_kept _ _ _ fun _ _ => ?_).trans ?_) | simp

theorem execObsScanData_kept (s : State) : Leads (execObsScanData s) fun t => t.kept = s.kept := by
  unfold execObsScanData; (repeat' split) <;> simp

theorem execCoolLoss_kept (f : RxFlit) (s : State) : Leads (execCoolLoss f s) fun t => t.kept = s.kept := by
  unfold execCoolLoss
  refine leads_recv _ _ _ _ _ _ fun s => ?_
  try dsimp only
  (repeat' split) <;> simp

theorem execDomainOn_kept (priv : Bool) (s : State) : Leads (execDomainOn priv s) fun t => t.kept = s.kept := by
  have h := leads_runCmd s 2 true false priv false State.bodyOn fun s => by simp
  unfold execDomainOn
  split
  · rename_i t ht
    have := h t ht
    split <;> simp [this]
  · exact h

theorem execDomainOff_kept (priv : Bool) (s : State) : Leads (execDomainOff priv s) fun t => t.kept = s.kept := by
  unfold execDomainOff
  split <;> first | (simp; done) | exact leads_runCmd _ _ _ _ _ _ _ fun s => by simp

theorem execDomainOffAll_kept (priv : Bool) (s : State) : Leads (execDomainOffAll priv s) fun t => t.kept = s.kept := by
  unfold execDomainOffAll
  split <;> first | (simp; done) | exact leads_runCmd _ _ _ _ _ _ _ fun s => by simp

theorem execSetMode_kept (priv : Bool) (s : State) : Leads (execSetMode priv s) fun t => t.kept = s.kept := by
  unfold execSetMode
  exact leads_runCmd _ _ _ _ _ _ _ fun s => by simp

theorem execAutotune_kept (priv : Bool) (s : State) : Leads (execAutotune priv s) fun t => t.kept = s.kept := by
  unfold execAutotune
  exact leads_runCmd _ _ _ _ _ _ _ fun s => by simp

theorem execSetCap_kept (priv : Bool) (s : State) : Leads (execSetCap priv s) fun t => t.kept = s.kept := by
  unfold execSetCap
  exact leads_runCmd _ _ _ _ _ _ _ fun s => by simp

theorem execFreeze_kept (priv : Bool) (s : State) : Leads (execFreeze priv s) fun t => t.kept = s.kept := by
  unfold execFreeze
  exact leads_runCmd _ _ _ _ _ _ _ fun s => by simp

theorem execThaw_kept (priv : Bool) (s : State) : Leads (execThaw priv s) fun t => t.kept = s.kept := by
  unfold execThaw
  exact leads_runCmd _ _ _ _ _ _ _ fun s => by simp

theorem execDump_kept (priv : Bool) (s : State) : Leads (execDump priv s) fun t => t.kept = s.kept := by
  unfold execDump
  exact leads_runCmd _ _ _ _ _ _ _ fun s => by simp

theorem execFlushLog_kept (priv : Bool) (s : State) : Leads (execFlushLog priv s) fun t => t.kept = s.kept := by
  unfold execFlushLog
  exact leads_runCmd _ _ _ _ _ _ _ fun s => by simp

theorem execDomVreq_kept (d : Fin 32) (w : Word) (priv : Bool) (s : State) : Leads (execDomVreq d w priv s) fun t => t.kept = s.kept := by
  unfold execDomVreq
  exact leads_hostPut _ _ _ _ _ _ _ _ _ (by simp) (by simp)

theorem execDomUcal_kept (d : Fin 32) (w : Word) (priv : Bool) (s : State) : Leads (execDomUcal d w priv s) fun t => t.kept = s.kept := by
  unfold execDomUcal
  exact leads_hostPut _ _ _ _ _ _ _ _ _ (by simp) (by simp)

theorem execDomLawB_kept (d : Fin 32) (w : Word) (priv : Bool) (s : State) : Leads (execDomLawB d w priv s) fun t => t.kept = s.kept := by
  unfold execDomLawB
  exact leads_hostPut _ _ _ _ _ _ _ _ _ (by simp) (by simp)

theorem execDomPg_kept (d : Fin 32) (w : Word) (priv : Bool) (s : State) : Leads (execDomPg d w priv s) fun t => t.kept = s.kept := by
  unfold execDomPg
  exact leads_hostPut _ _ _ _ _ _ _ _ _ (by simp) (by simp)

theorem execTileCtlRetire_kept (t : Fin 192) (w : Word) (priv : Bool) (s : State) : Leads (execTileCtlRetire t w priv s) fun t => t.kept = s.kept := by
  unfold execTileCtlRetire
  split
  · exact leads_hostPut _ _ _ _ _ _ _ _ _ (by simp) (by simp)
  · simp

theorem execTileCtlRphase_kept (t : Fin 192) (w : Word) (priv : Bool) (s : State) : Leads (execTileCtlRphase t w priv s) fun t => t.kept = s.kept := by
  unfold execTileCtlRphase
  split
  · exact leads_hostPut _ _ _ _ _ _ _ _ _ (by simp) (by simp)
  · simp

theorem execTilePar_kept (k : Fin 24) (w : Word) (priv : Bool) (s : State) : Leads (execTilePar k w priv s) fun t => t.kept = s.kept := by
  unfold execTilePar
  refine leads_ite (by simp) <| leads_ite (by simp) ?_
  exact leads_hostPut _ _ _ _ _ _ _ _ _ (by simp) (by simp)

theorem execTktQmax_kept (w : Word) (priv : Bool) (s : State) : Leads (execTktQmax w priv s) fun t => t.kept = s.kept := by
  unfold execTktQmax
  exact leads_hostPut _ _ _ _ _ _ _ _ _ (by simp) (by simp)

theorem execTktSgLead_kept (w : Word) (priv : Bool) (s : State) : Leads (execTktSgLead w priv s) fun t => t.kept = s.kept := by
  unfold execTktSgLead
  exact leads_hostPut _ _ _ _ _ _ _ _ _ (by simp) (by simp)

theorem execTktSgMask_kept (g : Fin 64) (i : Fin 8) (w : Word) (priv : Bool) (s : State) : Leads (execTktSgMask g i w priv s) fun t => t.kept = s.kept := by
  unfold execTktSgMask
  exact leads_hostPut _ _ _ _ _ _ _ _ _ (by simp) (by simp)

theorem execHkCtl_kept (w : Word) (priv : Bool) (s : State) : Leads (execHkCtl w priv s) fun t => t.kept = s.kept := by
  unfold execHkCtl
  exact leads_hostPut _ _ _ _ _ _ _ _ _ (by simp) (by simp)

theorem execTlmCtl_kept (w : Word) (priv : Bool) (s : State) : Leads (execTlmCtl w priv s) fun t => t.kept = s.kept := by
  unfold execTlmCtl
  exact leads_hostPut _ _ _ _ _ _ _ _ _ (by simp) (by simp)

theorem execEngBudCommit_kept (w : Word) (priv : Bool) (s : State) : Leads (execEngBudCommit w priv s) fun t => t.kept = s.kept := by
  unfold execEngBudCommit
  split
  · simp
  · exact leads_hostPut _ _ _ _ _ _ _ _ _ (by simp) (by simp)

theorem execCtlLock_kept (w : Word) (priv : Bool) (s : State) : Leads (execCtlLock w priv s) fun t => t.kept = s.kept := by
  unfold execCtlLock
  exact leads_hostPut _ _ _ _ _ _ _ _ _ (by simp) (by simp)

theorem execNrgJobRel_kept (w : Word) (priv : Bool) (s : State) : Leads (execNrgJobRel w priv s) fun t => t.kept = s.kept := by
  unfold execNrgJobRel
  exact leads_hostPut _ _ _ _ _ _ _ _ _ (by simp) (by simp)

theorem State.clearPeak_kept {s t : State} {a : Nat} (h : s.clearPeak a = some t) : t.kept = s.kept := by
  unfold State.clearPeak at h
  repeat' split at h
  all_goals first | (cases h; done) | (cases h; simp)

theorem execTlmPeakRead_kept (addr : BitVec 20) (s : State) : Leads (execTlmPeakRead addr s) fun t => t.kept = s.kept := by
  unfold execTlmPeakRead
  dsimp only
  split
  · rename_i h
    split
    · simp [State.clearPeak_kept h]
    · simp
  · simp

theorem execTthErr_kept (s : State) : Leads (execTthErr s) fun t => t.kept = s.kept := by
  unfold execTthErr; split <;> simp

theorem execTthUndel_kept (s : State) : Leads (execTthUndel s) fun t => t.kept = s.kept := by
  unfold execTthUndel; split <;> simp

theorem execTthLate_kept (s : State) : Leads (execTthLate s) fun t => t.kept = s.kept := by
  unfold execTthLate; split <;> simp

theorem execTktPerr_kept (c : Fin 32) (s : State) : Leads (execTktPerr c s) fun t => t.kept = s.kept := by
  unfold execTktPerr; split <;> simp

theorem execHkPmbLate_kept (s : State) : Leads (execHkPmbLate s) fun t => t.kept = s.kept := by
  unfold execHkPmbLate; split <;> simp

theorem execLowWordRead_kept (addr : BitVec 20) (priv : Bool) (s : State) : Leads (execLowWordRead addr priv s) fun t => t.kept = s.kept := by
  unfold execLowWordRead; dsimp only; (repeat' split) <;> simp

theorem execHostPriv_kept (addr : BitVec 20) (priv : Bool) (s : State) : Leads (execHostPriv addr priv s) fun t => t.kept = s.kept := by
  unfold execHostPriv
  refine leads_ite (by simp) <| leads_ite (by simp) <| leads_ite (by simp) <| leads_ite (execLogLostcnt_kept s) <|
    leads_ite (execLogWin_kept priv s) <| leads_ite (execHkPmbLate_kept s) <| leads_ite (execTktPerr_kept _ s) <|
    leads_ite (execTthErr_kept s) <| leads_ite (execTthUndel_kept s) <| leads_ite (execTthLate_kept s) <|
    leads_ite (execObsTrcWin_kept s) <| leads_ite (execObsScanData_kept s) <| leads_ite ?_ ?_
  · split <;> simp
  · split
    · simp
    · simp
    · rename_i h; simp [State.clearPeak_kept h]
    · simp

theorem execPwrfailNReturn_kept (s : State) : Leads (execPwrfailNReturn s) fun t => t.kept = s.kept := by
  unfold execPwrfailNReturn; split <;> simp

theorem execDomainShed_kept (d : Fin 32) (s : State) : Leads (execDomainShed d s) fun t => t.kept = s.kept := by
  unfold execDomainShed; (repeat' split) <;> simp

end Sys2Proof.Machine
end

