-- ==== Sys2Proof/Laws/InvariantExec.lean ====
section
/-!
SUPPORT. The commands that do write a byte memory, a strap or TETHER_TIME keep the invariant and the queue: one lemma each.
-/

namespace Sys2Proof.Machine

/-! ### Outcomes -/

/-- Whatever next state an outcome leads to keeps the invariant and the queue. -/
def LeadsGood (q : Held) (o : Out) : Prop := Leads o fun t => t.Good q

@[simp] theorem leadsGood_next (q : Held) (t : State) : LeadsGood q (.next t) ↔ t.Good q := leads_next t _

theorem leadsGood_of_kept {q : Held} {s : State} {o : Out} (h : s.Good q) (k : Leads o fun t => t.kept = s.kept) :
    LeadsGood q o := fun t ht => h.of_kept (k t ht)

theorem outState_good {q : Held} {s : State} {o : Out} (h : s.Good q) (k : LeadsGood q o) : (outState s o).Good q := by
  unfold outState
  split
  · exact k _ rfl
  · exact h
  · exact h

theorem good_ite {q : Held} {c : Prop} [Decidable c] {a b : State} (h : a.Good q) (g : b.Good q) :
    (if c then a else b).Good q := by
  split
  · exact h
  · exact g

theorem recv_good {q : Held} {s : State} (h : s.Good q) (kind : Nat) (r : Ring) (f : Flit) (c : Instr) (act : State → State)
    (k : ∀ u : State, u.Good q → (act u).Good q) : LeadsGood q (s.recv kind r f c act) := by
  unfold State.recv
  refine leads_ite ((leadsGood_next _ _).2 (h.of_kept (by simp))) ?_
  lift_lets
  intro u
  have hu : u.Good q := h.of_kept (State.passOn_kept _ _ _)
  clear_value u
  exact leads_ite ((leadsGood_next _ _).2 (k _ (hu.of_kept (by simp)))) ((leadsGood_next _ _).2 hu)

theorem startBody_good {q : Held} {s : State} (h : s.Good q) (code : Nat) (body : State → State)
    (k : ∀ u : State, u.Good q → (body u).Good q) : (s.startBody code body).Good q := by
  unfold State.startBody
  split
  · exact h.of_kept (by simp)
  · exact k _ h

theorem runCmd_good {q : Held} {s : State} (h : s.Good q) (code : Nat) (np mo p cool : Bool) (body : State → State)
    (k : ∀ u : State, u.Good q → (body u).Good q) : LeadsGood q (s.runCmd code np mo p cool body) := by
  unfold State.runCmd
  dsimp only
  repeat' split
  all_goals first
    | exact (leadsGood_next _ _).2 (h.of_kept (by simp))
    | exact (leadsGood_next _ _).2 (startBody_good (h.of_kept (by simp)) _ _ k)

theorem hostPut_good {q : Held} {s : State} (h : s.Good q) (a w : Nat) (p early frz bad : Bool) (note put : State → State)
    (kn : (note s).Good q) (kp : (put s).Good q) : LeadsGood q (s.hostPut a w p early frz bad note put) := by
  have a : (State.refuse (note s)).Good q := kn.of_kept (by simp)
  have b : (State.okay (put s)).Good q := kp.of_kept (by simp)
  unfold State.hostPut
  repeat' split
  all_goals first
    | exact (leadsGood_next _ _).2 a
    | exact (leadsGood_next _ _).2 b
    | (refine (leadsGood_next _ _).2 (h.of_kept ?_); simp)

theorem leadsGood_ite {q : Held} {c : Prop} [Decidable c] {a b : Out} (h : LeadsGood q a) (g : LeadsGood q b) :
    LeadsGood q (if c then a else b) := leads_ite h g

/-! ### The domain sample and the frame -/

theorem State.sample_good {s : State} {q : Held} (h : s.Good q) (x : SampleIn) : (s.sample x).Good q := by
  unfold State.sample
  lift_lets
  intro was t
  have ht : t.Good q := h.of_kept (by simp [t])
  clear_value t was
  intro u1
  have h1 : u1.Good q := (State.landCommit_good (ht.of_kept (State.tuneEnter_kept _))).of_kept (forL_kept _ _ _ fun _ _ => by simp)
  clear_value u1
  intro u2
  have h2 : u2.Good q := (h1.of_kept (State.senseIn_kept _ _)).of_kept (forL_kept _ _ _ fun _ _ => by simp)
  clear_value u2
  intro u3
  have h3 : u3.Good q := good_ite (h2.of_kept (forL_kept _ _ _ fun _ _ => by simp)) h2
  clear_value u3
  intro u4
  have h4 : u4.Good q := h3.of_kept (forL_kept _ _ _ fun _ _ => by simp)
  clear_value u4
  intro u5
  have h5 : u5.Good q := good_ite (h4.of_kept (State.engineSample_kept _ _)) h4
  clear_value u5
  intro u6
  have h6 : u6.Good q := h5.of_kept (forL_kept _ _ _ fun _ _ => by simp)
  clear_value u6
  intro u7
  have h7 : u7.Good q := by
    unfold u7
    split
    · exact good_ite (h6.of_kept (State.updDom_kept _ _ _)) h6
    · exact h6
  clear_value u7
  exact good_ite (ht.of_kept (State.sendRefs_kept _)) (h7.of_kept (State.sendRefs_kept _))

theorem execDomainSample_good {s : State} {q : Held} (h : s.Good q) (x : SampleIn) : LeadsGood q (execDomainSample x s) := by
  unfold execDomainSample
  split
  · exact (leadsGood_next _ _).2 h
  · exact (leadsGood_next _ _).2 (State.sample_good h x)

theorem frameDom_good {s : State} {q : Held} (h : s.Good q) (d : Nat) : (frameDom d s).Good q := by
  unfold frameDom
  dsimp only
  refine State.good_of_kept (State.updDom_kept _ _ _) ?_
  have k : (if (s.dom d).lawPend = true then
      (s.updDom d fun x => { x with lawPend := false }).putLaw d (s.dom d).lawKp (s.dom d).lawKi (s.dom d).lawKd (s.dom d).lawUlim
      else s).Good q := by
    split
    · exact State.putLaw_good (h.of_kept (State.updDom_kept _ _ _)) ..
    · exact h
  split
  · refine k.of_kept ?_; simp
  · exact k

theorem State.frameEffects_good {s : State} {q : Held} (h : s.Good q) : s.frameEffects.Good q := by
  unfold State.frameEffects
  dsimp only
  have k : (s.frameTickets.framePages.restoreLaws.retireArrays.frameBudgets).Good q := h.of_kept (by simp)
  generalize s.frameTickets.framePages.restoreLaws.retireArrays.frameBudgets = u at k ⊢
  have g : (if u.inst.gndNext = 0 then u else u.enterGround u.inst.gndNext).Good q := by
    split
    · exact k
    · exact k.of_kept (by simp)
  exact forIdx_good _ _ (fun _ _ h => frameDom_good h _) _ g

theorem State.startFrame_good {s : State} {q : Held} (h : s.Good q) : s.startFrame.Good q := by
  unfold State.startFrame
  lift_lets
  intro u
  have hu : u.Good q := good_ite (h.of_kept (State.updMgr_kept _ _)) h
  clear_value u
  intro v
  have hv : v.Good q := good_ite (hu.of_kept (State.tryRun_kept _)) hu
  clear_value v
  intro w
  have hw : w.Good q := good_ite (State.factoryStart_good hv) hv
  clear_value w
  exact hw.of_kept (State.safeNext_kept _)

theorem State.frameDecide_good {s : State} {q : Held} (h : s.Good q) : s.frameDecide.Good q := by
  unfold State.frameDecide
  dsimp only
  have k : (s.limitFrame.vinFrame.startFrame.tetherFrame.raiseLost).Good q :=
    State.good_of_kept (State.raiseLost_kept _) (State.tetherFrame_good (State.startFrame_good (h.of_kept (by simp))))
  generalize s.limitFrame.vinFrame.startFrame.tetherFrame.raiseLost = u at k ⊢
  have a := k.of_kept (forL_kept (fun d s => (retryAnswers d (frameRetry d s)).admitWaiting d) u.doms_ u fun _ _ => by simp)
  generalize forL u.doms_ (fun d s => (retryAnswers d (frameRetry d s)).admitWaiting d) u = v at a ⊢
  refine State.good_of_kept (State.updLim_kept _ _) ?_
  exact State.good_of_kept (forL_kept shedFrame v.doms_ _ fun _ _ => by simp) (State.good_of_kept (State.frameShares_kept _) a)

/-! ### The commit of a share -/

theorem State.commit_good {s : State} {q : Held} (h : s.Good q) (m : List Host.Cell) (hm : Memory.wf 0 m = true) (a b : Nat) :
    (s.commit m a b).Good q := by
  unfold State.commit
  dsimp only
  refine State.good_of_kept (State.lostAtStart_kept _) (State.good_of_kept (State.placeDomains_kept _) ?_)
  refine forL_good _ (fun d s h => commitCal_good h d) _ _ ?_
  refine State.good_of_kept (State.updHk_kept _ _) (State.good_of_kept (State.updMgr_kept _ _) ?_)
  refine State.good_of_kept (forL_kept _ _ _ fun _ _ => by simp) (State.good_of_kept (State.updTk_kept _ _) ?_)
  have k : ∀ u : State, u.Good q → ((u.loadPages a b).takeBudgets).Good q :=
    fun u hu => State.good_of_kept (State.takeBudgets_kept _) (State.loadPages_good hu a b)
  have g : ((({ s with cfg := m, pend := [] } : State).updInst fun n => { n with committed := true, verdict := 1, fmtVer := 1 }).updInst
      fun n => { n with fwVer := (({ s with cfg := m, pend := [] } : State).updInst fun n =>
        { n with committed := true, verdict := 1, fmtVer := 1 }).cn 0 0 2 }).Good q :=
    State.good_of_kept (State.updInst_kept _ _ ⟨rfl, rfl, rfl⟩) (State.good_of_kept (State.updInst_kept _ _ ⟨rfl, rfl, rfl⟩)
      (h.sections m [] hm rfl))
  have g := k _ g
  split
  · refine State.good_of_kept (forL_kept _ _ _ fun _ _ => by simp) (State.good_of_kept (kept_tilePar _ _) ?_)
    exact g
  · refine State.good_of_kept (kept_tilePar _ _) ?_
    exact g

/-! ### The end of a freeze -/

theorem runPort_good {s : State} {q : Held} (h : s.Good q) (t : Nat) (c : Instr) : (runPort t c s).Good q := by
  unfold runPort
  split
  · exact good_ite (h.of_kept (State.updCluster_kept _ _ _)) (h.of_kept (by simp))
  · exact outState_good h (leadsGood_of_kept h (execDoneReport_kept _ _ _ _))
  · exact outState_good h (leadsGood_of_kept h (execCountReport_kept _ _ _ _))
  · exact h

theorem ticketNow_good {s : State} {q : Held} (h : s.Good q) (i : Nat) : (ticketNow i s).Good q := by
  unfold ticketNow
  lift_lets
  intro k u
  have hu : u.Good q := outState_good h (leadsGood_of_kept h (execTicketArm_kept _ _))
  clear_value u
  intro v
  have hv : v.Good q := outState_good hu (leadsGood_of_kept hu (execTicketLaunch_kept _ _))
  clear_value v
  exact outState_good hv (leadsGood_of_kept hv (execTicketRun_kept _ _))

theorem thawChannel_good {s : State} {q : Held} (h : s.Good q) (c : Nat) : (thawChannel c s).Good q := by
  unfold thawChannel
  lift_lets
  intro y u
  have hu : u.Good q := h.of_kept (State.updCluster_kept _ _ _)
  clear_value u
  intro v
  have hv : v.Good q := forL_good _ (fun _ _ h => runPort_good h _ _) _ _ hu
  clear_value v
  exact good_ite hv (hv.of_kept (State.portErr_kept _ _ _))

theorem putCommit_good {s : State} {q : Held} (h : s.Good q) : (putCommit s).Good q := h.of_kept (by simp)

theorem plainPut_good {s : State} {q : Held} (h : s.Good q) (a w : Nat) : (plainPut a w s).Good q := by
  unfold plainPut
  iterate 25 refine good_ite (h.of_kept (by simp)) ?_
  refine good_ite (good_ite ?_ h) h
  exact h.updEng _ ⟨h.mem, h.copies, wf_writeLE _ _ _ _ _ h.tblBuf, h.reload⟩

theorem lateWrite_good {s : State} {q : Held} (h : s.Good q) (a w : Nat) : (lateWrite a w s).Good q := by
  unfold lateWrite
  lift_lets
  intro d
  iterate 9 refine good_ite (h.of_kept (by simp)) ?_
  refine good_ite (putPage_good h _) (good_ite (h.of_kept (by simp)) (good_ite (h.of_kept (by simp)) (plainPut_good h _ _)))

theorem execTime_good {s : State} {q : Held} (h : s.Good q) (f : Flit) (r : Ring) (frac : Fin 16) :
    LeadsGood q (execTime f r frac s) := by
  unfold execTime
  refine leadsGood_ite ((leadsGood_next _ _).2 h) (leadsGood_ite ((leadsGood_next _ _).2 (h.of_kept (by simp))) ?_)
  have hu : (s.passOn r f).Good q := h.of_kept (State.passOn_kept _ _ _)
  generalize s.passOn r f = u at hu ⊢
  lift_lets
  intro arr rev
  exact leadsGood_ite ((leadsGood_next _ _).2 (hu.of_kept (State.updTth_kept _ _)))
    ((leadsGood_next _ _).2 (State.workerTime_good hu _ _ _))

theorem execSect_good {s : State} {q : Held} (h : s.Good q) (f : RxFlit) : LeadsGood q (execSect f s) := by
  unfold execSect
  lift_lets
  intro sec off
  refine leadsGood_ite ((leadsGood_next _ _).2 h) (recv_good h _ _ _ _ _ fun u hu => good_ite hu ?_)
  refine State.good_of_kept (State.updInst_kept _ _ ⟨rfl, rfl, rfl⟩) ?_
  exact hu.sections u.cfg _ hu.1.1.1 (wf_writeLE _ _ _ _ _ hu.1.1.2.1)

theorem execVerdict_good {s : State} {q : Held} (h : s.Good q) (f : RxFlit) : LeadsGood q (execVerdict f s) := by
  unfold execVerdict
  refine leadsGood_ite ((leadsGood_next _ _).2 h) (recv_good h _ _ _ _ _ fun u hu => ?_)
  lift_lets
  intro good rc own
  refine good_ite hu (good_ite ?_ (good_ite (hu.of_kept ?_) hu))
  · have hv : (u.updInst fun n => { n with verdictAt := u.time }).Good q := hu.of_kept (State.updInst_kept _ _ ⟨rfl, rfl, rfl⟩)
    generalize (u.updInst fun n => { n with verdictAt := u.time }) = v at hv ⊢
    refine good_ite (State.factoryStart_good (hv.of_kept (State.updInst_kept _ _ ⟨rfl, rfl, rfl⟩)))
      (good_ite (hv.of_kept (State.updInst_kept _ _ ⟨rfl, rfl, rfl⟩)) ?_)
    have hw : (if v.inst.hashSent then v else v.sendHash).Good q := good_ite hv (hv.of_kept (State.sendHash_kept _))
    exact State.commit_good hw _ hv.1.1.2.1 _ _
  · split <;> simp

theorem execPageData_good {s : State} {q : Held} (h : s.Good q) (f : RxFlit) (ok : Bool) : LeadsGood q (execPageData f ok s) := by
  unfold execPageData
  refine recv_good h _ _ _ _ _ fun u hu => ?_
  lift_lets
  intro pg
  refine good_ite hu ?_
  have hv := State.takeChunk_good hu pg (fbits f.flit 91 87) (fbits f.flit 86 23)
  generalize u.takeChunk pg (fbits f.flit 91 87) (fbits f.flit 86 23) = v at hv ⊢
  refine good_ite hv ?_
  have hw := State.writePage_good hv pg (readBytes 0 v.eng.reload 0 256)
  generalize v.writePage pg (readBytes 0 v.eng.reload 0 256) = w at hw ⊢
  have hx : (w.updEng fun e => { e with loadPage := none, reload := [], reloadGot := [] }).Good q :=
    hw.updEng _ ⟨hw.mem, hw.copies, hw.tblBuf, rfl⟩
  generalize (w.updEng fun e => { e with loadPage := none, reload := [], reloadGot := [] }) = x at hx ⊢
  refine good_ite (hx.of_kept ?_) (hx.of_kept ?_) <;> simp

theorem runFlit_good {s : State} {q : Held} (h : s.Good q) (n : Nat) (c : Instr) : (runFlit n c s).Good q := by
  unfold runFlit
  split
  all_goals first
    | exact h
    | with_reducible exact outState_good h (execSect_good h _)
    | with_reducible exact outState_good h (execVerdict_good h _)
    | with_reducible exact outState_good h (execPageData_good h _ _)
    | with_reducible exact good_ite (outState_good h (execTime_good h _ _ _)) (State.workerTime_good (h.of_kept (State.passOn_kept _ _ _)) _ _ _)
    | (with_reducible refine outState_good h (leadsGood_of_kept h ?_); with_reducible first
        | apply execDdMode_kept | apply execDdAlloc_kept | apply execRptClass_kept | apply execRptDemand_kept
        | apply execRptField_kept | apply execJobNrg_kept | apply execFreezeFlit_kept | apply execTrace_kept
        | apply execHash_kept | apply execRun_kept | apply execPageReq_kept | apply execCoolLoss_kept
        | apply execSgFwd_kept | apply execSgVote_kept | apply execSgDrop_kept | apply execSgSet_kept | apply execSgProp_kept
        | apply execSgCommit_kept | apply execSgCancel_kept | apply execSgWd_kept | apply execLinkDown_kept
        | apply execRingUp_kept | apply execTrain_kept)

theorem State.thawNow_good {s : State} {q : Held} (h : s.Good q) (tt : Nat) (early : Bool) : (s.thawNow tt early).Good q := by
  unfold State.thawNow
  lift_lets
  intro tf flits late held dump s1
  have h1 : s1.Good q := h.of_kept (State.updObs_kept _ _ ⟨rfl, rfl⟩)
  clear_value s1
  intro s2
  have h2 : s2.Good q := h1.of_kept (by simp [s2])
  clear_value s2
  intro s3
  have h3 : s3.Good q := h2.of_kept (State.extendBy_kept ..)
  clear_value s3
  intro s4
  have h4 : s4.Good q := by
    unfold s4
    cases held with
    | none => exact h3
    | some p => exact State.abortNow_good h3 _ _
  clear_value s4
  intro s5
  have h5 : s5.Good q := forL_good _ (fun _ _ h => runFlit_good h _ _) _ _ h4
  clear_value s5
  intro s6
  have h6 : s6.Good q := forL_good _ (fun _ _ h => ticketNow_good h _) _ _ h5
  clear_value s6
  intro s7
  have h7 : s7.Good q := forIdx_good _ _ (fun _ _ h => thawChannel_good h _) _ h6
  clear_value s7
  intro s8
  have h8 : s8.Good q := forL_good _ (fun _ _ h => lateWrite_good h _ _) _ _ (h7.of_kept (State.runHeld_kept _))
  clear_value s8
  intro s9
  have h9 : s9.Good q := good_ite h8 (h8.of_kept (State.publish_kept _ _))
  clear_value s9
  intro s10
  have h10 : s10.Good q := good_ite (State.copyDump_good h9 _) h9
  clear_value s10
  exact good_ite (h10.of_kept (State.raiseInst_kept _ _ _)) h10

theorem State.endFreeze_good {s : State} {q : Held} (h : s.Good q) : s.endFreeze.Good q :=
  good_ite (State.thawNow_good h _ _) h

/-! ### The other commands that write -/

theorem idleTick_good {s : State} {q : Held} (h : s.Good q) : LeadsGood q (idleTick s) :=
  leadsGood_ite ((leadsGood_next _ _).2 (State.tick_good h)) ((leadsGood_next _ _).2 h)

theorem execFrame_good {s : State} {q : Held} (h : s.Good q) : LeadsGood q (execFrame s) := by
  unfold execFrame
  refine leadsGood_ite ((leadsGood_next _ _).2 h) ?_
  lift_lets
  intro u
  have hu : u.Good q := h.of_kept (State.updInst_kept _ _ ⟨rfl, rfl, rfl⟩)
  clear_value u
  intro v
  have hv : v.Good q := good_ite (State.endFreeze_good hu) hu
  clear_value v
  intro w
  have hw : w.Good q := by
    refine State.good_of_kept (State.closeFrame_kept _) (good_ite
      (good_ite (hv.of_kept (State.frameTickets_kept _)) (State.good_of_kept (State.enterGround_kept _ _)
        (hv.of_kept (State.frameTickets_kept _)))) (State.frameEffects_good hv))
  clear_value w
  refine leadsGood_ite ((leadsGood_next _ _).2 (hv.of_kept (State.closeFrame_kept _))) ?_
  have hx : w.frameLedger.frameRungs.Good q := hw.of_kept (by simp)
  generalize w.frameLedger.frameRungs = x at hx ⊢
  exact leadsGood_ite ((leadsGood_next _ _).2 hx) ((leadsGood_next _ _).2
    (State.good_of_kept (State.frameEngine_kept _) (State.frameDecide_good (hx.of_kept (State.frameTargets_kept _)))))

theorem execTthTimeStep_good {s : State} {q : Held} (h : s.Good q) : LeadsGood q (execTthTimeStep s) := by
  unfold execTthTimeStep
  refine leadsGood_ite ?_ ((leadsGood_next _ _).2 h)
  lift_lets
  intro l u
  have hu : u.Good q := h.of_kept (forL_kept _ _ _ fun _ _ => by simp)
  clear_value u
  intro k v
  have hv : v.Good q := State.stepTime_good (hu.of_kept (State.updTth_kept _ _)) _
  clear_value v
  intro w
  have hw : w.Good q := hv.of_kept (State.raiseInst_kept _ _ _)
  clear_value w
  intro due
  refine (leadsGood_next _ _).2 (State.good_of_kept (forL_kept _ _ _ fun _ _ => by simp) (hw.of_kept (kept_decs _ _)))

theorem execPageRecheck_good {s : State} {q : Held} (h : s.Good q) (pg : Fin 8192) (ok : Bool) :
    LeadsGood q (execPageRecheck pg ok s) := by
  unfold execPageRecheck
  split
  · exact (leadsGood_next _ _).2 h
  · exact leadsGood_ite ((leadsGood_next _ _).2 h) (leadsGood_ite ((leadsGood_next _ _).2 (h.of_kept (by simp)))
      ((leadsGood_next _ _).2 (State.reloadPage_good h _)))

theorem execHousekeepingRound_good {s : State} {q : Held} (h : s.Good q) : LeadsGood q (execHousekeepingRound s) := by
  unfold execHousekeepingRound
  refine leadsGood_ite ((leadsGood_next _ _).2 h) ?_
  lift_lets
  intro t
  have ht : t.Good q := State.good_of_kept (State.closeRound_kept _ _) (good_ite h (h.of_kept (State.retrain_kept _)))
  clear_value t
  exact leadsGood_ite ((leadsGood_next _ _).2 (ht.of_kept (State.newSums_kept _))) (leadsGood_ite ((leadsGood_next _ _).2
    (ht.of_kept (by simp))) ((leadsGood_next _ _).2 (State.evalRound_good ht)))

theorem execLockstep_good {s : State} {q : Held} (h : s.Good q) : LeadsGood q (execLockstep s) := by
  unfold execLockstep
  refine leadsGood_ite ((leadsGood_next _ _).2 h) ?_
  lift_lets
  intro u
  have hu : u.Good q := State.dropRunning_good (State.good_of_kept (State.raiseInst_kept _ _ _)
    (h.of_kept (State.updInst_kept _ _ ⟨rfl, rfl, rfl⟩)))
  clear_value u
  intro v
  have hv : v.Good q := hu.of_kept (by simp [v])
  clear_value v
  exact (leadsGood_next _ _).2 (hv.of_kept (forL_kept _ _ _ fun _ _ => by simp))

theorem execRstNAssert_inv {s : State} (h : s.Inv) : Leads (execRstNAssert s) fun t => t.Inv ∧ t.pending = s.pending := by
  unfold execRstNAssert
  refine leads_ite ((leads_next _ _).2 ⟨h, rfl⟩) ?_
  have k := State.cutFlash_wf (q := s.kept.held) ⟨h, rfl⟩
  generalize s.cutFlash = m at k ⊢
  have z : State.reset.mems.wf ∧ State.reset.time < 2 ^ 64 ∧ State.reset.inst.fieldId < 8 :=
    ⟨⟨rfl, rfl, rfl, rfl, rfl, rfl, rfl, rfl, rfl⟩, by decide, by decide⟩
  refine (leads_next _ _).2 ⟨⟨?_, z.2⟩, rfl⟩
  obtain ⟨a, b, c, d, e, f, _, g⟩ := z.1
  exact ⟨a, b, c, d, e, f, k, g⟩

theorem execRstNRelease_inv {s : State} (h : s.Inv) (x : Straps) :
    Leads (execRstNRelease x s) fun t => t.Inv ∧ t.pending = s.pending := by
  unfold execRstNRelease
  refine leads_ite ((leads_next _ _).2 ⟨h, rfl⟩) ?_
  lift_lets
  intro u
  have hp : u.pending = s.pending := rfl
  have hu : u.Inv := by
    obtain ⟨a, b, _⟩ := h
    exact ⟨a, b, x.fieldId.isLt⟩
  have hu : u.Good u.kept.held := ⟨hu, rfl⟩
  clear_value u
  intro v
  have hv : v.Good u.kept.held := hu.of_kept (State.updEng_kept _ _ ⟨rfl, rfl, rfl, rfl⟩)
  clear_value v
  intro w
  have hw : w.Good u.kept.held := hv.of_kept (forL_kept _ _ _ fun _ _ => by simp)
  clear_value w
  have z : (if x.bistFail.toNat = 15 then w.groundBy 3 else w).Good u.kept.held := good_ite (hw.of_kept (State.groundBy_kept _ _)) hw
  exact (leads_next _ _).2 ⟨z.1, (congrArg Held.pending z.2).trans hp⟩

theorem execNoVerdict_good {s : State} {q : Held} (h : s.Good q) : LeadsGood q (execNoVerdict s) := by
  unfold execNoVerdict
  exact leadsGood_ite ((leadsGood_next _ _).2 (State.factoryStart_good (h.of_kept (State.raiseInst_kept _ _ _))))
    ((leadsGood_next _ _).2 h)

theorem execRingTraining_good {s : State} {q : Held} (h : s.Good q) (a b : Bool) : LeadsGood q (execRingTraining a b s) := by
  unfold execRingTraining
  refine leadsGood_ite ((leadsGood_next _ _).2 h) (leadsGood_ite ((leadsGood_next _ _).2 (State.factoryStart_good
    (h.of_kept (State.updInst_kept _ _ ⟨rfl, rfl, rfl⟩)))) ?_)
  lift_lets
  intro clash u
  have hu : u.Good q := h.of_kept (State.takeTraining_kept _ _ _)
  clear_value u
  exact (leadsGood_next _ _).2 (good_ite (State.factoryStart_good (hu.of_kept (State.raiseInst_kept _ _ _))) hu)

theorem execXtRsp_good {s : State} {q : Held} (h : s.Good q) (f : Flit) (frac : Fin 16) : LeadsGood q (execXtRsp f frac s) := by
  unfold execXtRsp
  refine leadsGood_ite ((leadsGood_next _ _).2 h) ?_
  lift_lets
  intro u
  have hu : u.Good q := h.of_kept (State.updMgr_kept _ _)
  clear_value u
  refine leadsGood_ite ((leadsGood_next _ _).2 (hu.of_kept (State.xtClash_kept _))) ?_
  split
  · exact (leadsGood_next _ _).2 hu
  · exact (leadsGood_next _ _).2 (State.xtOffset_good (hu.of_kept (State.updMgr_kept _ _)) _)

theorem execThawResume_good {s : State} {q : Held} (h : s.Good q) : LeadsGood q (execThawResume s) := by
  unfold execThawResume
  split
  · exact leadsGood_ite ((leadsGood_next _ _).2 (State.thawNow_good h _ _)) ((leadsGood_next _ _).2 h)
  · exact (leadsGood_next _ _).2 h

theorem execThermTrip_good {s : State} {q : Held} (h : s.Good q) (i : Fin 128) (code : Int) :
    LeadsGood q (execThermTrip i code s) :=
  leadsGood_ite ((leadsGood_next _ _).2 ((State.endFreeze_good h).of_kept (State.tripActions_kept _))) ((leadsGood_next _ _).2 h)

theorem execCoolOkDeassert_good {s : State} {q : Held} (h : s.Good q) : LeadsGood q (execCoolOkDeassert s) :=
  leadsGood_ite ((leadsGood_next _ _).2 h) ((leadsGood_next _ _).2 ((State.endFreeze_good h).of_kept (State.stopDie_kept _ _)))

theorem execCoolStop_good {s : State} {q : Held} (h : s.Good q) (f : RxFlit) : LeadsGood q (execCoolStop f s) :=
  recv_good h _ _ _ _ _ fun _ hu => (State.endFreeze_good hu).of_kept (State.coolActions_kept _ _)

theorem execPwrfailN_good {s : State} {q : Held} (h : s.Good q) : LeadsGood q (execPwrfailN s) :=
  leadsGood_ite ((leadsGood_next _ _).2 h) ((leadsGood_next _ _).2 ((State.endFreeze_good h).of_kept (State.powerActions_kept _)))

theorem execFlashBusyTimeout_good {s : State} {q : Held} (h : s.Good q) : LeadsGood q (execFlashBusyTimeout s) :=
  leadsGood_ite ((leadsGood_next _ _).2 ((State.programFailed_good h).of_kept (State.stageAfter_kept _))) ((leadsGood_next _ _).2 h)

theorem State.flashRest_good {s : State} {q : Held} (h : s.Good q) : (s.noteFlushed.flashNext.stageAfter).Good q :=
  h.of_kept (by simp)

theorem execPageProgramDone_good {s : State} {q : Held} (h : s.Good q) (ok : Bool) : LeadsGood q (execPageProgramDone ok s) := by
  unfold execPageProgramDone
  refine leadsGood_ite ((leadsGood_next _ _).2 h) (leadsGood_ite ?_ (leadsGood_ite ((leadsGood_next _ _).2
    (State.flashRest_good ((State.programmed_good h).of_kept (State.endCause_kept _ _ _)))) ((leadsGood_next _ _).2
    ((State.programFailed_good h).of_kept (State.stageAfter_kept _)))))
  have k := State.programmed_good h
  have g := State.spoilSlots_nvm h
  generalize s.spoilSlots = bad at g ⊢
  generalize s.programmed = u at k ⊢
  have b : (({ u with fresh := bad.fresh } : State).updLog fun l => { l with nvm := bad.log.nvm }).Good q :=
    (k.withFresh _).updLog _ g
  exact (leadsGood_next _ _).2 (State.flashRest_good (good_ite k b))

theorem execSectorEraseDone_good {s : State} {q : Held} (h : s.Good q) (ok : Bool) : LeadsGood q (execSectorEraseDone ok s) := by
  unfold execSectorEraseDone
  split
  · exact (leadsGood_next _ _).2 h
  · rename_i v _
    refine leadsGood_ite ((leadsGood_next _ _).2 h) (leadsGood_ite ?_ ?_)
    · have k := wf_writeBytes 0xFF (List.replicate 4096 0xFF) s.log.nvm (s.slotAddr (64 * v)) h.nvm
      generalize writeBytes 0xFF s.log.nvm (s.slotAddr (64 * v)) (List.replicate 4096 0xFF) = m at k ⊢
      have hu : (s.updLog fun l => { l with nvm := m, erase := none, reclaim := none, retryE := false }).Good q := h.updLog _ k
      exact (leadsGood_next _ _).2 (State.flashRest_good (hu.of_kept (State.dropBelow_kept _)))
    · have hu := State.halfErase_good h v
      generalize s.halfErase v = u at hu ⊢
      exact (leadsGood_next _ _).2 (good_ite (hu.of_kept (State.flashFail_kept _)) (hu.of_kept (State.updLog_kept _ _ rfl)))

theorem execSnapshotLatch_good {s : State} {q : Held} (h : s.Good q) : LeadsGood q (execSnapshotLatch s) :=
  leadsGood_ite ((leadsGood_next _ _).2 (State.latchSnap_good h)) ((leadsGood_next _ _).2 h)

theorem execDumpCopy_good {s : State} {q : Held} (h : s.Good q) : LeadsGood q (execDumpCopy s) :=
  leadsGood_ite ((leadsGood_next _ _).2 (State.copyDump_good h _)) ((leadsGood_next _ _).2 h)

theorem runAbort_good {s : State} {q : Held} (h : s.Good q) (mine : Nat → Bool) (priv : Bool) :
    LeadsGood q (s.runAbort mine priv) := by
  unfold State.runAbort
  refine leadsGood_ite ((leadsGood_next _ _).2 h) (runCmd_good h _ _ _ _ _ _ fun u hu => ?_)
  exact good_ite (hu.of_kept (State.updObs_kept _ _ ⟨rfl, rfl⟩)) (State.abortNow_good hu _ _)

theorem execSnapshot_good {s : State} {q : Held} (h : s.Good q) (priv : Bool) : LeadsGood q (execSnapshot priv s) :=
  runCmd_good h _ _ _ _ _ _ fun _ hu => State.bodySnap_good hu

theorem execTblPage_good {s : State} {q : Held} (h : s.Good q) (w : Word) : LeadsGood q (execTblPage w s) :=
  hostPut_good h _ _ _ _ _ _ _ _ h (putPage_good h _)

theorem execTblCommit_good {s : State} {q : Held} (h : s.Good q) (w : Word) (priv : Bool) :
    LeadsGood q (execTblCommit w priv s) :=
  leadsGood_ite (hostPut_good h _ _ _ _ _ _ _ _ h h)
    (hostPut_good h _ _ _ _ _ _ _ _ (h.of_kept (State.updEng_kept _ _ ⟨rfl, rfl, rfl, rfl⟩)) (putCommit_good h))

theorem execTrstN_good {s : State} {q : Held} (h : s.Good q) : LeadsGood q (execTrstN s) := (leadsGood_next _ _).2 h

theorem State.Good.tap_ {s : State} {q : Held} (h : s.Good q) (t : Tap) (n : Nat) :
    ({ s with tap := t, fresh := n } : State).Good q := h

theorem State.tapRise_good {s : State} {q : Held} (h : s.Good q) (tms tdi : Bool) : (s.tapRise tms tdi).Good q := by
  unfold State.tapRise
  lift_lets
  intro t u
  have hu : u.Good q := by
    unfold u
    generalize s.captureDr = c
    split
    · exact h
    · split <;> exact h
    · exact h
    all_goals exact h
  clear_value u
  exact hu

theorem State.tapFall_good {s : State} {q : Held} (h : s.Good q) : s.tapFall.Good q := h

theorem execTck_good {s : State} {q : Held} (h : s.Good q) (tms tdi : Bool) : LeadsGood q (execTck tms tdi s) :=
  (leadsGood_next _ _).2 (State.tapFall_good (State.tapRise_good h _ _))

theorem State.Good.withFuses {s : State} {q : Held} (h : s.Good q) (f : Fuses) : ({ s with fuses := f } : State).Good q := h

theorem execFuseRead_good {s : State} {q : Held} (h : s.Good q) (x : FuseRead) : LeadsGood q (execFuseRead x s) := by
  unfold execFuseRead
  refine leadsGood_ite ((leadsGood_next _ _).2 h) ?_
  lift_lets
  intro ok u
  have hu : u.Good q := h.withFuses _
  clear_value u
  intro v
  have hv : v.Good q := State.good_of_kept (State.updFlt_kept _ _) (hu.of_kept (State.updInst_kept _ _ ⟨rfl, rfl, rfl⟩))
  clear_value v
  intro w
  have hw : w.Good q := hv.of_kept (forL_kept _ _ _ fun _ _ => by simp)
  clear_value w
  intro y
  have hy : y.Good q := good_ite hw (hw.of_kept (State.raiseInst_kept _ _ _))
  clear_value y
  intro z
  have hz : z.Good q := good_ite (State.good_of_kept (State.raiseInst_kept _ _ _)
    (hy.of_kept (State.updInst_kept _ _ ⟨rfl, rfl, rfl⟩))) hy
  clear_value z
  intro a
  have ha : a.Good q := hz.of_kept (State.sendEcho_kept _ _)
  clear_value a
  exact (leadsGood_next _ _).2 (good_ite (ha.of_kept (State.broadcastBoth_kept _ _ _ _)) ha)

theorem execImageVerify_good {s : State} {q : Held} (h : s.Good q) : LeadsGood q (execImageVerify s) := by
  unfold execImageVerify
  refine leadsGood_ite ((leadsGood_next _ _).2 h) ?_
  lift_lets
  intro x
  clear_value x
  intro u
  have hu : u.Good q := State.good_of_kept (State.updInst_kept _ _ ⟨rfl, rfl, rfl⟩) (h.of_kept (forL_kept _ _ _ fun _ _ => by simp))
  clear_value u
  intro s1
  have h1 : s1.Good q := hu.of_kept (State.sendVerdict_kept _ _ _)
  clear_value s1
  intro s2
  have h2 : s2.Good q := h1.of_kept (State.updMgr_kept _ _)
  clear_value s2
  intro part s3
  have h3 : s3.Good q := State.commit_good h2 _ (State.shareOf_wf _ _ _) _ _
  clear_value s3
  intro s4
  have h4 : s4.Good q := h3.of_kept (forL_kept _ _ _ fun _ _ => by simp)
  clear_value s4
  intro s5
  have h5 : s5.Good q := good_ite hu (hu.of_kept (State.raiseInst_kept _ _ _))
  clear_value s5
  intro s6
  have h6 : s6.Good q := State.good_of_kept (State.updInst_kept _ _ ⟨rfl, rfl, rfl⟩) (h5.of_kept (State.sendVerdict_kept _ _ _))
  clear_value s6
  exact leadsGood_ite ((leadsGood_next _ _).2 (h4.of_kept (forL_kept _ _ _ fun _ _ => by simp)))
    ((leadsGood_next _ _).2 (State.factoryStart_good (h6.of_kept (State.updMgr_kept _ _))))

theorem State.writeCmd_good {s : State} {q : Held} (h : s.Good q) (w : Nat) (priv : Bool) : LeadsGood q (s.writeCmd w priv) := by
  unfold State.writeCmd
  split
  · exact leadsGood_of_kept h (execNop_kept _ _)
  · exact runAbort_good h _ _
  · exact leadsGood_of_kept h (execDomainOn_kept _ _)
  · exact leadsGood_ite (leadsGood_of_kept h (execDomainOffAll_kept _ _)) (leadsGood_of_kept h (execDomainOff_kept _ _))
  · exact leadsGood_of_kept h (execSetMode_kept _ _)
  · exact leadsGood_of_kept h (execAutotune_kept _ _)
  · exact leadsGood_of_kept h (execFreeze_kept _ _)
  · exact leadsGood_of_kept h (execThaw_kept _ _)
  · exact leadsGood_of_kept h (execDump_kept _ _)
  · exact execSnapshot_good h _
  · exact leadsGood_of_kept h (execFlushLog_kept _ _)
  · exact leadsGood_of_kept (h.withFresh _) (execClearFault_kept _ _ _)
  · exact leadsGood_of_kept h (execSetCap_kept _ _)
  · exact leadsGood_of_kept h (execCmdReservedCode_kept _ _ _)

theorem execRegisterWrite_good {s : State} {q : Held} (h : s.Good q) (addr : BitVec 20) (w : Word) (priv : Bool) :
    LeadsGood q (execRegisterWrite addr w priv s) := by
  unfold execRegisterWrite
  refine leadsGood_ite ((leadsGood_next _ _).2 h) ?_
  refine leadsGood_ite ((leadsGood_next _ _).2 (h.of_kept (by simp))) (leadsGood_ite (State.writeCmd_good h _ _)
    (leadsGood_ite ((leadsGood_next _ _).2 (h.of_kept (by simp))) (leadsGood_ite ((leadsGood_next _ _).2
      (good_ite (h.of_kept (by simp)) (State.good_of_kept (State.okay_kept _) (plainPut_good h _ _)))) ?_)))
  refine leadsGood_ite (leadsGood_of_kept h (execCtlLock_kept _ _ _)) (leadsGood_ite (leadsGood_of_kept h (execFltAck_kept _ _ _))
    (leadsGood_ite (leadsGood_of_kept h (execLogCur_kept _ _ _ _)) (leadsGood_ite (leadsGood_of_kept h (execLogCur_kept _ _ _ _))
    (leadsGood_ite (leadsGood_of_kept h (execHkCtl_kept _ _ _)) (leadsGood_ite (leadsGood_of_kept h (execTlmCtl_kept _ _ _))
    (leadsGood_ite (leadsGood_of_kept h (execNrgJobRel_kept _ _ _)) (leadsGood_ite (leadsGood_of_kept h (execEngBudCommit_kept _ _ _))
    (leadsGood_ite (leadsGood_of_kept h (execTktQmax_kept _ _ _)) (leadsGood_ite (leadsGood_of_kept h (execTktSgLead_kept _ _ _))
    (leadsGood_ite (leadsGood_of_kept h (execTktSgMask_kept _ _ _ _ _)) (leadsGood_ite (leadsGood_of_kept h (execTilePar_kept _ _ _ _))
    (leadsGood_ite (leadsGood_of_kept h (execDomVreq_kept _ _ _ _)) (leadsGood_ite (leadsGood_of_kept h (execDomUcal_kept _ _ _ _))
    (leadsGood_ite (leadsGood_of_kept h (execDomLawB_kept _ _ _ _)) (leadsGood_ite (leadsGood_of_kept h (execDomPg_kept _ _ _ _))
    (leadsGood_ite (hostPut_good h _ _ _ _ _ _ _ _ h (h.of_kept (by simp))) (leadsGood_ite (leadsGood_of_kept h (execObsCntClr_kept _ _ _))
    (leadsGood_ite (leadsGood_of_kept h (execObsTrcCtl_kept _ _ _)) (leadsGood_ite (leadsGood_of_kept h (execObsTrcMark_kept _ _ _))
    (leadsGood_ite (execTblPage_good h _) (leadsGood_ite (execTblCommit_good h _ _) ?_)))))))))))))))))))))
  exact hostPut_good h _ _ _ _ _ _ _ _ h (plainPut_good h _ _)

end Sys2Proof.Machine
end

