-- ==== Sys2Proof/Tests/Slice0.lean ====
section
/-!
SUPPORT. Tests: ill-formed operands refused, and for every statement with hypotheses a state and operands that meet them, clause by
clause (a witness theorem carries its statement's name). Expected values are the spec's or follow from its formulas by hand.
-/

namespace Sys2Proof.Tests

open Sys2Proof.Machine

/-! ### States -/

/-- An instance that is up, enumerated and thawed, at a tick. -/
def upAt (manager : Bool) (t : Nat) : State :=
  { State.reset with
    time := t, inst := { State.reset.inst with strapped := true, pll := true, fuseDone := true, enumDone := true, manager := manager } }

/-- A worker of field 0 whose manager is field 1. -/
def worker (t : Nat) : State := (upAt false t).updTth fun x => { x with seen := [(1, true, 1, 1, 2)] }

/-- The manager, of field 0. -/
def master (t : Nat) : State := upAt true t

/-- An instance whose one domain, 0 of class C, holds mitten 0 (the factory table). -/
def oneDomain (t : Nat) : State :=
  { (master t).updInst fun n => { n with factory := true } with fuses := { State.reset.fuses with safeMitten := [32], safeClass := [0] } }

/-- A flit of a KIND with a payload, broadcast in class 1 by field 1. -/
def flit (kind pay : Nat) : Flit := mkFlit kind 1 1 0 true 0 pay

/-- A state with tile 5 replaced. -/
def withTile (x : Tile) (t : Nat) : State := (upAt false t).setTile 5 x

/-- A state with domain 0 replaced. -/
def withDom (s : State) (f : Dom → Dom) : State := s.updDom 0 f

/-- A state with ticket 7 in place. -/
def withTicket (x : Ticket) (t : Nat) : State := (upAt false t).setTicket 7 x

/-! ### Operands -/

/-- Each check of Instr.wf refuses an operand its row cannot bring, and takes one that it can. -/
theorem test_wf_measurements :
    (Instr.switchingPeriod 0 { vsns := 4096, vin := 1800, i0 := 0, i1 := 0, i2 := 0, i3 := 0, droop := false }).wf = false ∧
    (Instr.switchingPeriod 0 { vsns := 4095, vin := 32768, i0 := 0, i1 := 0, i2 := 0, i3 := 0, droop := false }).wf = false ∧
    (Instr.switchingPeriod 0 { vsns := 4095, vin := 32767, i0 := 0, i1 := 0, i2 := 0, i3 := -32768, droop := false }).wf = true ∧
    (Instr.prechargeDone 0 { k0 := { chans := [0, 0], rise := 60 }, k1 := { chans := [], rise := 0 }, k2 := { chans := [], rise := 0 }
                             k3 := { chans := [], rise := 0 } }).wf = false ∧
    (Instr.domainSample { sense := [{ point := 3, mean := 2048, min := 0, rail := false, flat := false }], upsets := [] }).wf = false ∧
    (Instr.domainSample { sense := [{ point := 3, mean := 100, min := 101, rail := false, flat := false }], upsets := [] }).wf = false ∧
    (Instr.domainSample { sense := [], upsets := [(0, 5), (0, 5)] }).wf = false ∧
    (Instr.domainSample { sense := [{ point := 3, mean := 2047, min := 2047, rail := false, flat := false }], upsets := [(0, 5)] }).wf = true ∧
    (Instr.tempConversion 0 32768).wf = false ∧ (Instr.thermCrit 0 (-32769)).wf = false ∧ (Instr.thermTrip 0 40000).wf = false ∧
    (Instr.tempConversion 0 (-32768)).wf = true := by decide +kernel

/-- A word of another TYPE, or of another command than its row's (R58, R59, R61); a check lane of any value can come. -/
theorem test_wf_words :
    (Instr.sync 0 0x10000000#32 0).wf = false ∧ (Instr.mref 0 0x00000000#32 0).wf = false ∧
    (Instr.msum 0 0x00000000#32 0).wf = false ∧ (Instr.cfg 0 0x00000000#32 0).wf = false ∧
    (Instr.trep 0 0x9000000000000000#64 0).wf = false ∧ (Instr.event 0 0x8000000000000000#64 0).wf = false ∧
    (Instr.sync 0 0x0FFFFFFF#32 15).wf = true ∧ (Instr.mref 0 0x1FFFFFFF#32 0).wf = true ∧
    (Instr.msum 0 0x2FFFFFFF#32 0).wf = true ∧ (Instr.cfg 0 0x4FFFFFFF#32 0).wf = true ∧
    (Instr.trep 0 0x8FFFFFFFFFFFFFFF#64 0).wf = true ∧ (Instr.event 0 0x9FFFFFFFFFFFFFFF#64 0).wf = true := by decide +kernel

theorem test_wf_commands :
    (let w := 0x3FB80000#32
     (Instr.tileNop ⟨0, w, 0⟩).wf = true ∧ (Instr.start ⟨0, w, 0⟩).wf = false ∧ (Instr.ssTarget 0 ⟨w, 0⟩).wf = false ∧ (Instr.ssGo 0 ⟨w, 0⟩).wf = false ∧
     (Instr.stop ⟨0, w, 0⟩).wf = false ∧ (Instr.shed 0 ⟨w, 0⟩).wf = false ∧ (Instr.unshed 0 ⟨w, 0⟩).wf = false ∧
     (Instr.retirePhase 0 ⟨w, 0⟩).wf = false ∧ (Instr.retireTile ⟨0, w, 0⟩).wf = false ∧ (Instr.crowbar ⟨0, w, 0⟩).wf = false ∧
     (Instr.clear ⟨0, w, 0⟩).wf = false ∧ (Instr.setOfs 0 ⟨w, 0⟩).wf = false ∧ (Instr.setShare 0 ⟨w, 0⟩).wf = false ∧
     (Instr.capTest 0 ⟨w, 0⟩).wf = false) ∧
    (Instr.tileNop ⟨0, 0x0F800000#32, 0⟩).wf = false ∧ (Instr.tileNop ⟨0, 0x3F840000#32, 0⟩).wf = false ∧
    (Instr.start ⟨0, 0x3F840000#32, 0⟩).wf = true ∧ (Instr.ssTarget 0 ⟨0x3F880000#32, 0⟩).wf = true ∧ (Instr.ssGo 0 ⟨0x3F8C0000#32, 0⟩).wf = true ∧
    (Instr.stop ⟨0, 0x3F900000#32, 0⟩).wf = true ∧ (Instr.shed 0 ⟨0x3F940000#32, 0⟩).wf = true ∧ (Instr.unshed 0 ⟨0x3F980000#32, 0⟩).wf = true ∧
    (Instr.retirePhase 0 ⟨0x3F9C0000#32, 0⟩).wf = true ∧ (Instr.retireTile ⟨0, 0x3FA00000#32, 0⟩).wf = true ∧
    (Instr.crowbar ⟨0, 0x3FA40000#32, 0⟩).wf = true ∧ (Instr.clear ⟨0, 0x3FA80000#32, 0⟩).wf = true ∧ (Instr.setOfs 0 ⟨0x3FAC0000#32, 0⟩).wf = true ∧
    (Instr.setShare 0 ⟨0x3FB00000#32, 0⟩).wf = true ∧ (Instr.capTest 0 ⟨0x3FB40000#32, 0⟩).wf = true := by decide +kernel

theorem test_wf_flits :
    (Instr.pageReq ⟨0, .one⟩).wf = false ∧ (Instr.pageData ⟨0, .one⟩ true).wf = false ∧ (Instr.sgFwd ⟨0, .one⟩).wf = false ∧
    (Instr.sgSet ⟨0, .one⟩).wf = false ∧ (Instr.sgProp ⟨0, .one⟩).wf = false ∧ (Instr.sgVote ⟨0, .one⟩).wf = false ∧
    (Instr.sgCommit ⟨0, .one⟩).wf = false ∧ (Instr.sgCancel ⟨0, .one⟩).wf = false ∧ (Instr.sgDrop ⟨0, .one⟩).wf = false ∧
    (Instr.sgWd ⟨0, .one⟩).wf = false ∧ (Instr.train 0 (.ring .one)).wf = false ∧ (Instr.time 0 .one 0).wf = false ∧
    (Instr.ddMode ⟨0, .one⟩).wf = false ∧ (Instr.ddAlloc ⟨0, .one⟩).wf = false ∧ (Instr.coolStop ⟨0, .one⟩).wf = false ∧
    (Instr.coolLoss ⟨0, .one⟩).wf = false ∧ (Instr.freezeFlit ⟨0, .one⟩).wf = false ∧ (Instr.thawFlit ⟨0, .one⟩).wf = false ∧
    (Instr.ringUp ⟨0, .one⟩).wf = false ∧ (Instr.linkDown ⟨0, .one⟩).wf = false ∧ (Instr.hash ⟨0, .one⟩).wf = false ∧
    (Instr.rptClass ⟨0, .one⟩).wf = false ∧ (Instr.rptDemand ⟨0, .one⟩).wf = false ∧ (Instr.rptField ⟨0, .one⟩).wf = false ∧
    (Instr.jobNrg ⟨0, .one⟩).wf = false ∧ (Instr.trace ⟨0, .one⟩).wf = false ∧ (Instr.sect ⟨0, .one⟩).wf = false ∧
    (Instr.verdict ⟨0, .one⟩).wf = false ∧ (Instr.run ⟨0, .one⟩).wf = false ∧ (Instr.xtReq 0 0).wf = false ∧ (Instr.xtRsp 0 0).wf = false ∧
    (Instr.xtThr 0).wf = false ∧ (Instr.coolStop ⟨(flit 0x05 1), .two⟩).wf = true ∧ (Instr.xtThr (flit 0x1E 0)).wf = true := by
  decide +kernel

/-- A device with 1-1-4 reads alone. -/
def sfdp (size : Nat) (reads : List (Nat × Nat × Nat)) : Sfdp :=
  { answers := true, signature := 0x50444653, major := 1, bfpt := true, size := size, has144 := false, has114 := true, has122 := false
    has112 := false, reads := reads, quadOk := true, qeWrite := false, read4 := true, enter4 := false, erase4k := true, suspend := true
    tPage := 700000, tSus := 20000 }

theorem test_wf_lists :
    (Instr.fuseRead { vt := [], vsafe := [], safeMitten := [], safeCluster := [], safeClass := [], keyHash := 0, sigReq := false
                      nvmClk := 0, crc := 0, tkVer := [] }).wf = false ∧
    (Instr.nvmDiscovery (sfdp (2 ^ 32) (List.replicate 4 (0x6C, 0, 8)))).wf = false ∧
    (Instr.nvmDiscovery (sfdp (2 ^ 26) [])).wf = false ∧ (Instr.nvmDiscovery (sfdp (2 ^ 26) (List.replicate 4 (0x6C, 0, 32)))).wf = false ∧
    (Instr.nvmDiscovery (sfdp (2 ^ 26) (List.replicate 4 (0x6C, 0, 8)))).wf = true ∧
    (Instr.adcScan (List.replicate 17 0)).wf = false ∧ (Instr.adcScan (List.replicate 16 0)).wf = true ∧
    (Instr.pmbDiscovery [{ index := 1, present := false, r1 := [], r2 := [], r3 := [], capability := 0, voutMode := 0, pecFail := false },
      { index := 1, present := true, r1 := [], r2 := [], r3 := [], capability := 0, voutMode := 0, pecFail := false }]).wf = false ∧
    (Instr.pmbPoll [{ index := 1, fail := none, status := 0, vin := 0, vout := 0, iout := 0, temp := 0, statTemp := 0 },
      { index := 1, fail := none, status := 0, vin := 0, vout := 0, iout := 0, temp := 0, statTemp := 0 }]).wf = false ∧
    (Instr.pmbAlertN { addr := 0x20, status := [(1, 0, 0), (1, 0, 0)] }).wf = false ∧
    (Instr.spineEnumeration { len := [25, 0, 0, 0, 0, 0, 0, 0], hop := [0, 0, 0, 0, 0, 0, 0, 0], silent := [] }).wf = false ∧
    (Instr.spineEnumeration { len := [24, 0, 0, 0, 0, 0, 0, 0], hop := [0, 0, 0, 0, 0, 0, 0, 0], silent := [3] }).wf = true ∧
    (Instr.cmdReservedCode 12 true).wf = false ∧ (Instr.cmdReservedCode 13 true).wf = true ∧
    (Instr.lowWordRead 0x22#20 true).wf = false ∧ (Instr.tlmPeakRead 0x3105#20).wf = false ∧
    (Instr.registerWrite 0x17#20 0 true).wf = false ∧ (Instr.hostPriv 0x01#20 true).wf = false ∧
    (Instr.hostPriv 0x04#20 true).wf = true := by decide +kernel

/-! ### Values of the spec -/

/-- The catalogue check value of CRC-8 (polynomial 0x07, initial value 0) over the digits 1 to 9, and of CRC-32 (R164). -/
theorem test_crc_values :
    crc8 72 0x313233343536373839 = 0xF4 ∧ crc32 [0x31, 0x32, 0x33, 0x34, 0x35, 0x36, 0x37, 0x38, 0x39] = 0xCBF43926 := by decide +kernel

/-- BRIM by mode (R72), in set-point codes of 0.5 mV. -/
theorem test_brim : brimCode .peak = 50 ∧ brimCode .balanced = 90 ∧ brimCode .efficient = 110 ∧ brimCode .grounded = 180 := by decide

/-- The mean units of R2: 16 ticks a sample, 256 a frame, 262,144 a round. -/
theorem test_units : frameOf 256 = 1 ∧ frameOf 255 = 0 ∧ roundOf 262144 = 1 ∧ roundOf 262143 = 0 ∧ nextFrame 256 = 512 := by decide

/-! ### Witnesses: the step, reset and the tiles -/

theorem witness_IdleStepPassesOneTick :
    (master 7).pending = [] ∧ (master 7).inst.pll = true ∧ (master 7).inst.inReset = false ∧
    State.reset.pending = [] ∧ State.reset.inst.pll = false := by decide +kernel

theorem witness_ResetLeavesTheBlockOff :
    (master 7).inst.inReset = false ∧ ((master 7).updInst fun n => { n with inReset := true }).inst.inReset = true := by decide +kernel

theorem witness_EveryStepKeepsInv : State.reset.Inv ∧ step State.reset = .next State.reset :=
  ⟨by unfold State.Inv Kept.Inv Mems.wf; decide +kernel, rfl⟩

theorem witness_NoCommandTouchesTheQueue : State.reset.Inv ∧ exec .xtExchange State.reset = .next State.reset :=
  ⟨by unfold State.Inv Kept.Inv Mems.wf; decide +kernel, rfl⟩

theorem witness_QuietCommandsKeepMemories :
    Instr.writes .tthErr = false ∧ ∃ t, exec .tthErr (master 7) = .next t := ⟨by decide, _, rfl⟩

theorem witness_StrapsAreSampledAtReleaseOnly :
    ((∀ x, Instr.trstN ≠ .rstNRelease x) ∧ Instr.trstN ≠ .rstNAssert ∧ ∃ t, exec .trstN (master 7) = .next t) ∧
    State.reset.inst.strapped = false ∧ ((master 7).updInst fun n => { n with inReset := true }).inst.inReset = true :=
  ⟨⟨(fun x h => by cases h), (fun h => by cases h), _, rfl⟩, by decide +kernel, by decide +kernel⟩

/-- A supply outside every pin's range is measured and locks its tile out, and the run goes on (R47). -/
theorem witness_EveryCommandAnswersANextState :
    ∃ t, exec (.switchingPeriod 5 { vsns := 0, vin := 2401, i0 := 0, i1 := 0, i2 := 0, i3 := 0, droop := false }) (master 8) = .next t :=
  ⟨_, rfl⟩

theorem witness_TileRowsChangeTheirTileOnly :
    Instr.ownTile (.stop ⟨5, 0x3F900000#32, 0⟩) = some 5 ∧ ∃ t, exec (.stop ⟨5, 0x3F900000#32, 0⟩) (master 7) = .next t := ⟨by decide, _, rfl⟩

/-- STOP for every position and for position 5, and the words that a tile lets pass: position 6 of its chain, another type, code 14. -/
theorem witness_TileCommandsAreHeldToTheBoundary :
    (let w := 0x3F900000#32
     dwCheck w = dwCheck w ∧ (7 : BitVec 4) ≠ dwCheck w ∧ dwType w = 3 ∧ dwPos w = 31 ∧ dwCode w = 4 ∧ cmdOf w = some .stop) ∧
    (dwType 0x32900000#32 = 3 ∧ dwPos 0x32900000#32 = (5 : Fin 192).val % 24) ∧
    (dwPos 0x33100000#32 ≠ 31 ∧ dwPos 0x33100000#32 ≠ (5 : Fin 192).val % 24) ∧ dwType 0x4F900000#32 ≠ 3 ∧
    cmdOf 0x3FB80000#32 = none ∧ cmdOf 0x3FFC0000#32 = none ∧
    ((List.range 32).map fun c => dwCode (0x3F800000#32 + BitVec.ofNat 32 (c * 2 ^ 18))) = List.range 32 ∧
    cmdOf 0x3F8BFFFF#32 = some (.ssTarget 4095) ∧ cmdOf 0x3F8FFFFF#32 = some (.ssGo 262143) ∧ cmdOf 0x3FAFFFFF#32 = some (.setOfs 127) := by
  decide +kernel

theorem witness_DownstreamWordsReachTheirTile :
    (1 : BitVec 4) ≠ dwCheck 0#32 ∧ ({} : Tile).spineErr < 65535 ∧ ({ spineErr := 65534 } : Tile).spineErr < 65535 ∧
    65535 ≤ ({ spineErr := 65535 } : Tile).spineErr ∧ dwType 0x0FFFFFFF#32 = 0 ∧ dwType 0x10000000#32 ≠ 0 ∧
    (dwType 0x0FFFFFFF#32 ≠ 1 ∧ refFor 5 0x10000001#32 0 = false ∧ refFor 6 0x10000000#32 0 = false) ∧
    (dwType 0x42800000#32 = 4 ∧ dwPos 0x43000000#32 ≠ 31 ∧ dwPos 0x43000000#32 ≠ 5 % 24) ∧
    (dwType 0x10000000#32 = 1 ∧ refFor 5 0x10000000#32 (worker 0).time = true) ∧
    (dwType 0x1C00000F#32 = 1 ∧ refFor 191 0x1C00000F#32 255 = true) ∧
    (dwType 0x20000000#32 = 2 ∧ refFor 5 0x20000000#32 (worker 0).time = true) ∧
    (dwType 0x4F800000#32 = 4 ∧ dwPos 0x4F800000#32 = 31) ∧ (dwType 0x42800000#32 = 4 ∧ dwPos 0x42800000#32 = 5 % 24) := by decide +kernel

theorem witness_TileProtectionsAct :
    (let s := withTile { state := .regulate } 16
     (s.tile 5).activePh ((s.tile 5).ph ((s.tile 5).phaseAt 0)) = true ∧
       (s.tile 5).activePh ((s.tile 5).ph ((s.tile 5).phaseAt 3)) = true) ∧
    ((worker 16).tile 5).activePh (((worker 16).tile 5).ph (((worker 16).tile 5).phaseAt 0)) = false ∧
    (((worker 16).tile 5).ph 2).holdCont = false ∧ (((worker 16).tile 5).ph 2).overCnt < ((worker 16).tile 5).par.tlim ∧
    (let x := ({} : Tile).updPh 2 fun p => { p with overCnt := 255 }
     ((withTile x 16).tile 5 |>.ph 2).holdCont = false ∧ ((withTile x 16).tile 5).par.tlim ≤ ((withTile x 16).tile 5 |>.ph 2).overCnt) ∧
    (let x := ({} : Tile).updPh 2 fun p => { p with holdCont := true, underCnt := 16 }
     ((withTile x 16).tile 5 |>.ph 2).holdCont = true ∧ 16 ≤ ((withTile x 16).tile 5 |>.ph 2).underCnt) ∧
    (let s := withTile { state := .regulate, lowCnt := 64 } 16
     (s.tile 5).state.runs = true ∧ (s.tile 5).loopFrozen = false ∧ 64 ≤ (s.tile 5).lowCnt) ∧
    (let s := withTile { loopFrozen := true, plausCnt := 1024 } 16
     (s.tile 5).loopFrozen = true ∧ 1024 ≤ (s.tile 5).plausCnt) ∧
    (let x := ({} : Tile).updPh 3 fun p => { p with openCnt := 16 }
     ((withTile x 16).tile 5 |>.ph 3).retired = false ∧ 16 ≤ ((withTile x 16).tile 5 |>.ph 3).openCnt) := by decide +kernel

theorem witness_TilePeriodsBoundariesAndSequences :
    (((worker 16).tile 5).rst = false ∧ (worker 16).time % 2 = 0 ∧ (worker 16).inst.inReset = false ∧ (worker 16).time % 16 = 0) ∧
    ((withTile { state := .regulate, rst := true } 16).tile 5).rst = true ∧
    ((({} : Tile).updPh 2 fun p => { p with retired := true }).ph 2).retired = true ∧
    (((withTile { state := .crowbar } 16).tile 5).state = .crowbar ∧ ((withTile { state := .softstart } 16).tile 5).state = .softstart ∧
      ((withTile { state := .shed } 16).tile 5).state = .shed ∧ (((withTile { state := .shed } 16).tile 5).ph 2).retired = false) ∧
    (let s := withTile { state := .regulate, boost := true } 16
     (s.tile 5).boost = true ∧ (s.tile 5).droopIn = false ∧ (s.tile 5).holdLeft = 0 ∧ (s.tile 5).state.runs = true) ∧
    (let s := withTile { state := .precharge, checked := true } 16
     (s.tile 5).state = .precharge ∧ (s.tile 5).precharged = false ∧ (s.tile 5).checked = true) ∧
    (let p : Pulse := { chans := [], rise := 0 }
     let s := withTile { state := .precharge } 16
     (s.tile 5).state = .precharge ∧ (s.tile 5).precharged = false ∧ (s.tile 5).checked = false ∧
       ((s.tile 5).startChecks s.time { k0 := p, k1 := p, k2 := p, k3 := p }).state ≠ .precharge) ∧
    (let s := withTile { state := .precharge, capT0 := 16, capLeft := 100 } 116
     (s.tile 5).state = .precharge ∧ (s.tile 5).capLeft ≠ 0 ∧ (s.tile 5).capT0 + (s.tile 5).capLeft ≤ s.time) ∧
    (let s := withTile { state := .softstart, t0 := 16, rampL := 32 } 48
     (s.tile 5).state = .softstart ∧ (s.tile 5).latchAt = 0 ∧ evenUp ((s.tile 5).t0 + (s.tile 5).rampL) ≤ s.time) ∧
    16 ≤ ((withTile { syncMiss := 16 } 16).tile 5).syncMiss ∧
    (let s := withTile (({} : Tile).pushEv 0 1 0) 64000
     ((s.tile 5).events.filter fun e => s.time < e.tick + 64000).length ≠ (s.tile 5).events.length) := by decide +kernel

theorem witness_ClearTestsTheCauseInTheTile :
    (({ state := .crowbar, crowOkCnt := 64 } : Tile).state = .crowbar ∧ 64 ≤ ({ state := .crowbar, crowOkCnt := 64 } : Tile).crowOkCnt) ∧
    ({ state := .crowbar, crowOkCnt := 63 } : Tile).crowOkCnt < 64 ∧
    (({ state := .latched, vinOkCnt := 64 } : Tile).state = .latched ∧ 64 ≤ ({ state := .latched, vinOkCnt := 64 } : Tile).vinOkCnt) ∧
    ({ state := .latched, vinOkCnt := 63 } : Tile).vinOkCnt < 64 := by decide +kernel

theorem witness_RetiredTilesStayRetired :
    ({ state := .retired } : Tile).state = .retired ∧ ({ state := .retired } : Tile).latchAt = 0 := by decide +kernel

/-! ### Witnesses: the field core -/

theorem witness_UpstreamWordsReachTheFieldCore :
    (uwType 0x8B80000000000000#64 = 8 ∧ uwPos 0x8B80000000000000#64 = 23) ∧ (1 : BitVec 4) ≠ uwCheck 0#64 ∧
    (uwType 0x9B80000000000000#64 = 9 ∧ uwPos 0x9B80000000000000#64 < 24 ∧ (worker 16).inst.lockstep = false) ∧
    (let s := (worker 16).updView 5 fun v => { v with missed := 16 }
     16 ≤ (s.view 5).missed ∧ (s.view 5).gone = false) ∧
    (((worker 16).updView 5 fun v => { v with missed := 15 }).view 5).missed < 16 := by decide +kernel

theorem witness_SamplesAndFramesRunAtTheirBoundaries :
    ((worker 16).time % 16 = 0 ∧ (worker 16).inst.inReset = false ∧ (worker 16).inst.enumDone = true ∧ (worker 17).time % 16 ≠ 0) ∧
    (let s := (worker 16).updInst fun n => { n with tuneRun := some {} }
     s.inst.tuneRun = some {} ∧ s.time % 16 = 0 ∧ s.obs.frozen = false) ∧
    ((worker 256).time % 256 = 0 ∧ (worker 256).inst.pll = true ∧ (worker 256).inst.unitAt ≠ (worker 256).time ∧
      (worker 256).obs.frozen = false ∧ (worker 256).inst.lockstep = false) ∧
    (let s := (worker 256).updObs fun o => { o with frozen := true }
     s.inst.unitAt ≠ s.time ∧ s.obs.frozen = true ∧ s.flt.rungs = []) ∧
    (let s := (worker 256).updInst fun n => { n with lockstep := true }
     s.inst.lockstep = true ∧ s.obs.frozen = false ∧ s.inst.gndNext = 0) ∧ (worker 0).time = 0 ∧ (worker 0).time % 256 = 0 ∧
    (worker 16).inst.tuneRun = none ∧
    (let s := (worker 256).updInst fun n => { n with unitAt := 256 }
     s.inst.unitAt = s.time ∧ s.time ≠ 0) := by decide +kernel

/-- The one domain with mitten 1 as well, and the points that a test picks trusted. -/
def twoMittens (f : Nat → Bool) : State :=
  { oneDomain 16 with
    fuses := { (oneDomain 16).fuses with safeMitten := [32, 32] }
    points := (List.range 32).map fun i => (i, { (oneDomain 16).point i with trusted := f i }) }

theorem witness_SenseAndSaturationAreJudged :
    (let s := (worker 16).updPoint 20 fun x => { x with why := some 1 }
     (s.point 20).why ≠ none ∧ s.mittenDom (20 / 16) = none) ∧ ((worker 16).point 20).why = none ∧
    (let s := oneDomain 16
     s.mittenDom (3 / 16) = some 0 ∧ (s.domPoints 0).all (fun i => !(s.point i).trusted && (s.point i).why.isNone) = true) ∧
    (let s := twoMittens fun i => i / 16 == 1
     s.mittenDom (3 / 16) = some 0 ∧ (s.domPoints 0).all (fun i => !(s.point i).trusted && (s.point i).why.isNone) = false ∧
       (((s.domPoints 0).filter fun i => i / 16 == 3 / 16).all fun i => !(s.point i).trusted && (s.point i).why.isNone) = true ∧
       (s.domPoints 0).any (fun i => (s.point i).trusted) = true) ∧
    (let s := twoMittens fun i => i == 4
     (((s.domPoints 0).filter fun i => i / 16 == 3 / 16).all fun i => !(s.point i).trusted && (s.point i).why.isNone) = false) ∧
    (let s := (oneDomain 16).updPoint 4 fun x => { x with why := some 1 }
     (s.domPoints 0).all (fun i => !(s.point i).trusted && (s.point i).why.isNone) = false ∧
       (s.domPoints 0).any (fun i => (s.point i).trusted) = false) ∧
    (let s := (oneDomain 16).updPoint 3 fun x => { x with trusted := false, passCnt := 1024 }
     s.mittenDom (3 / 16) = some 0 ∧ (s.point 3).trusted = false ∧ (s.point 3).locked = false ∧ s.trustRegain ≤ (s.point 3).passCnt ∧
       (s.domPoints 0).contains 3 = true ∧ ((s.updPoint 3 fun x => { x with trusted := true }).point 3).trusted = true ∧
       ((s.updPoint 3 fun x => { x with locked := true }).point 3).locked = true ∧
       ((s.updPoint 3 fun x => { x with passCnt := 0 }).point 3).passCnt < s.trustRegain) ∧
    (let s := withDom (worker 16) fun x => { x with satCnt := 32 }
     s.satTime ≤ (s.dom 0).satCnt ∧ bit (s.dom 0).satEp 0 = false) ∧
    (let s := withDom (worker 16) fun x => { x with satCnt := 125, satEp := 1 }
     s.satErr ≤ (s.dom 0).satCnt ∧ s.satTime ≤ (s.dom 0).satCnt ∧ bit (s.dom 0).satEp 1 = false ∧ bit (s.dom 0).satEp 0 = true) ∧
    ((worker 16).dom 0).satCnt < (worker 16).satTime ∧ ((worker 16).dom 0).satCnt < (worker 16).satErr ∧
    bit ((withDom (worker 16) fun x => { x with satEp := 3 }).dom 0).satEp 1 = true ∧ (2 : Nat) % 2 = 0 := by decide +kernel

theorem witness_BallastAndShareFaultsAreReported :
    ((withDom (worker 16) fun x => { x with mmRaise := some (100, 3) }).dom 0).mmRaise = some (100, 3) ∧
    ((worker 16).dom 0).mmRaise = none ∧
    (let s := (worker 500).updMitten 2 fun x => { x with lossTicks := [0, 400] }
     0 ∈ (s.mitten 2).lossTicks ∧ 0 + 500 ≤ s.time) ∧
    (let s := (worker 500).updMitten 2 fun x => { x with lossTicks := [1] }
     ∀ t ∈ (s.mitten 2).lossTicks, s.time < t + 500) ∧ ((worker 16).view 5).shareOsc = false ∧
    (let s := (worker 16).updView 5 fun v => { v with lost := false, oscSigns := [200000, -200000, 200000, -200000, 200000, -200000, 200000, -200000, 200000] }
     s.working 5 = true ∧ (s.view 5).shareOsc = true) := by decide +kernel

theorem witness_RoundsCloseAtRoundBoundaries :
    (let s := (worker 262144).updInst fun n => { n with unitAt := 262144, committed := true }
     s.time % 262144 = 0 ∧ s.time ≠ 0 ∧ s.inst.unitAt = s.time ∧ s.hk.roundAt ≠ s.time + 1 ∧ s.inst.inReset = false ∧
       s.inst.committed = true ∧ s.obs.frozen = false ∧ s.inst.lockstep = false ∧
       (s.updObs fun o => { o with frozen := true }).obs.frozen = true ∧
       (s.updInst fun n => { n with lockstep := true }).inst.lockstep = true) ∧
    (let s := (worker 262144).updHk fun h => { h with roundAt := 262145, win := 0, winInForce := 0 }
     s.hk.roundAt = s.time + 1 ∧ s.hk.pubAt ≠ s.time + 1 ∧ s.inst.lockstep = false ∧ s.obs.frozen = false ∧ s.hk.win = s.hk.winInForce ∧
       roundOf s.time % 2 ^ s.hk.winInForce = 0) := by decide +kernel

/-- A domain that may shed at tick 496, the last sample of frame 1. -/
def shedding : State :=
  withDom ((oneDomain 496).updInst fun n => { n with mode := .balanced }) fun x => { x with loop := .closed, dwell := List.replicate 16 2 }

theorem witness_DomainsShedBetweenSlotsInPhase :
    (let s := forIdx 6 (fun t u => u.updView t fun v => { v with state := 3 }) shedding
     s.time % 256 / 16 = 15 ∧ s.obs.frozen = false ∧ s.inst.lockstep = false ∧ s.inst.inReset = false ∧ s.enabled 0 = true ∧
       s.mayShed 0 = true ∧ s.tks (fun _ => true) = []) ∧
    (let u := ((forIdx 6 (fun t u => u.updView t fun v => { v with state := 3 }) shedding).updInst fun n => n)
     let s := { u with fuses := { u.fuses with safeCluster := [32] } }.setTicket 7 { used := true, state := .launched, slot := 480 }
     s.mayShed 0 = true ∧ s.nearGrants 0 512 = [] ∧ (s.domTks 0 fun k => k.state == .armed || k.state == .launched) ≠ []) ∧
    ((worker 16).time % 256 / 16 ≠ 15 ∧ (worker 16).mayShed 0 = false) ∧
    (let s := (forIdx 6 (fun t u => u.updView t fun v => { v with state := 3 }) shedding)
     let u := { s with fuses := { s.fuses with safeCluster := [32] } }.setTicket 7 { used := true, state := .granted, slot := 512 }
     u.mayShed 0 = true ∧ u.nearGrants 0 (nextFrame u.time) ≠ []) ∧ bit 8 3 = true := by decide +kernel

/-! ### Witnesses: limits, stops and the engine -/

/-- One domain under a ladder of class C at tick 65,536, with an allocation that its draw exceeds. -/
def overLadder : State :=
  (withDom ((oneDomain 65536).updInst fun n => { n with ready := true, unitAt := 65536 }) fun x =>
    { x with clMinPrev := 15, pCap := 4 }).updLadder 0 fun l => { l with alloc := some 1000, p16 := List.replicate 15 1000 ++ [1001], upCnt := 64 }

theorem witness_LaddersStepNotchByNotch :
    ((overLadder.lim.ladder (ladIdx .c)).alloc = some 1000 ∧ overLadder.ladderTime = true ∧
      16 * 1000 < (overLadder.lim.ladder (ladIdx .c)).sum16 ∧
      ((overLadder.lim.ladder (ladIdx .c)).lastStep.all fun f => f + overLadder.stepDn ≤ frameOf overLadder.time) = true ∧
      overLadder.downNotch (ladIdx .c) ≠ []) ∧
    ((worker 16).lim.ladder (ladIdx .m)).alloc = none ∧
    ((overLadder.lim.ladder (ladIdx .c)).alloc ≠ none ∧ overLadder.stepUp ≤ (overLadder.lim.ladder (ladIdx .c)).upCnt) ∧
    ((worker 16).lim.ladder (ladIdx .c)).upCnt < (worker 16).stepUp := by decide +kernel

theorem witness_TheManagerAllocatesInFrameFour :
    (let s := (master 1024).updInst fun n => { n with ready := true }
     s.inst.manager = true ∧ s.inst.ready = true ∧ s.time % 262144 / 256 = 4 ∧ s.mgr.dispLast ≠ some (roundOf s.time) ∧
       s.obs.frozen = false ∧ s.inst.lockstep = false ∧ s.inst.factory = false) ∧
    (worker 16).inst.manager = false ∧
    (let s := (master 16).updMgr fun m => { m with capFloor := true, capFloorN := 16, residCnt := 16 }
     s.mgr.capFloor = true ∧ 16 ≤ s.mgr.capFloorN ∧ 16 ≤ s.mgr.residCnt ∧ s.mgr.residEp = false) := by decide +kernel

theorem witness_TemperaturesAndVinAreActedOn :
    (frameOf (worker (63 * 256)).time % 64 = 127 % 64 ∧ (worker (63 * 256)).inst.inReset = false) ∧
    (let s := { oneDomain 256 with sensors := tset {} (oneDomain 256).sensors 0 { valid := true } }
     (s.sensor 0).valid = true ∧ (s.sensor 0).hot = false ∧ s.tCrit (s.thermGroup (sensorMitten 0)) ≤ 32767 ∧ s.inst.inReset = false ∧
       s.mittenDom (sensorMitten 0) = some 0) ∧
    (({ worker 256 with sensors := tset {} (worker 256).sensors 0 { hot := true } } : State).sensor 0).hot = true ∧
    ((-32768 : Int) < (worker 256).tCrit ((worker 256).thermGroup (sensorMitten 0)) ∧ (({ worker 256 with sensors := tset {} [] 0 { valid := false } } : State).sensor 0).valid = false) ∧
    (let s := (worker 16).updLim fun l => { l with vinOut := 16 }
     16 ≤ s.lim.vinOut ∧ s.lim.vinEp = false) ∧
    ((worker 16).updLim fun l => { l with vinEp := true }).lim.vinEp = true := by decide +kernel

theorem witness_StopsEndAFreezeAndAct :
    ((8000 : Int) ≤ 8000 ∧ (worker 16).lim.thermTrip = false ∧ (worker 16).inst.inReset = false ∧ (worker 16).lim.pwrFail = false) ∧
    ((worker 16).updLim fun l => { l with pwrFail := true }).lim.pwrFail = true ∧
    (worker 16).takes 0x05 .one (flit 0x05 (2 ^ 104)) = true ∧
    ((master 16).obs.frozen = false ∧ (master 16).takes 0x0B .two (flit 0x0B 0) = true ∧
      ((master 16).taken .two (flit 0x0B 0)).inst.manager = true) ∧
    ((worker 16).takes 0x0B .two (flit 0x0B 0) = true ∧ ((worker 16).taken .two (flit 0x0B 0)).inst.manager = false) := by decide +kernel

theorem witness_ForecasterPeriodsAndLeftWork :
    ((worker 0).inst.inReset = false ∧ (worker 0).time % (16 * (worker 0).eng.fcPer) = 0 ∧ (worker 0).engineRuns = true) ∧
    (worker 1).time % (16 * (worker 1).eng.fcPer) ≠ 0 ∧
    (((worker 16).updEng fun e => e.setLane 2 { leftDl := [0] }).eng.lane 2).leftDl ≠ [] ∧
    (let s := (worker 240).updEng fun e => e.setLane 2 { leftAt := [(0, 0)] }
     (s.eng.lane 2).leftAt ≠ [] ∧ 240 ≤ s.time % 256) ∧
    (let s := (worker (16 * ((worker 0).eng.fcPer - 1))).updEng fun e => e.setLane 2 { leftFc := [(0, 0)] }
     (s.eng.lane 2).leftFc ≠ [] ∧ 16 * (s.eng.fcPer - 1) ≤ s.time % (16 * s.eng.fcPer)) := by decide +kernel

/-- A worker with page 9 bad since frame 1, at frame 2. -/
def badPage (b : BadPage) : State := (worker 512).updEng fun e => { e with bad := [(9, some b)], hmod := [10] }

theorem witness_BadPagesAreRecheckedAndReloaded :
    (let s := badPage { array := 2, since := 1 }
     tget none s.eng.bad 9 = some { array := 2, since := 1 } ∧ 1 < frameOf s.time ∧ s.grounded = false ∧ s.inst.lockstep = false ∧
       s.chkAgrees 9 = true ∧ s.eng.hmod.contains 9 = false) ∧
    (let s := (badPage { since := 1 }).updEng fun e => { e with mem := [(9 * 256, 1)] }
     s.chkAgrees 9 = false) ∧ tget none (badPage { since := 1 }).eng.bad (8 : Fin 8192).val = none ∧
    (({ since := 1 } : BadPage).asked = false ∧ ({ since := 1 } : BadPage).goodAt = none) ∧
    ((badPage { since := 1 }).updEng fun e => { e with hmod := [9] }).eng.hmod.contains 9 = true ∧
    (let s := (worker 16).updEng fun e => { e with charges := tset 0 e.charges 3 3 }
     3 ≤ tget 0 s.eng.charges 3 ∧ bit s.eng.retired 3 = false ∧ bit s.eng.retireNext 3 = false) := by decide +kernel

theorem witness_PagesTravelInThirtyTwoChunks :
    (let s := (master 512).updInst fun n => { n with verdict := 1 }
     s.obs.frozen = false ∧ s.takes 0x11 .one (flit 0x11 (9 * 2 ^ 92)) = true ∧
       (s.taken .one (flit 0x11 (9 * 2 ^ 92))).inst.manager = true ∧ (s.taken .one (flit 0x11 (9 * 2 ^ 92))).inst.verdict = 1) ∧
    (let s := badPage { since := 1, asked := true }
     let f := flit 0x1A (9 * 2 ^ 92)
     s.takes 0x1A .one f = true ∧ tget none (s.taken .one f).eng.bad (fbits f 104 92) = some { since := 1, asked := true } ∧
       ((s.taken .one f).takeChunk (fbits f 104 92) (fbits f 91 87) (fbits f 86 23)).eng.reloadGot.length < 32) ∧
    (let s := (badPage { since := 1, asked := true }).updEng fun e => { e with
       loadPage := some 9, reloadGot := (List.range 32).filter (· ≠ 31) }
     let f := flit 0x1A (9 * 2 ^ 92 + 31 * 2 ^ 87)
     s.takes 0x1A .one f = true ∧ tget none (s.taken .one f).eng.bad (fbits f 104 92) = some { since := 1, asked := true } ∧
       32 ≤ ((s.taken .one f).takeChunk (fbits f 104 92) (fbits f 91 87) (fbits f 86 23)).eng.reloadGot.length) ∧
    ((worker 16).obs.frozen = false ∧ (worker 16).takes 0x1A .two (flit 0x1A (9 * 2 ^ 92)) = true ∧
      tget none ((worker 16).taken .two (flit 0x1A (9 * 2 ^ 92))).eng.bad (fbits (flit 0x1A (9 * 2 ^ 92)) 104 92) = none) := by
  decide +kernel

/-! ### Witnesses: tickets and sync groups -/

/-- One domain in regulation, with cluster 0 in it and launch profile 0 valid. -/
def ready0 (t : Nat) : State :=
  { withDom (oneDomain t) fun x => { x with loop := .closed } with
    fuses := { State.reset.fuses with safeMitten := [32], safeClass := [0], safeCluster := [32] }, cfg := [(secKey 5 7, 1#8)] }

/-- A request of a body of 88 bits with its CRC. -/
def request (body : Nat) : BitVec 96 := BitVec.ofNat 96 (body * 256 + crc8 88 body)

theorem witness_TicketRequestsAreAnsweredOrTaken :
    (((ready0 16).cluster 0).disabled = false ∧ (ready0 16).inst.inReset = false ∧ (ready0 16).inst.fuseDone = true ∧
      (ready0 16).obs.frozen = false) ∧
    (ready0 16).refusal 0 (request 0).toNat false = some 0x8 ∧ (ready0 16).refusal 0 (request (2 ^ 80)).toNat true = some 0x9 ∧
    ((ready0 16).refusal 0 (request 0).toNat true = none ∧ bit (request 0).toNat 13 = false) ∧
    (let s := (ready0 16).updMgr fun m => { m with sgMask := tset none m.sgMask 0 (some 1#32) }
     s.refusal 0 (request 32).toNat true = none ∧ bit (request 32).toNat 13 = true) ∧
    (((ready0 16).cluster 0).full = false ∧ ((ready0 16).cluster 0).rspWait = []) ∧
    (((ready0 16).updCluster 0 fun x => { x with rsp := List.replicate 32 0 }).cluster 0).full = true ∧
    ((ready0 16).updObs fun o => { o with frozen := true }).obs.frozen = true := by decide +kernel

/-- A DONE report for ticket 7. -/
def doneWord : Word := BitVec.ofNat 32 ((2 ^ 20 + 7 * 16) * 256 + crc8 24 (2 ^ 20 + 7 * 16))

/-- A COUNT report for ticket 7, counter 2, value 9. -/
def countWord : BitVec 96 :=
  let b := 2 * 2 ^ 84 + 7 * 2 ^ 68 + 2 * 2 ^ 64 + 9
  BitVec.ofNat 96 (b * 256 + crc8 88 b)

theorem witness_ReportsReachTheirOwnTicket :
    (let s := withTicket { used := true, state := .granted, cluster := 3 } 16
     (s.cluster 3).disabled = false ∧ s.inst.inReset = false ∧ s.inst.fuseDone = true ∧ s.obs.frozen = false ∧
       crc8 24 (doneWord.toNat / 256) = doneWord.toNat % 256 ∧ bits doneWord.toNat 31 28 = 1 ∧ bits doneWord.toNat 27 12 = 7 ∧
       (s.ticket 7).used = true ∧ (s.ticket 7).cluster = 3 ∧ (s.ticket 7).state.inLedger = true ∧ (s.ticket 7).state.runs = false) ∧
    (let s := withTicket { used := true, state := .running, cluster := 3, slot := 16, runMax := 1 } 16
     crc8 88 (countWord.toNat / 256) = countWord.toNat % 256 ∧ bits countWord.toNat 95 92 = 2 ∧ bits countWord.toNat 91 76 = 7 ∧
       (s.ticket 7).used = true ∧ (s.ticket 7).cluster = 3 ∧ (s.ticket 7).state.runs = true ∧ (s.ticket 7).state.inLedger = true ∧
       s.time < (s.ticket 7).runEnd) ∧
    (let s := withTicket { used := true, state := .running, cluster := 3 } 0x1000000
     (s.ticket 7).state.runs = true ∧ (s.ticket 7).runEnd ≤ s.time ∧ s.inst.inReset = false ∧ s.inst.fuseDone = true) ∧
    crc8 24 (0 / 256) = 0 % 256 ∧ bits 0 31 28 ≠ 1 ∧ crc8 24 (1 / 256) ≠ 1 % 256 ∧ crc8 88 (1 / 256) ≠ 1 % 256 ∧ bits 0 95 92 ≠ 2 ∧
    ((worker 16).ticket 7).used = false ∧ ((worker 16).ticket 7).state.inLedger = false ∧ ((worker 16).ticket 7).state.runs = false ∧
    ((worker 16).ticket 7).cluster ≠ 3 ∧ ((worker 16).updObs fun o => { o with frozen := true }).obs.frozen = true := by decide +kernel

theorem witness_ClusterChannelsAreFollowed :
    ((worker 16).cluster 3).rsp = [] ∧ (worker 16).inst.inReset = false ∧ (worker 16).obs.frozen = false ∧
    (let s := (worker 16).updCluster 3 fun x => { x with rsp := [5] }
     s.obs.frozen = false ∧ (s.cluster 3).rsp = [5] ∧ s.inst.inReset = false) ∧
    ((worker 16).updObs fun o => { o with frozen := true }).obs.frozen = true := by decide +kernel

theorem witness_GrantPassesTryCandidatesInOrder :
    (let s := (worker 16).updTth fun t => { t with timeValid := true }
     s.obs.frozen = false ∧ s.inst.inReset = false ∧ s.enqueue.noteSlot.tth.timeValid = true ∧
       s.enqueue.noteSlot.lim.pwrFail = false) ∧ (worker 16).enqueue.noteSlot.tth.timeValid = false ∧
    ((worker 16).updLim fun l => { l with pwrFail := true }).enqueue.noteSlot.lim.pwrFail = true ∧
    ((worker 16).updObs fun o => { o with frozen := true }).obs.frozen = true := by decide +kernel

theorem witness_TicketsRunThroughTheirStates :
    (let s := withTicket { used := true, state := .granted, ballast := true, bA := 16, slot := 16 } 16
     (s.ticket 7).used = true ∧ (s.ticket 7).state = .granted ∧ (s.ticket 7).ballast = true ∧ (s.ticket 7).bA ≤ s.time ∧
       (s.ticket 7).slot ≤ s.time ∧ s.obs.frozen = false) ∧
    ((withTicket { used := true, state := .armed, slot := 16 } 16).ticket 7).state = .armed ∧
    ((withTicket { base := some 500 } 16).ticket 7).base = some 500 ∧ ((withTicket { base := none } 16).ticket 7).base = none ∧
    (let s := withTicket { used := true, state := .requested, expiry := 16 } 16
     (s.ticket 7).state = .requested ∧ ((s.ticket 7).expiry : Int) + (s.ticket 7).extra ≤ s.time) ∧
    (let s := withTicket { used := true, state := .launched, slot := 16 } 0x1000000
     (s.ticket 7).state = .launched ∧ (s.ticket 7).runEnd ≤ s.time) ∧
    (let s := withTicket { used := true, state := .launched, slot := 8 } 16
     (s.ticket 7).state = .launched ∧ (s.ticket 7).slot + 8 ≤ s.time) ∧
    (let s := withTicket { used := true, state := .queued, expiry := 16 } 16
     (s.ticket 7).state = .queued ∧ ((s.ticket 7).expiry : Int) + (s.ticket 7).extra ≤ s.time) ∧
    (let s := withTicket { used := true, state := .running, slot := 16 } 0x1000000
     (s.ticket 7).state = .running ∧ (s.ticket 7).runEnd ≤ s.time) ∧
    ((worker 16).updObs fun o => { o with frozen := true }).obs.frozen = true := by decide +kernel

/-- A state with ticket 7 a member of sync group 5 in set 9. -/
def inSet : State :=
  (worker 16).setTicket 7 { used := true, state := .queued, cluster := 0, sync := true, group := 5, setId := some 9 }

/-- The same where its cluster has its domain. -/
def inSet0 : State :=
  ((((ready0 16).updTth fun t => { t with timeValid := true }).updLim fun l => { l with vinF := 1800 }).updBring 0 fun b => { b with
    step := .up }).setTicket 7 { used := true, state := .queued, cluster := 0, sync := true, group := 5, setId := some 9 }

theorem witness_FieldsVoteAndGrantTheirMembers :
    inSet.obs.frozen = false ∧ inSet.takes 0x1F .one (flit 0x1F 0) = true ∧
    (let f := flit 0x16 (5 * 2 ^ 99 + 9 * 2 ^ 91 + 64 * 2 ^ 59)
     inSet.takes 0x16 .one f = true ∧ (inSet.taken .one f).members (fbits f 104 99) (fbits f 98 91) ≠ [] ∧
       ((inSet.taken .one f).bookAll ((inSet.taken .one f).members (fbits f 104 99) (fbits f 98 91))
         (extend32 (inSet.taken .one f).time (fbits f 90 59))).2 = false) ∧
    (let f := flit 0x16 (5 * 2 ^ 99 + 9 * 2 ^ 91 + 1024 * 2 ^ 59)
     inSet0.takes 0x16 .one f = true ∧ (inSet0.taken .one f).members (fbits f 104 99) (fbits f 98 91) ≠ [] ∧
       ((inSet0.taken .one f).bookAll ((inSet0.taken .one f).members (fbits f 104 99) (fbits f 98 91))
         (extend32 (inSet0.taken .one f).time (fbits f 90 59))).2 = true) ∧
    (inSet0.takes 0x17 .one (flit 0x17 0) = true ∧ (inSet0.taken .one (flit 0x17 0)).tth.timeValid = true) ∧
    (let s := inSet.updTicket 7 fun x => { x with booked := some 1024 }
     let f := flit 0x17 (5 * 2 ^ 99 + 9 * 2 ^ 91 + 1024 * 2 ^ 59)
     let u := s.taken .one f
     s.takes 0x17 .one f = true ∧ u.tth.timeValid = false ∧ ((u.members (fbits f 104 99) (fbits f 98 91)).filter fun i =>
       (u.ticket i).booked == some (extend32 u.time (fbits f 90 59)) && !(u.ticket i).state.inLedger) ≠ []) ∧
    inSet.takes 0x18 .one (flit 0x18 0) = true ∧
    (inSet.takes 0x15 .one (flit 0x15 0) = true ∧ fBc (flit 0x15 0) = true) ∧
    ((master 16).takes 0x15 .one (mkFlit 0x15 1 1 0 false 0 0) = true ∧ fBc (mkFlit 0x15 1 1 0 false 0 0) = false ∧
      ((master 16).taken .one (mkFlit 0x15 1 1 0 false 0 0)).inst.manager = true) := by decide +kernel

theorem witness_TheManagerCollectsSyncSets :
    ((master 16).obs.frozen = false ∧ (master 16).takes 0x12 .one (flit 0x12 0) = true ∧
      ((master 16).taken .one (flit 0x12 0)).inst.manager = true) ∧ (master 16).takes 0x14 .one (flit 0x14 0) = true ∧
    (let x : SgSetRec := { group := 5, mems := [{ cluster := 32, ticket := 7, field := 1 }] }
     let s := (master 16).updMgr fun m => { m with sgSets := [x] }
     let f := flit 0x13 (5 * 2 ^ 99 + 7 * 2 ^ 83)
     s.takes 0x13 .one f = true ∧ ((s.taken .one f).mgr.sgSets.find? fun x => x.group == fbits f 104 99 && !x.committed &&
       x.mems.any fun m => m.field == fSrc f && m.ticket == fbits f 98 83) = some x) ∧
    (let x : SgSetRec := { group := 5, voting := true, sentAt := 0 }
     let s := (master 64).updMgr fun m => { m with sgSets := [x] }
     s.obs.frozen = false ∧ (s.mgr.sgSets.find? fun x => x.group == 5 && x.voting && x.sentAt + 64 ≤ s.time) = some x) ∧
    (let x : SgSetRec := { group := 5, fails := 16 }
     let s := (master 64).updMgr fun m => { m with sgSets := [x] }
     (s.mgr.sgSets.find? fun x => x.group == 5 && 16 ≤ x.fails && !x.committed) = some x) := by decide +kernel

/-! ### Witnesses: the ring, time and reports -/

/-- A slot sent on ring 1 at tick 0 with SEQ 7. -/
def slotAt (sends : Nat) : Slot := { word := mkFlit 0x0D 1 0 1 false 7 0, ring := 1, sentAt := 0, sends := sends }

theorem witness_RingsTrainAndGoDown :
    ((worker 16).inst.inReset = false ∧ (worker 16).inst.pll = true ∧ (worker 16).tth.trained = false ∧
      flitOk (flit 0x01 (2 ^ 104)) = true ∧ fKind (flit 0x01 (2 ^ 104)) = 0x01 ∧
      (worker 16).obs.frozen = false ∧ ((worker 16).passOn .one (flit 0x01 (2 ^ 104))).tth.trained = false ∧
      ((worker 16).passOn .one (flit 0x01 (2 ^ 104))).tth.seen.contains (trainEntry (flit 0x01 (2 ^ 104)) .one) = false) ∧
    (((worker 16).updTth fun t => { t with trained := true }).passOn .two (flit 0x01 0)).tth.trained = true ∧
    (let s := (worker 16).updTth fun t => { t with seen := [trainEntry (flit 0x01 (2 ^ 104)) .two] }
     (s.passOn .two (flit 0x01 (2 ^ 104))).tth.seen.contains (trainEntry (flit 0x01 (2 ^ 104)) .two) = true) ∧
    ((worker 16).updObs fun o => { o with frozen := true }).obs.frozen = true ∧ (worker 16).takes 0x08 .one (flit 0x0A 0) = false ∧ flitOk 1#128 = false ∧ fKind (flit 0x02 0) ≠ 0x01 ∧
    ((worker 16).obs.frozen = false ∧ (worker 16).takes 0x08 .one (flit 0x08 0) = true ∧ (worker 16).takes 0x0A .one (flit 0x0A 0) = true) ∧
    ((worker 16).tth.linkA = false ∧ (worker 16).tth.linkB = false) ∧
    ((worker 16).updTth fun t => { t with linkA := true }).tth.linkA = true := by decide +kernel

theorem witness_FlitsAreSentAgainUntilTheyReturn :
    (let s (n : Nat) : State := (worker 32).updTth fun t => { t with slots := [slotAt n] }
     ((s 3).tth.slots.find? fun x => fSeq x.word == 7 && decide (x.sentAt + 32 ≤ (s 3).time)) = some (slotAt 3) ∧ 3 ≤ (slotAt 3).sends ∧
       ((s 2).tth.slots.find? fun x => fSeq x.word == 7 && decide (x.sentAt + 32 ≤ (s 2).time)) = some (slotAt 2) ∧
       (slotAt 2).sends < 3 ∧ (slotAt 2).ring = 1 ∧ (s 2).tth.ring2Down = false ∧ (s 3).lineMode = false ∧ (s 3).obs.frozen = false) ∧
    ((worker 32).updTth fun t => { t with slots := [slotAt 1], ring2Down := true }).tth.ring2Down = true ∧
    (({ slotAt 2 with ring := 3 } : Slot).ring = 3 ∧ ({ slotAt 2 with ring := 3 } : Slot).sends < 3) ∧
    (({ slotAt 2 with ring := 2 } : Slot).ring = 2 ∧ (worker 32).tth.ring1Down = false ∧
      ((worker 32).updTth fun t => { t with ring1Down := true }).tth.ring1Down = true) ∧
    ((worker 32).updTth fun t => { t with slots := [slotAt 1], ring2Down := true }).lineMode = false ∧
    (flitOk (slotAt 1).word = true ∧ fSrc (slotAt 1).word = (worker 32).inst.fieldId ∧ (worker 32).inst.inReset = false) := by
  decide +kernel

/-- A TIME flit of the worker's manager, and one that the manager sent itself. -/
def timeFlit (src : Nat) : Flit := mkFlit 0x02 0 src 0 true 0 0

theorem witness_TimeIsHeldToTheManagers :
    ((master 16).inst.inReset = false ∧ (master 16).inst.pll = true ∧ (master 16).obs.frozen = false ∧ flitOk (timeFlit 0) = true ∧
      fKind (timeFlit 0) = 0x02 ∧ some (fSrc (timeFlit 0)) = (master 16).mgrId ∧ (master 16).inst.manager = true) ∧
    (flitOk (timeFlit 1) = true ∧ fKind (timeFlit 1) = 0x02 ∧ some (fSrc (timeFlit 1)) = (worker 16).mgrId ∧
      (worker 16).inst.manager = false ∧ (worker 16).inst.pll = true) ∧
    (((master 16).passOn .one (timeFlit 0)).inst.manager = true ∧ ((worker 16).passOn .two (timeFlit 1)).inst.manager = false) ∧
    ((worker 16).updObs fun o => { o with frozen := true }).obs.frozen = true ∧
    ((worker 16).tth.timeValid = false ∧ (worker 16).tth.okEst < 4 ∧
      4 ≤ ((worker 16).updTth fun t => { t with okEst := 4 }).tth.okEst) ∧
    (let s := (worker 256).updTth fun t => { t with stepPend := true, offFull := 40 }
     s.tth.stepPend = true ∧ s.time % 256 = 0 ∧ s.obs.frozen = false) ∧ (worker 256).tth.stepPend = false := by decide +kernel

/-- A manager whose off-die role is r: 1 SOURCE, 2 FOLLOWER. -/
def twin (r : Nat) (t : Nat) : State :=
  { (master t).updInst fun n => { n with committed := true } with cfg := [(secKey 9 0x400, BitVec.ofNat 8 r)] }

/-- An off-die flit. -/
def xtFlit (kind : Nat) : Flit := mkFlit kind 0 0 0 false 0 0

theorem witness_TwoDiesExchangeTimeAndLevel :
    ((twin 2 16384).inst.manager = true ∧ (twin 2 16384).xtRole = 2 ∧ (twin 2 16384).time % 16384 = 0 ∧
      (twin 2 16384).obs.frozen = false ∧ (twin 2 16384).inst.lockstep = false ∧ (twin 2 16384).inst.inReset = false ∧
      (twin 2 16384).mgr.xtRoleBad = false ∧ (twin 2 16384).mgr.xtVer ≠ some 0 ∧
      ((twin 2 16384).updMgr fun m => { m with xtRoleBad := true }).mgr.xtRoleBad = true) ∧
    ((twin 1 16).xtTakes 0x1C (xtFlit 0x1C) = true ∧ ((twin 1 16).xtHear (xtFlit 0x1C)).xtRole ≠ 2 ∧
      ((twin 1 16).xtHear (xtFlit 0x1C)).mgr.xtRoleBad = false ∧ (twin 2 16).xtTakes 0x1C (xtFlit 0x1C) = true ∧
      ((twin 2 16).xtHear (xtFlit 0x1C)).xtRole = 2 ∧
      (((twin 1 16).updMgr fun m => { m with xtRoleBad := true }).xtHear (xtFlit 0x1C)).mgr.xtRoleBad = true) ∧
    ((twin 1 16).xtTakes 0x1D (xtFlit 0x1D) = true ∧ ((twin 1 16).xtHear (xtFlit 0x1D)).xtRole = 1 ∧
      (twin 2 16).xtTakes 0x1D (xtFlit 0x1D) = true ∧ ((twin 2 16).xtHear (xtFlit 0x1D)).xtRole ≠ 1 ∧
      ((twin 2 16).xtHear (xtFlit 0x1D)).mgr.xtT1 = none ∧
      (((twin 2 16).updMgr fun m => { m with xtT1 := some 5 }).xtHear (xtFlit 0x1D)).mgr.xtT1 = some 5) ∧
    (twin 1 16).xtTakes 0x1E (xtFlit 0x1E) = true ∧ (worker 16).xtTakes 0x1E (xtFlit 0x1E) = false ∧
    ((twin 1 16).xtRole ≠ 0 ∧ (twin 1 16).mgr.xtDown = false ∧
      (twin 1 (16 * 262144)).mgr.xtSince + 16 ≤ roundOf (twin 1 (16 * 262144)).time ∧
      ((twin 1 16).updMgr fun m => { m with xtDown := true }).mgr.xtDown = true) := by decide +kernel

theorem witness_DieDecisionsActAtTheirTime :
    ((worker 16).obs.frozen = false ∧ (worker 16).inst.inReset = false ∧ (worker 16).takes 0x03 .one (flit 0x03 0) = true ∧
      (worker 16).takes 0x04 .one (flit 0x04 0) = true ∧ fbits (flit 0x04 0) 72 71 < 3 ∧ fbits (flit 0x04 (3 * 2 ^ 71)) 72 71 = 3 ∧
      (worker 16).takes 0x04 .one (flit 0x04 (3 * 2 ^ 71)) = true) ∧ (worker 16).time < 17 ∧ 16 ≤ (worker 16).time ∧
    ((worker 16).updObs fun o => { o with frozen := true }).obs.frozen = true ∧ (worker 16).tth.stepPend = false ∧
    (let s := (worker 256).updTth fun t => { t with stepPend := true }
     s.tth.stepPend = true ∧ s.time % 256 = 0) ∧ (worker 16).time % 256 ≠ 0 := by decide +kernel

theorem witness_ReportsAreFiledAndLossesRaised :
    ((master 16).obs.frozen = false ∧ (master 16).inst.manager = true ∧ (master 16).takes 0x0D .one (flit 0x0D 0) = true ∧
      fbits (flit 0x0D 0) 104 103 < 3 ∧ (master 16).takes 0x0E .one (flit 0x0E 0) = true ∧ fbits (flit 0x0E 0) 104 103 < 3 ∧
      (master 16).takes 0x0F .one (flit 0x0F 0) = true ∧ (master 16).takes 0x10 .one (flit 0x10 0) = true) ∧
    ((worker 16).takes 0x0F .one (flit 0x0F 0) = true ∧ ((worker 16).taken .one (flit 0x0F 0)).inst.manager = false ∧
      ((master 16).taken .one (flit 0x0F 0)).inst.manager = true) ∧
    ((worker 16).tth.mgrLost = none ∧ (worker 16).tth.noTime < 16 ∧
      16 ≤ ((worker 16).updTth fun t => { t with noTime := 16 }).tth.noTime) ∧
    (let s (t : Nat) := (worker t).updTth fun x => { x with mgrLost := some 0 }
     (s (16 * 262144)).tth.mgrLost = some 0 ∧ (s (16 * 262144)).time % 262144 = 0 ∧ 0 + 16 ≤ roundOf (s (16 * 262144)).time ∧
       roundOf (s (15 * 262144)).time < 0 + 16 ∧ (s (15 * 262144)).time % 262144 = 0) ∧
    (let s := (master 16).updMgr fun m => { m with roster := [0, 1], reports := tset {} m.reports 1 { missed := 4 } }
     s.mgr.roster.contains 1 = true ∧ 4 ≤ (s.report 1).missed ∧ tget false s.mgr.lostF 1 = false ∧ (s.report 0).missed < 4 ∧
       s.mgr.roster.contains 0 = true) := by decide +kernel

/-! ### Witnesses: freeze, trace and start-up -/

theorem witness_FreezesCutAndResume :
    ((worker 16).obs.frozen = false ∧ (worker 16).takes 0x06 .one (flit 0x06 0) = true ∧
      ((worker 16).taken .one (flit 0x06 0)).inst.manager = false ∧ ((worker 16).taken .one (flit 0x06 0)).obs.tf = none) ∧
    ((master 16).takes 0x06 .one (flit 0x06 0) = true ∧ ((master 16).taken .one (flit 0x06 0)).inst.manager = true) ∧
    ((worker 16).takes 0x07 .one (flit 0x07 0) = true ∧ ((worker 16).taken .one (flit 0x07 0)).obs.frozen = false ∧
      ((worker 16).taken .one (flit 0x07 0)).obs.tf = none) ∧
    (let s := (worker 16).updObs fun o => { o with frozen := true, tt := some 16 }
     s.takes 0x07 .one (flit 0x07 0) = true ∧ (s.taken .one (flit 0x07 0)).inst.manager = false ∧
       (s.taken .one (flit 0x07 0)).obs.frozen = true ∧ s.obs.frozen = true ∧ s.obs.tt = some 16 ∧ 16 ≤ s.time) ∧
    (let s := (worker 16).updObs fun o => { o with tf := some 16, tt := some 17 }
     s.obs.tf = some 16 ∧ s.obs.frozen = false ∧ s.inst.inReset = false ∧ 16 ≤ s.time ∧ s.obs.tt = some 17 ∧ s.time < 17) ∧
    ((worker 16).updObs fun o => { o with tf := some 17 }).obs.tf = some 17 ∧
    ((worker 16).updObs fun o => { o with snapAt := some 16 }).obs.snapAt = some 16 ∧
    (let s := (worker 16).updObs fun o => { o with dumpBusy := true, dumpT := 31 }
     s.obs.dumpBusy = true ∧ s.obs.frozen = false ∧ s.obs.dumpT / 16 ≤ s.time / 16) ∧
    (let s := (worker 16).updObs fun o => { o with dumpBusy := true, dumpT := 32 }
     s.time / 16 < s.obs.dumpT / 16) := by decide +kernel

theorem witness_RecordsAndTraceReachTheManager :
    ((master 16).obs.frozen = false ∧ (master 16).takes 0x1B .one (flit 0x1B (8 * 2 ^ 101)) = true ∧
      ((master 16).taken .one (flit 0x1B (8 * 2 ^ 101))).inst.manager = true ∧
      bits (fbits (flit 0x1B (8 * 2 ^ 101)) 104 16) 88 85 = 8) ∧
    ((master 16).takes 0x1B .one (flit 0x1B 0) = true ∧ bits (fbits (flit 0x1B 0) 104 16) 88 85 ≠ 8 ∧
      ((master 16).taken .one (flit 0x1B 0)).inst.lockstep = false) ∧
    ((worker 16).takes 0x1B .one (flit 0x1B 0) = true ∧ ((worker 16).taken .one (flit 0x1B 0)).inst.manager = false) ∧
    (let s := ((worker 1000).updTth fun t => { t with trained := true, version := 2 }).updLog fun l => { l with buf := [{ rseq := 3 }] }
     s.mayForward = true ∧ s.traceOk = true ∧ s.nextForward = some { rseq := 3 }) ∧ (worker 16).mayForward = false := by decide +kernel

/-- Fuse fields of zeros with their FUSE_CRC, which passes by fusesOf_crcOk (R244). -/
def blankFuses : FuseRead :=
  let x : FuseRead := { vt := List.replicate 512 0, vsafe := List.replicate 32 0, safeMitten := List.replicate 32 0
                        safeCluster := List.replicate 32 0, safeClass := List.replicate 32 0, keyHash := 0, sigReq := false
                        nvmClk := 0, crc := 0, tkVer := List.replicate 32 (1, 2) }
  { x with crc := BitVec.ofNat 32 (crc32 (fusesOf x).bytes) }

theorem witness_StartUpTakesItsSteps_fuses : (fusesOf blankFuses).crcOk = true := fusesOf_crcOk _

theorem witness_StartUpTakesItsSteps :
    (let s := (worker 16).updInst fun n => { n with pll := false }
     s.inst.strapped = true ∧ s.inst.inReset = false ∧ s.inst.pll = false) ∧
    (let s := (worker 16).updInst fun n => { n with fuseDone := false }
     s.inst.pll = true ∧ s.inst.fuseDone = false ∧ s.inst.manager = false ∧
       ∀ c : Nat, c < 32 → tkVerOk (nth (0, 0) blankFuses.tkVer c) = true) ∧
    ((worker 16).inst.fuseDone = true ∧ (worker 16).tth.trained = false ∧ (worker 16).inst.factory = false) ∧
    (let s := (master 16).updInst fun n => { n with nvmEn := true }
     s.inst.manager = true ∧ s.inst.nvmEn = true ∧ s.inst.fuseDone = true ∧ s.inst.verdict = 0) ∧
    ((worker 16).inst.enumDone = true ∧ ((worker 16).updInst fun n => { n with enumDone := false }).inst.enumDone = false) := by
  decide +kernel

theorem witness_TheManagerVerifiesTheImage :
    (let s := (master 250000016).updTth fun t => { t with trained := true }
     s.inst.manager = true ∧ s.inst.fuseDone = true ∧ s.tth.trained = true ∧ s.inst.verdict = 0 ∧ s.inst.factory = false ∧
       s.inst.trainedAt + 250000000 ≤ s.time ∧ s.imageFail.isSome = true) ∧ (worker 16).inst.manager = false ∧
    ((worker 16).updTth fun t => { t with trained := true }).time <
      ((worker 16).updTth fun t => { t with trained := true }).inst.trainedAt + 250000000 := by decide +kernel

/-- A SECT flit of a section, an offset and eight bytes. -/
def sectFlit (sec off data : Nat) : Flit := mkFlit 0x19 2 1 0 true 0 (sec * 2 ^ 101 + off * 2 ^ 80 + data * 2 ^ 16)

theorem witness_WorkersTakeTheImageAndTheVerdict :
    (let s := worker 16
     let u := s.taken .one (sectFlit 12 5 77)
     fbits (sectFlit 12 5 77) 104 101 ≤ 12 ∧ s.obs.frozen = false ∧ s.takes 0x19 .one (sectFlit 12 5 77) = true ∧
       u.inst.manager = false ∧ u.inst.verdict = 0 ∧ u.inst.factory = false ∧ tget 0 u.mgr.held u.inst.fieldId = 0) ∧
    (let s := (worker 16).updMgr fun m => { m with held := tset 0 m.held 0 3 }
     let u := s.taken .one (sectFlit 12 5 77)
     s.takes 0x19 .one (sectFlit 12 5 77) = true ∧ tget 0 u.mgr.held u.inst.fieldId ≠ 0) ∧ fbits (sectFlit 13 0 0) 104 101 = 13 ∧ fbits (sectFlit 14 0 0) 104 101 = 14 ∧
    (let g := sectFlit 15 0 (2 ^ 56)
     let b := sectFlit 15 0 (2 * 2 ^ 56 + 12 * 2 ^ 48)
     let u := (worker 16).taken .one g
     fbits g 104 80 = 0xF * 2 ^ 21 ∧ (worker 16).takes 0x19 .one g = true ∧ fbits g 79 72 = 1 ∧ u.inst.manager = false ∧
       u.inst.factory = false ∧ u.inst.verdict = 0 ∧ tget 0 u.mgr.held u.inst.fieldId = 0 ∧ fbits b 104 80 = 0xF * 2 ^ 21 ∧ (worker 16).takes 0x19 .one b = true ∧
       fbits b 79 72 ≠ 1) ∧
    (let s := (worker 16).updInst fun n => { n with verdict := 1 }
     fbits (sectFlit 15 1 0) 104 80 = 0xF * 2 ^ 21 + 1 ∧ s.takes 0x19 .one (sectFlit 15 1 0) = true ∧ 
       (s.taken .one (sectFlit 15 1 0)).inst.tOn = none ∧ (s.taken .one (sectFlit 15 1 0)).inst.verdict = 1 ∧
       (s.taken .one (sectFlit 15 1 0)).inst.manager = false) ∧
    (let u := (master 16).taken .one (flit 0x0C 0)
     (master 16).takes 0x0C .one (flit 0x0C 0) = true ∧ u.inst.manager = true ∧ u.inst.verdict ≠ 2 ∧
      tget false u.mgr.agreed (fSrc (flit 0x0C 0)) = false ∧ tget 0 u.mgr.held (fSrc (flit 0x0C 0)) = 0) ∧
    (let s (t : Nat) : State := ((master t).updInst fun n => { n with verdict := 1 }).updMgr fun m => { m with roster := [0, 1] }
     (s 16384).inst.manager = true ∧ (s 16384).inst.verdict = 1 ∧ (s 16384).receivers.contains 1 = true ∧
       tget false (s 16384).mgr.agreed 1 = false ∧ (s 16384).sectLeft 1 = false ∧
       ((s 16384).updTth fun t => { t with link1 := { t.link1 with own := [sectFlit 12 5 77] } }).sectLeft 1 = true ∧ tget 0 (s 16384).mgr.lastSect 1 + 16384 ≤ (s 16384).time ∧
       (s 16383).time < tget 0 (s 16383).mgr.lastSect 1 + 16384) := by decide +kernel

/-! ### Witnesses: bring-up and escalation -/

theorem witness_AMissedWindowEndsTheBringUp :
    (let s := (worker 256).updBring 3 fun b => { b with winEnd := some 256, step := .ramp, status := .running }
     (s.dom 3).bring.winEnd = some 256 ∧ 256 ≤ s.time ∧ (s.dom 3).inBring = true) ∧
    (((worker 255).updBring 3 fun b => { b with winEnd := some 256 }).dom 3).bring.winEnd = some 256 ∧ (worker 255).time < 256 ∧
    (let s := (worker 256).updBring 3 fun b => { b with offAt := some 256 }
     (s.dom 3).bring.offAt = some 256 ∧ 256 ≤ s.time ∧ (s.dom 3).bring.offAllAt = none) := by decide +kernel

theorem witness_BringUpsStageTheirBridle :
    (let s (t : Nat) : State := (worker t).updBring 3 fun b => { b with startAt := some 256, step := .waiting }
     ((s 240).dom 3).bring.startAt = some 256 ∧ ((s 240).dom 3).bring.step = .waiting ∧ 256 ≤ (s 240).time + 16 ∧
       (s 239).time + 16 < 256) ∧
    (let s := (worker 256).updBring 3 fun b => { b with step := .bridleWait }
     (s.dom 3).bring.step = .bridleWait ∧ s.time % 256 = 0) ∧
    (let s := (oneDomain 256).updBring 0 fun b => { b with step := .bridle, due := 256 }
     (s.dom 0).bring.step = .bridle ∧ (s.dom 0).bring.nextStage < s.bStages 0 ∧ s.time % 16 = 0 ∧
       ((s.dom 0).bring.winEnd.all fun t => s.time < t) = true ∧ (s.dom 0).bring.due ≤ s.time ∧
       s.time < (s.dom 0).bring.due + s.bHold 0 ∧ s.stageFits 0 (s.dom 0).bring.nextStage = true ∧
       (s.updMitten 0 fun x => { x with imit := 100000 }).stageFits 0 0 = false) ∧
    (let s := (oneDomain 2256).updBring 0 fun b => { b with step := .bridle, due := 256 }
     (s.dom 0).bring.due + s.bHold 0 ≤ s.time) ∧
    (let s := (oneDomain 256000).updBring 0 fun b => { b with step := .gap }
     (s.dom 0).bring.step = .gap ∧ s.time % 256 = 0 ∧ (s.dom 0).bring.gapFrom + s.bGap 0 ≤ frameOf s.time) ∧
    (let s := (worker 256).updInst fun n => { n with tReady := some 256 }
     s.inst.tReady = some 256 ∧ s.inst.ready = false ∧ s.obs.frozen = false ∧ 256 ≤ s.time) ∧
    ((worker 255).updInst fun n => { n with tReady := some 256 }).time < 256 := by decide +kernel

theorem witness_EscalationClimbsAndLockstepLatches :
    (let s := ((worker 256).updFlt fun f => { f with occs := [{}, { cls := 0x02, sev := 2, timer := 1 }] }).updInst fun n => { n with
       unitAt := 256 }
     s.flt.occs[1]? = some { cls := 0x02, sev := 2, timer := 1 } ∧ s.time % 256 = 0 ∧ s.inst.unitAt = s.time ∧ s.obs.frozen = false ∧
       0 < (faultEsc 0x02).2.length ∧ 0 + 1 ≤ frameOf s.time) ∧
    (let s := (worker 256).updFlt fun f => { f with occs := [{ cls := 0x02, ack := true }] }
     s.flt.occs[0]? = some { cls := 0x02, ack := true }) ∧
    (let s := ((worker 25600).updFlt fun f => { f with gap := 16, retries := 3 }).updDom 3 fun x => { x with
       retry := { x.retry with gapFrom := some 0 } }
     (s.dom 3).retry.gapFrom = some 0 ∧ s.inst.lockstep = false ∧ s.obs.frozen = false ∧ 0 + s.flt.gap ≤ frameOf s.time ∧
       (s.dom 3).retry.used < s.flt.retries ∧ s.flt.occs.any (Occ.rungOff 3) = false ∧
       (s.updFlt fun f => { f with occs := [{ cls := cPllHoldover, rung := 4, off := [3] }] }).flt.occs.any (Occ.rungOff 3) = true) ∧
    (worker 16).hostUp = true ∧
    (let s := (worker 256).updInst fun n => { n with gndMask := 2, unitAt := 256 }
     bit s.inst.gndMask 1 = true ∧ s.time % 256 = 0 ∧ s.inst.unitAt = s.time ∧ s.obs.frozen = false ∧ s.flt.gndEnd = none ∧
       (s.flt.occs.any fun o => o.took 3) = false) ∧
    (((worker 256).updFlt fun f => { f with occs := [{ cls := 0x02, rungIdx := 1, rung := 3 }] }).flt.occs.any fun o => o.took 3) = true ∧
    ((worker 16).inst.fuseDone = true ∧ (worker 16).inst.lockstep = false ∧
      ((worker 16).updInst fun n => { n with lockstep := true }).inst.lockstep = true) ∧
    ((worker 16).inst.pll = true ∧ (worker 16).inst.holdover = false ∧
      ((worker 16).updInst fun n => { n with holdover := true }).inst.holdover = true) := by decide +kernel

/-! ### Witnesses: housekeeping, the board and the flash -/

/-- A committed instance whose sequence has two entries, the first a thermistor. -/
def scanning (t : Nat) : State :=
  { (master t).updInst fun n => { n with committed := true } with cfg := [(secKey 10 0, 2#8), (secKey 10 0x44, 3#8)] }

theorem witness_TheHousekeepingAdcScans :
    ((scanning 256).inst.committed = true ∧ (scanning 256).adcEnts ≠ 0 ∧ (scanning 256).inst.lockstep = false ∧
      (scanning 256).inst.inReset = false ∧ (scanning 256).time % (scanning 256).adcPer = 0 ∧
      (scanning 256).hk.scanAt ≠ (scanning 256).time + 1) ∧ (scanning 257).time % (scanning 257).adcPer ≠ 0 ∧
    (let s := ((scanning 100000).updHk fun h => { h with scanAt := 1 }).updAdc 0 fun e => { e with revCnt := 4, thOut := true }
     0 < s.adcEnts ∧ s.adcKind 0 = 3 ∧ 4 ≤ (s.adc 0).revCnt ∧ (s.adc 0).rev = false ∧ s.adcReady 0 = true ∧ (s.adc 0).range = false ∧
       (s.adc 0).thOut = true) ∧
    (let s := (scanning 256).updAdc 1 fun e => { e with outCnt := 4 }
     1 < s.adcEnts ∧ (s.adc 1).range = false ∧ s.adcKind 1 ≠ 3 ∧ 4 ≤ (s.adc 1).outCnt) ∧
    (((scanning 256).updAdc 1 fun e => { e with range := true }).adc 1).range = true := by decide +kernel

/-- A manager with one PMBus device at address 0x20, at a round boundary. -/
def polling (t : Nat) : State :=
  ({ (master t).updInst fun n => { n with committed := true } with cfg := [(secKey 11 0, 1#8), (secKey 11 8, 0x20#8)] }).updPmb fun p =>
    { p with found := true }

theorem witness_TheBoardConvertersArePolled :
    ((polling 262144).pmbOn = true ∧ (polling 262144).obs.frozen = false ∧ (polling 262144).pmb.found = true ∧
      ((polling 262144).updPmb fun p => { p with found := false }).pmb.found = false ∧ (polling 262144).time % 262144 = 0 ∧
      roundOf (polling 262144).time % (polling 262144).pmbPer = 0 ∧ (polling 262144).pmbBusy = false) ∧
    ((polling 262144).updObs fun o => { o with frozen := true }).obs.frozen = true ∧
    (let s := (polling 262144).updPmb fun p => { p with devs := tset {} p.devs 0 { retryAt := some 262144 } }
     s.pmbBusy = true ∧ (s.pdev 0).retryAt = some 262144 ∧ 262144 ≤ s.time ∧ (262143 : Nat) < 262144) ∧
    ((List.range (polling 262144).pmbCount).filter fun i =>
      (polling 262144).pmbAdr i == (0x20#7).toNat && !((polling 262144).pdev i).clash) ≠ [] ∧
    ((List.range (polling 262144).pmbCount).filter fun i =>
      (polling 262144).pmbAdr i == (0x21#7).toNat && !((polling 262144).pdev i).clash) = [] := by decide +kernel

/-- The first 32 bytes of an image header with its HDR_CRC: IMG_LEN 0x300, LOG_BASE 0x40_0000 (R249). -/
def header : List Host.Cell :=
  (([0x46, 0x54, 0x46, 0x4E, 1, 0, 0, 1, 0, 3, 0, 0, 0x21, 8, 0x21, 8, 13, 1, 0, 0, 0, 0, 0x40, 0, 0, 0, 0, 0] : List Nat) ++
    (List.range 4).map fun i => crc32 [0x46, 0x54, 0x46, 0x4E, 1, 0, 0, 1, 0, 3, 0, 0, 0x21, 8, 0x21, 8, 13, 1, 0, 0, 0, 0, 0x40, 0, 0, 0, 0, 0] /
      256 ^ i).zipIdx.map fun e => (e.2, BitVec.ofNat 8 e.1)

/-- A manager with a flash of 64 MiB and that header. -/
def flashed : State :=
  ((master 16).updInst fun n => { n with nvmEn := true }).updLog fun l => { l with
    nvm := header, info := { l.info with found := true, size := 0x4000000 } }

/-- A manager that may write its log. -/
def writing (f : Recorder → Recorder) : State :=
  flashed.updLog fun l => f { l with usable := true, scanned := true, noLog := false, winOpen := true }

theorem witness_TheFlashTakesTheRecords :
    (let s := writing fun l => { l with flushTrig := true, pfTrig := some 0 }
     s.log.flushTrig = true ∧ s.log.flushing = false ∧ s.mayWrite = true ∧ s.obs.frozen = false ∧ s.inst.lockstep = false ∧
       s.log.pfTrig.isSome = true ∧ s.log.pfMode = false ∧ s.log.scanned = true) ∧
    (let s (p : Bool) (t : Nat) : State := (writing fun l => { l with prog := [(0, 0, {})], pfMode := p, progFrom := t })
     (s false 0).log.prog ≠ [] ∧ (s false 0).log.pfMode = false ∧
       (s false 0).log.progFrom + (s false 0).log.info.tPage / 2 ≤ (s false 0).time ∧
       (s false 17).time < (s false 17).log.progFrom + (s false 17).log.info.tPage / 2 ∧ (s true 0).log.pfMode = true) ∧
    (master 16).log.prog = [] ∧
    (let s := writing fun l => { l with erase := some 3 }
     s.log.erase = some 3 ∧ s.log.eraseSusp = false) ∧
    (flashed.inst.manager = true ∧ flashed.log.scanned = false ∧ flashed.log.info.found = true ∧ flashed.headerRc = 0) := by
  decide +kernel

/-! ### Witnesses: the host -/

/-- An instance that is READY and takes commands. -/
def hosted (manager : Bool) (arg : Word) : State :=
  ((upAt manager 16).updInst fun n => { n with ready := true, verdict := 1 }).updHost fun h => { h with arg := arg }

theorem witness_CommandsAreAcceptedOneAtATime :
    ((hosted false 0).hostUp = true ∧ (hosted false 0).host.cmd = none ∧ (hosted false 0).cmdGate 2 false = true ∧
      (hosted false 0).cmdGate 4 true = false ∧ (hosted false 0).inst.ready = true ∧ (hosted false 0).inst.lockstep = false ∧
      (hosted false 0).inst.manager = false ∧ bit (hosted false 0).host.arg.toNat 8 = false) ∧
    ((hosted false 0).updHost fun h => { h with cmd := some {} }).host.cmd.isSome = true ∧ 13 ≤ (255#8).toNat ∧
    ((hosted true 256).inst.manager = true ∧ bit (hosted true 256).host.arg.toNat 8 = true) ∧
    ((hosted false 9).host.arg.toNat % 16 = 9 ∧ (fun k => k == 0 || decide (8 ≤ k)) ((hosted false 9).host.arg.toNat % 16) = true ∧
      (fun k => k == 1) ((hosted false 9).host.arg.toNat % 16) = false) := by decide +kernel

theorem witness_RegisterWritesTakeEffect :
    ((hosted false 0).hostUp = true ∧ (hosted false 0).inst.lockstep = false ∧ (hosted false 0).beforeVerdict = false ∧
      (hosted false 0).obs.frozen = false ∧ (hosted false 0).host.lock = false) ∧
    (vreqBad 0 = false ∧ ulimBad (20 * 2 ^ 16) = false ∧ pgBad (1 + 2 * 2 ^ 7 + 10 * 2 ^ 17) = false ∧ bit 1 0 = true ∧ bits 0x10 7 4 ≠ 0) ∧
    (parIndex 0 = true ∧ parBad 0 4 = false ∧ parIndex 23 = true ∧ parBad 23 800 = false) ∧
    (1024 ≤ 1024 % 2 ^ 24 ∧ 192 ≤ 192 % 8192 ∧ 4096 % 8192 ≤ 4096) ∧
    (let s := (hosted false 0).updEng fun e => { e with need := 640, budW := [640, 128, 128, 112] }
     bit (2 ^ 31 + 8 * 2 ^ 16 + 16) 31 = true ∧ s.host.lock = false ∧ s.budBad (s.budgets (2 ^ 31 + 8 * 2 ^ 16 + 16)) = false) ∧ (hosted false 0).commitBad = false ∧
    ((hosted false 0).updObs fun o => { o with frozen := true }).obs.frozen = true ∧ (hosted false 0).adcFitsIn (bit 0 0) = true ∧
    6 % 8 ≠ 7 ∧ (bit 1 1 = false ∧ 2 ≤ ((hosted false 0).updTth fun t => { t with version := 2 }).tth.version ∧
      ((hosted false 0).updTth fun t => { t with version := 2 }).lineMode = false) ∧ (hosted true 0).inst.manager = true := by
  decide +kernel

theorem witness_HostAccessesAreBarredOrAnswered :
    State.reset.hostUp = false ∧ (hosted false 0).hostUp = true ∧
    ((hosted false 0).updInst fun n => { n with lockstep := true }).inst.lockstep = true ∧ (upAt false 16).beforeVerdict = true ∧
    regMapped (0x2C#20).toNat = false ∧ (regMapped (0x50000#20).toNat = true ∧ (hosted false 0).readNeedsPriv (0x50000#20).toNat = true) ∧
    (0x28#20).toNat / 4 * 4 = 0x28 := by decide +kernel

theorem witness_LockstepRefusesWrites :
    (let s := (hosted false 0).updInst fun n => { n with lockstep := true }
     s.hostUp = true ∧ s.inst.lockstep = true ∧ s.host.cmd = none) ∧ regMapped ((0x8010#20).toNat / 4 * 4) = true ∧
    regMapped ((0x14#20).toNat / 4 * 4) = true ∧ regMapped ((0x18#20).toNat / 4 * 4) = true ∧
    regMapped ((0x1004#20).toNat / 4 * 4) = true ∧ (12 : Nat) ∉ [0, 1, 0xA, 0xB] := by decide +kernel

theorem witness_SixtyFourBitReadsLatchTheHighWord :
    ((hosted false 0).hostUp = true ∧ (hosted false 0).wide ((0x20#20).toNat / 4 * 4) = some 16 ∧
      (0x24#20).toNat / 4 * 4 = (0x20#20).toNat / 4 * 4 + 4 ∧ ((hosted false 0).readNeedsPriv 0x20 && !false) = false ∧
      ((hosted false 0).readNeedsPriv 0x24 && !false) = false) ∧
    tget none ((hosted false 0).updHost fun h => { h with latch := tset none h.latch 0x24 (some 5#32) }).host.latch 0x24 = some 5#32 := by
  decide +kernel

theorem witness_ReadsThatChangeState :
    (hosted false 0).hostUp = true ∧ ((hosted false 0).clearPeak ((0x3210#20).toNat / 4 * 4)).isSome = true ∧
    (hosted false 0).trcAllowed = true ∧ (hosted false 0).obs.frozen = false ∧
    ((hosted false 0).updObs fun o => { o with frozen := true }).obs.frozen = true ∧ (hosted false 0).logRdy = false ∧
    ((hosted false 0).updLog fun l => { l with rdyAt := some 16 }).logRdy = true := by decide +kernel

/-- Five TCK with TMS high from Shift-DR reach Test-Logic-Reset; Capture-IR follows four states on (IEEE 1149.1's diagram). -/
theorem test_tap_states :
    ((((TapState.shiftDr.next true).next true).next true).next true).next true = .testLogicReset ∧
    (((TapState.testLogicReset.next false).next true).next true).next false = .captureIr := by decide

end Sys2Proof.Tests
end

/-! ### What the commands keep

The laws under Sys2Proof/Laws speak of one meaning each. Here they are put together over the dispatch: a command outside
`Instr.writes` keeps the whole kept part of the state, and one inside it keeps the invariant and the queue. -/

namespace Sys2Proof.Machine

/-- With bit 0 clear a write of TBL_COMMIT has no effect of its own, and with it set it only asks for the commit of the page. -/
theorem execTblCommit_kept (w : Word) (priv : Bool) (s : State) : Leads (execTblCommit w priv s) fun t => t.kept = s.kept := by
  unfold execTblCommit
  split
  · exact leads_hostPut _ _ _ _ _ _ _ _ _ rfl rfl
  · exact leads_hostPut _ _ _ _ _ _ _ _ _ (State.updEng_kept _ _ ⟨rfl, rfl, rfl, rfl⟩) (by simp)

/-- A command outside `Instr.writes` leaves the kept part as it is: the law of its own meaning says so. -/
theorem exec_kept_of_not_writes (s : State) : ∀ c : Instr, c.writes = false → Leads (exec c s) fun t => t.kept = s.kept
  | .switchingPeriod t x, _ => execSwitchingPeriod_kept t x s
  | .tileSampleBoundary t, _ => execTileSampleBoundary_kept t s
  | .droopAssert m, _ => execDroopAssert_kept m s
  | .droopHoldExpiry t, _ => execDroopHoldExpiry_kept t s
  | .ilimPk t k, _ => execIlimPk_kept t k s
  | .ilimNeg t k, _ => execIlimNeg_kept t k s
  | .ilimHold t k, _ => execIlimHold_kept t k s
  | .mcrbN m, _ => execMcrbN_kept m s
  | .mfltN m, _ => execMfltN_kept m s
  | .vsnsOpen t, _ => execVsnsOpen_kept t s
  | .vsnsOpenExit t, _ => execVsnsOpenExit_kept t s
  | .openPhase t k, _ => execOpenPhase_kept t k s
  | .prechargeDone t x, _ => execPrechargeDone_kept t x s
  | .capDone t, _ => execCapDone_kept t s
  | .rampEnd t, _ => execRampEnd_kept t s
  | .spineLoss t, _ => execSpineLoss_kept t s
  | .tileNop c, _ => execTileNop_kept c s
  | .start c, _ => execStart_kept c s
  | .ssTarget t w, _ => execSsTarget_kept t w s
  | .ssGo t w, _ => execSsGo_kept t w s
  | .stop c, _ => execStop_kept c s
  | .shed t w, _ => execShed_kept t w s
  | .unshed t w, _ => execUnshed_kept t w s
  | .retirePhase t w, _ => execRetirePhase_kept t w s
  | .retireTile c, _ => execRetireTile_kept c s
  | .crowbar c, _ => execCrowbar_kept c s
  | .clear c, _ => execClear_kept c s
  | .setOfs t w, _ => execSetOfs_kept t w s
  | .setShare t w, _ => execSetShare_kept t w s
  | .capTest t w, _ => execCapTest_kept t w s
  | .sync t w chk, _ => execSync_kept t w chk s
  | .mref t w chk, _ => execMref_kept t w chk s
  | .msum t w chk, _ => execMsum_kept t w chk s
  | .cfg t w chk, _ => execCfg_kept t w chk s
  | .trep q w chk, _ => execTrep_kept q w chk s
  | .event q w chk, _ => execEvent_kept q w chk s
  | .pendingEventExpiry t, _ => execPendingEventExpiry_kept t s
  | .tileLost t, _ => execTileLost_kept t s
  | .senseTrust p, _ => execSenseTrust_kept p s
  | .trustRegain p, _ => execTrustRegain_kept p s
  | .domSat d, _ => execDomSat_kept d s
  | .domSatPersist d, _ => execDomSatPersist_kept d s
  | .ballastMismatch d, _ => execBallastMismatch_kept d s
  | .redistSlow m, _ => execRedistSlow_kept m s
  | .shareOsc t, _ => execShareOsc_kept t s
  | .domainShed d, _ => execDomainShed_kept d s
  | .ladderNotchDown k, _ => execLadderNotchDown_kept k s
  | .ladderNotchUp k, _ => execLadderNotchUp_kept k s
  | .managerAllocation, _ => execManagerAllocation_kept s
  | .capFloorEnd, _ => execCapFloorEnd_kept s
  | .attrResidual, _ => execAttrResidual_kept s
  | .tempConversion j code, _ => execTempConversion_kept j code s
  | .thermCrit j code, _ => execThermCrit_kept j code s
  | .clStretch c, _ => execClStretch_kept c s
  | .forecasterPeriod, _ => execForecasterPeriod_kept s
  | .windowPreempt a l, _ => execWindowPreempt_kept a l s
  | .engArrayRetired a, _ => execEngArrayRetired_kept a s
  | .pageReq f, _ => execPageReq_kept f s
  | .ticketRequest c w whole, _ => execTicketRequest_kept c w whole s
  | .doneReport c w whole, _ => execDoneReport_kept c w whole s
  | .countReport c w whole, _ => execCountReport_kept c w whole s
  | .grantPass, _ => execGrantPass_kept s
  | .ticketResponse c, _ => execTicketResponse_kept c s
  | .ticketArm j, _ => execTicketArm_kept j s
  | .ticketLaunch j, _ => execTicketLaunch_kept j s
  | .ticketRun j, _ => execTicketRun_kept j s
  | .ticketExpiry j, _ => execTicketExpiry_kept j s
  | .sgFwd f, _ => execSgFwd_kept f s
  | .sgSet f, _ => execSgSet_kept f s
  | .sgProp f, _ => execSgProp_kept f s
  | .sgVote f, _ => execSgVote_kept f s
  | .sgCommit f, _ => execSgCommit_kept f s
  | .sgCancel f, _ => execSgCancel_kept f s
  | .sgDrop f, _ => execSgDrop_kept f s
  | .sgWd f, _ => execSgWd_kept f s
  | .sgVoteTimeout g, _ => execSgVoteTimeout_kept g s
  | .sgFail g, _ => execSgFail_kept g s
  | .train f p, _ => execTrain_kept f p s
  | .echo back, _ => execEcho_kept back s
  | .timeValidSet, _ => execTimeValidSet_kept s
  | .ddMode f, _ => execDdMode_kept f s
  | .ddAlloc f, _ => execDdAlloc_kept f s
  | .dieDecisionApply, _ => execDieDecisionApply_kept s
  | .coolLoss f, _ => execCoolLoss_kept f s
  | .freezeFlit f, _ => execFreezeFlit_kept f s
  | .thawFlit f, _ => execThawFlit_kept f s
  | .ringUp f, _ => execRingUp_kept f s
  | .linkDown f, _ => execLinkDown_kept f s
  | .tthLinkDown r crc, _ => execTthLinkDown_kept r crc s
  | .flitResend q, _ => execFlitResend_kept q s
  | .hash f, _ => execHash_kept f s
  | .hashTimeout fld, _ => execHashTimeout_kept fld s
  | .rptClass f, _ => execRptClass_kept f s
  | .rptDemand f, _ => execRptDemand_kept f s
  | .rptField f, _ => execRptField_kept f s
  | .jobNrg f, _ => execJobNrg_kept f s
  | .trace f, _ => execTrace_kept f s
  | .recAssemblyTimeout fld, _ => execRecAssemblyTimeout_kept fld s
  | .run f, _ => execRun_kept f s
  | .xtExchange, _ => execXtExchange_kept s
  | .xtReq f frac, _ => execXtReq_kept f frac s
  | .xtThr f, _ => execXtThr_kept f s
  | .xtLinkDown clock, _ => execXtLinkDown_kept clock s
  | .tthMgrLost, _ => execTthMgrLost_kept s
  | .mgrLostGrounded, _ => execMgrLostGrounded_kept s
  | .tthWorkerLost fld, _ => execTthWorkerLost_kept fld s
  | .pllLock, _ => execPllLock_kept s
  | .nvmDiscovery x, _ => execNvmDiscovery_kept x s
  | .logScan, _ => execLogScan_kept s
  | .bringUpStart d, _ => execBringUpStart_kept d s
  | .bringWindow d, _ => execBringWindow_kept d s
  | .bridleStart d, _ => execBridleStart_kept d s
  | .bridleStage d, _ => execBridleStage_kept d s
  | .bridleHold d, _ => execBridleHold_kept d s
  | .bridleRetry d, _ => execBridleRetry_kept d s
  | .ready, _ => execReady_kept s
  | .offSequenceStart d, _ => execOffSequenceStart_kept d s
  | .pwrfailNReturn, _ => execPwrfailNReturn_kept s
  | .escRung j, _ => execEscRung_kept j s
  | .groundedExit, _ => execGroundedExit_kept s
  | .retryGap d, _ => execRetryGap_kept d s
  | .pllHoldover, _ => execPllHoldover_kept s
  | .pllRelock, _ => execPllRelock_kept s
  | .vinRange, _ => execVinRange_kept s
  | .adcScan uv, _ => execAdcScan_kept uv s
  | .hkThermRev j, _ => execHkThermRev_kept j s
  | .hkRange j, _ => execHkRange_kept j s
  | .tlmPublish, _ => execTlmPublish_kept s
  | .pmbDiscovery x, _ => execPmbDiscovery_kept x s
  | .pmbPoll x, _ => execPmbPoll_kept x s
  | .pmbRetry n x, _ => execPmbRetry_kept n x s
  | .pmbAlertN x, _ => execPmbAlertN_kept x s
  | .logForward, _ => execLogForward_kept s
  | .logFlushStart, _ => execLogFlushStart_kept s
  | .pfFlush, _ => execPfFlush_kept s
  | .freezeCut, _ => execFreezeCut_kept s
  | .nop priv, _ => execNop_kept priv s
  | .domainOn priv, _ => execDomainOn_kept priv s
  | .domainOff priv, _ => execDomainOff_kept priv s
  | .domainOffAll priv, _ => execDomainOffAll_kept priv s
  | .setMode priv, _ => execSetMode_kept priv s
  | .autotune priv, _ => execAutotune_kept priv s
  | .tuneEnd, _ => execTuneEnd_kept s
  | .freeze priv, _ => execFreeze_kept priv s
  | .thaw priv, _ => execThaw_kept priv s
  | .dump priv, _ => execDump_kept priv s
  | .flushLog priv, _ => execFlushLog_kept priv s
  | .clearFault coolHigh priv, _ => execClearFault_kept coolHigh priv s
  | .setCap priv, _ => execSetCap_kept priv s
  | .cmdReservedCode code priv, _ => execCmdReservedCode_kept code priv s
  | .fltAck w priv, _ => execFltAck_kept w priv s
  | .domVreq d w priv, _ => execDomVreq_kept d w priv s
  | .domUcal d w priv, _ => execDomUcal_kept d w priv s
  | .domLawB d w priv, _ => execDomLawB_kept d w priv s
  | .domPg d w priv, _ => execDomPg_kept d w priv s
  | .tileCtlRetire t w priv, _ => execTileCtlRetire_kept t w priv s
  | .tileCtlRphase t w priv, _ => execTileCtlRphase_kept t w priv s
  | .tilePar k w priv, _ => execTilePar_kept k w priv s
  | .tktQmax w priv, _ => execTktQmax_kept w priv s
  | .tktSgLead w priv, _ => execTktSgLead_kept w priv s
  | .tktSgMask g j w priv, _ => execTktSgMask_kept g j w priv s
  | .hkCtl w priv, _ => execHkCtl_kept w priv s
  | .tlmCtl w priv, _ => execTlmCtl_kept w priv s
  | .engBudCommit w priv, _ => execEngBudCommit_kept w priv s
  | .ctlLock w priv, _ => execCtlLock_kept w priv s
  | .obsCntClr w priv, _ => execObsCntClr_kept w priv s
  | .obsTrcCtl w priv, _ => execObsTrcCtl_kept w priv s
  | .obsTrcMark w priv, _ => execObsTrcMark_kept w priv s
  | .obsTrcWin, _ => execObsTrcWin_kept s
  | .obsScanData, _ => execObsScanData_kept s
  | .logCur ctl w priv, _ => execLogCur_kept ctl w priv s
  | .logWin priv, _ => execLogWin_kept priv s
  | .tblCommit w priv, _ => execTblCommit_kept w priv s
  | .nrgJobRel w priv, _ => execNrgJobRel_kept w priv s
  | .lowWordRead addr priv, _ => execLowWordRead_kept addr priv s
  | .tlmPeakRead addr, _ => execTlmPeakRead_kept addr s
  | .logLostcnt, _ => execLogLostcnt_kept s
  | .tthErr, _ => execTthErr_kept s
  | .tthUndel, _ => execTthUndel_kept s
  | .tthLate, _ => execTthLate_kept s
  | .tktPerr c, _ => execTktPerr_kept c s
  | .hkPmbLate, _ => execHkPmbLate_kept s
  | .spineEnumeration x, _ => execSpineEnumeration_kept x s
  | .flitCrcFail r, _ => execFlitCrcFail_kept r s
  | .flitReturn f r, _ => execFlitReturn_kept f r s
  | .clMargin c gray, _ => execClMargin_kept c gray s
  | .hostPriv addr priv, _ => execHostPriv_kept addr priv s

/-- Settles O7: each command outside `Instr.writes` keeps the kept part, by the law of its own meaning. -/
theorem quietCommandsKeepMemories : Obligations.QuietCommandsKeepMemories :=
  fun c s t hc ht => exec_kept_of_not_writes s c hc t ht

/-! ### The invariant and the queue -/

/-- Whatever next state a command leads to satisfies the invariant and has the queue of the state before. -/
def KeepsInv (s : State) (o : Out) : Prop := Leads o fun t => t.Inv ∧ t.pending = s.pending

/-- A sound state is good with the straps and the queue that it has. -/
theorem State.Inv.good {s : State} (h : s.Inv) : s.Good s.kept.held := ⟨h, rfl⟩

theorem LeadsGood.keepsInv {s : State} {o : Out} (h : LeadsGood s.kept.held o) : KeepsInv s o := fun t ht => by
  obtain ⟨hinv, hheld⟩ := h t ht
  exact ⟨hinv, congrArg Held.pending hheld⟩

theorem keepsInv_of_kept {s : State} {o : Out} (hs : s.Inv) (h : Leads o fun t => t.kept = s.kept) : KeepsInv s o :=
  (leadsGood_of_kept hs.good h).keepsInv

/-- The assertion of RST_N keeps only the flash of the memories, cut where a flash command was under way (R243). -/
theorem execRstNAssert_keepsInv {s : State} (h : s.Inv) : KeepsInv s (execRstNAssert s) := by
  refine leads_ite ((leads_next _ _).2 ⟨h, rfl⟩) ((leads_next _ _).2 ⟨⟨?_, ?_, ?_⟩, rfl⟩)
  · exact ⟨rfl, rfl, rfl, rfl, rfl, rfl, State.cutFlash_wf h.good, rfl, rfl⟩
  · exact Nat.two_pow_pos 64
  · exact Nat.zero_lt_succ 7

/-- The release of RST_N takes FIELD_ID from its three pins (R207); the raising of BIST failures touches no kept field. -/
theorem execRstNRelease_keepsInv {s : State} (h : s.Inv) (x : Straps) : KeepsInv s (execRstNRelease x s) := by
  unfold execRstNRelease
  refine leads_ite ((leads_next _ _).2 ⟨h, rfl⟩) ?_
  lift_lets
  intro strapped
  obtain ⟨hmems, htime, _⟩ := h
  have hstrapped : strapped.Inv ∧ strapped.pending = s.pending := ⟨⟨hmems, htime, x.fieldId.isLt⟩, rfl⟩
  clear_value strapped
  intro t₁ t₂
  have hkept : (if x.bistFail.toNat = 15 then t₂.groundBy 3 else t₂).kept = strapped.kept := by simp [t₂, t₁]
  refine (leads_next _ _).2 ⟨State.Inv.of_kept hkept hstrapped.1, ?_⟩
  exact (congrArg Kept.pending hkept).trans hstrapped.2

/-- A command outside `Instr.writes` keeps the invariant with the kept part; the others keep it by the law of their own meaning. -/
theorem exec_keepsInv {s : State} (h : s.Inv) (c : Instr) : KeepsInv s (exec c s) := by
  cases c with
  | domainSample x => exact (execDomainSample_good h.good x).keepsInv
  | frame => exact (execFrame_good h.good).keepsInv
  | housekeepingRound => exact (execHousekeepingRound_good h.good).keepsInv
  | thermTrip j code => exact (execThermTrip_good h.good j code).keepsInv
  | coolOkDeassert => exact (execCoolOkDeassert_good h.good).keepsInv
  | pageRecheck pg ok => exact (execPageRecheck_good h.good pg ok).keepsInv
  | pageData f ok => exact (execPageData_good h.good f ok).keepsInv
  | time f r frac => exact (execTime_good h.good f r frac).keepsInv
  | tthTimeStep => exact (execTthTimeStep_good h.good).keepsInv
  | coolStop f => exact (execCoolStop_good h.good f).keepsInv
  | sect f => exact (execSect_good h.good f).keepsInv
  | verdict f => exact (execVerdict_good h.good f).keepsInv
  | xtRsp f frac => exact (execXtRsp_good h.good f frac).keepsInv
  | rstNAssert => exact execRstNAssert_keepsInv h
  | rstNRelease x => exact execRstNRelease_keepsInv h x
  | fuseRead x => exact (execFuseRead_good h.good x).keepsInv
  | ringTraining ring1 ring2 => exact (execRingTraining_good h.good ring1 ring2).keepsInv
  | imageVerify => exact (execImageVerify_good h.good).keepsInv
  | noVerdict => exact (execNoVerdict_good h.good).keepsInv
  | pwrfailN => exact (execPwrfailN_good h.good).keepsInv
  | lockstep => exact (execLockstep_good h.good).keepsInv
  | pageProgramDone ok => exact (execPageProgramDone_good h.good ok).keepsInv
  | sectorEraseDone ok => exact (execSectorEraseDone_good h.good ok).keepsInv
  | thawResume => exact (execThawResume_good h.good).keepsInv
  | snapshotLatch => exact (execSnapshotLatch_good h.good).keepsInv
  | dumpCopy => exact (execDumpCopy_good h.good).keepsInv
  | abortBusyCommand _ | abortDomainRamp _ | abortBridle _ | abortAutotune _ | abortLogFlush _ | abortDump _ | abortTrace _
  | abortSnapshot _ =>
    unfold exec
    exact (runAbort_good h.good _ _).keepsInv
  | snapshot priv => exact (execSnapshot_good h.good priv).keepsInv
  | tblPage w => exact (execTblPage_good h.good w).keepsInv
  | registerWrite addr w priv => exact (execRegisterWrite_good h.good addr w priv).keepsInv
  | tck tms tdi => exact (execTck_good h.good tms tdi).keepsInv
  | trstN => exact (execTrstN_good h.good).keepsInv
  | flashBusyTimeout => exact (execFlashBusyTimeout_good h.good).keepsInv
  | _ => exact keepsInv_of_kept h (exec_kept_of_not_writes s _ rfl)

/-- A step keeps the invariant: the queue it pops is no part of it, and an idle tick counts TETHER_TIME in its 64 bits. -/
theorem step_inv {s : State} (h : s.Inv) : Leads (step s) State.Inv := by
  unfold step
  split
  · exact fun t ht => (idleTick_good h.good t ht).1
  · next c rest _ =>
    have hpop : ({ s with pending := rest } : State).Inv := h
    exact fun t ht => (exec_keepsInv hpop c t ht).1

/-- Settles O4: at reset no byte memory lists anything, and TETHER_TIME and FIELD_ID are 0. -/
theorem invHoldsAtReset : Obligations.InvHoldsAtReset :=
  ⟨⟨rfl, rfl, rfl, rfl, rfl, rfl, rfl, rfl, rfl⟩, Nat.two_pow_pos 64, Nat.zero_lt_succ 7⟩

/-- Settles O5: the invariant is kept by every command (`exec_keepsInv`) and by the idle tick. -/
theorem everyStepKeepsInv : Obligations.EveryStepKeepsInv :=
  fun _ t h ht => step_inv h t ht

/-- Settles O6: every command keeps the queue along with the invariant. -/
theorem noCommandTouchesTheQueue : Obligations.NoCommandTouchesTheQueue :=
  fun c _ t h ht => (exec_keepsInv h c t ht).2

/-! ### No command ends a run

Each meaning is a tree of conditions with a next state at every leaf. The lemmas below say so once for each shared shape, and
`exec_continues` sorts the commands by the shape of their meaning. -/

/-- An outcome that does not end the run. -/
def Continues (o : Out) : Prop := ∃ t, o = .next t

theorem Continues.ite {c : Prop} [Decidable c] {a b : Out} (ha : Continues a) (hb : Continues b) :
    Continues (if c then a else b) := by
  split
  · exact ha
  · exact hb

/-- A condition under which the command stops at a next state, with the rest of its meaning behind it. -/
theorem Continues.guard {c : Prop} [Decidable c] {t : State} {o : Out} (h : Continues o) :
    Continues (if c then .next t else o) := .ite ⟨t, rfl⟩ h

/-- A received flit is captured, acted on or only passed on (R214, R353). -/
theorem recv_continues (s : State) (kind : Nat) (r : Ring) (f : Flit) (c : Instr) (act : State → State) :
    Continues (s.recv kind r f c act) := .guard (.guard ⟨_, rfl⟩)

/-- A command code is barred, answered PRIV, ignored, started or refused (R398, R399). -/
theorem runCmd_continues (s : State) (code : Nat) (needPriv mgrOnly priv cool : Bool) (body : State → State) :
    Continues (s.runCmd code needPriv mgrOnly priv cool body) :=
  .guard <| .guard <| .guard <| .guard ⟨_, rfl⟩

/-- A register write is barred, answered PRIV, refused, held by a freeze or taken (R391, R397). -/
theorem hostPut_continues (s : State) (a w : Nat) (priv early frz bad : Bool) (note put : State → State) :
    Continues (s.hostPut a w priv early frz bad note put) :=
  .guard <| .guard <| .guard <| .guard <| .guard <| .guard ⟨_, rfl⟩

theorem execDomainOn_continues (priv : Bool) (s : State) : Continues (execDomainOn priv s) := by
  obtain ⟨t, ht⟩ := runCmd_continues s 2 true false priv false State.bodyOn
  simp only [execDomainOn, ht]
  exact .guard ⟨_, rfl⟩

/-- Every value written to `CMD` reaches the command it names, and a value that names none a reserved code (R398). -/
theorem writeCmd_continues (s : State) (w : Nat) (priv : Bool) : Continues (s.writeCmd w priv) := by
  unfold State.writeCmd
  split
  case h_1 => exact runCmd_continues ..
  case h_2 => exact .guard (runCmd_continues ..)
  case h_3 => exact execDomainOn_continues ..
  case h_4 => exact .ite (.ite (runCmd_continues ..) ⟨_, rfl⟩) (.guard (runCmd_continues ..))
  case h_14 => exact .guard (runCmd_continues ..)
  all_goals exact runCmd_continues ..

theorem execLogCur_continues (ctl : Bool) (w : Word) (priv : Bool) (s : State) : Continues (execLogCur ctl w priv s) :=
  .guard <| .guard <| .ite (.guard ⟨_, rfl⟩) ⟨_, rfl⟩

theorem execLogWin_continues (priv : Bool) (s : State) : Continues (execLogWin priv s) :=
  .guard <| .guard <| .guard ⟨_, rfl⟩

theorem execObsCntClr_continues (w : Word) (priv : Bool) (s : State) : Continues (execObsCntClr w priv s) :=
  .guard <| .guard <| .guard ⟨_, rfl⟩

theorem execObsTrcCtl_continues (w : Word) (priv : Bool) (s : State) : Continues (execObsTrcCtl w priv s) :=
  .guard <| .guard <| .guard ⟨_, rfl⟩

theorem execObsTrcMark_continues (w : Word) (priv : Bool) (s : State) : Continues (execObsTrcMark w priv s) :=
  .guard <| .guard <| .guard ⟨_, rfl⟩

/-- The links of the chain stand in the order in which the meaning tries the addresses; most of them are writes of
`State.hostPut`. -/
theorem execRegisterWrite_continues (addr : BitVec 20) (w : Word) (priv : Bool) (s : State) :
    Continues (execRegisterWrite addr w priv s) := by
  have put := hostPut_continues s
  unfold execRegisterWrite
  refine .guard <| .guard <| .ite (writeCmd_continues ..) <| .guard <| .guard <| .ite (put ..) <|
    .ite (.guard <| .guard ⟨_, rfl⟩) <| .ite (execLogCur_continues ..) <| .ite (execLogCur_continues ..) <|
    .ite (put ..) <| .ite (put ..) <| .ite (put ..) <| .ite (.guard (put ..)) <| .ite (put ..) <| .ite (put ..) <|
    .ite (put ..) <| .ite (.guard <| .guard (put ..)) <| .ite (put ..) <| .ite (put ..) <| .ite (put ..) <|
    .ite (put ..) <| .ite (put ..) <| .ite (execObsCntClr_continues ..) <| .ite (execObsTrcCtl_continues ..) <|
    .ite (execObsTrcMark_continues ..) <| .ite (put ..) <| .ite (.ite (put ..) (put ..)) (put ..)

/-- A read is barred, answered DECERR or PRIV, or answered by the register: those that change state by being read come first. -/
theorem execHostPriv_continues (addr : BitVec 20) (priv : Bool) (s : State) : Continues (execHostPriv addr priv s) := by
  unfold execHostPriv
  refine .guard <| .guard <| .guard <| .ite (.guard ⟨_, rfl⟩) <| .ite (execLogWin_continues ..) <|
    .ite (.guard ⟨_, rfl⟩) <| .ite (.guard ⟨_, rfl⟩) <| .ite (.guard ⟨_, rfl⟩) <| .ite (.guard ⟨_, rfl⟩) <|
    .ite (.guard ⟨_, rfl⟩) <| .ite (.guard ⟨_, rfl⟩) <| .ite (.guard <| .guard ⟨_, rfl⟩) <| .guard ?_
  split <;> exact ⟨_, rfl⟩

/-- The commands, sorted by the shape of their meaning: first those that are one next state, then those with one, two and three
conditions ahead of it, then flits, host commands, ABORT functions and register writes, then the rows with a shape of their
own, and last the rows that first look something up (an occurrence, a pending report, a neighbour), each of whose findings leads
to a next state. -/
theorem exec_continues (s : State) : ∀ c : Instr, Continues (exec c s)
  | .droopAssert .. | .droopHoldExpiry .. | .ilimPk .. | .ilimNeg .. | .mcrbN .. | .mfltN .. | .vsnsOpen ..
    | .vsnsOpenExit .. | .openPhase .. | .prechargeDone .. | .capDone .. | .rampEnd .. | .spineLoss .. | .tileNop ..
    | .start .. | .ssTarget .. | .ssGo .. | .stop .. | .shed .. | .unshed .. | .retirePhase .. | .retireTile ..
    | .crowbar .. | .clear .. | .setOfs .. | .setShare .. | .capTest .. | .sync .. | .mref .. | .msum .. | .cfg ..
    | .pendingEventExpiry .. | .clMargin .. | .tck .. | .trstN => ⟨_, rfl⟩
  | .tileSampleBoundary .. | .trep .. | .event .. | .tileLost .. | .domainSample .. | .domSat .. | .domSatPersist ..
    | .shareOsc .. | .ladderNotchUp .. | .managerAllocation | .capFloorEnd | .attrResidual | .tempConversion ..
    | .thermTrip .. | .coolOkDeassert | .forecasterPeriod | .engArrayRetired .. | .ticketLaunch .. | .ticketRun ..
    | .ticketExpiry .. | .timeValidSet | .tthTimeStep | .dieDecisionApply | .tthLinkDown .. | .hashTimeout ..
    | .recAssemblyTimeout .. | .xtExchange | .xtThr .. | .xtLinkDown .. | .tthMgrLost | .tthWorkerLost ..
    | .rstNAssert | .rstNRelease .. | .pllLock | .fuseRead .. | .nvmDiscovery .. | .noVerdict | .bridleStart ..
    | .bridleStage .. | .bridleRetry .. | .ready | .pwrfailN | .pwrfailNReturn | .groundedExit | .lockstep
    | .pllHoldover | .pllRelock | .vinRange | .adcScan .. | .hkThermRev .. | .hkRange .. | .tlmPublish
    | .pmbDiscovery .. | .logFlushStart | .pfFlush | .freezeCut | .snapshotLatch | .dumpCopy | .obsTrcWin
    | .logLostcnt | .tthErr | .tthUndel | .tthLate | .tktPerr .. | .hkPmbLate | .spineEnumeration .. | .flitCrcFail ..
    | .flitReturn .. | .flashBusyTimeout => .guard ⟨_, rfl⟩
  | .switchingPeriod .. | .ilimHold .. | .clStretch .. | .grantPass | .ringTraining .. | .imageVerify | .pmbAlertN ..
    | .fltAck .. | .obsScanData => .guard (.guard ⟨_, rfl⟩)
  | .frame | .domainShed .. | .housekeepingRound | .ticketRequest .. | .doneReport .. | .countReport .. | .xtReq ..
    | .pageProgramDone .. => .guard (.guard (.guard ⟨_, rfl⟩))
  | .pageReq .. | .pageData .. | .sgFwd .. | .sgSet .. | .sgProp .. | .sgVote .. | .sgCommit .. | .sgCancel ..
    | .sgDrop .. | .sgWd .. | .ddMode .. | .ddAlloc .. | .coolStop .. | .coolLoss .. | .freezeFlit .. | .thawFlit ..
    | .ringUp .. | .linkDown .. | .hash .. | .rptClass .. | .rptDemand .. | .rptField .. | .jobNrg .. | .trace .. =>
      by unfold exec; exact recv_continues ..
  | .sect .. | .verdict .. | .run .. => .guard (recv_continues ..)
  | .nop .. | .setMode .. | .autotune .. | .freeze .. | .thaw .. | .dump .. | .snapshot .. | .flushLog ..
    | .clearFault .. | .setCap .. => runCmd_continues ..
  | .abortBusyCommand .. | .abortDomainRamp .. | .abortBridle .. | .abortAutotune .. | .abortLogFlush ..
    | .abortDump .. | .abortTrace .. | .abortSnapshot .. | .domainOff .. | .cmdReservedCode .. =>
      .guard (runCmd_continues ..)
  | .domainOffAll .. => .ite (runCmd_continues ..) ⟨_, rfl⟩
  | .domainOn .. => execDomainOn_continues ..
  | .domVreq .. | .domUcal .. | .domLawB .. | .domPg .. | .tktQmax .. | .tktSgLead .. | .tktSgMask .. | .hkCtl ..
    | .tlmCtl .. | .ctlLock .. | .tblPage .. | .nrgJobRel .. => by unfold exec; exact hostPut_continues ..
  | .engBudCommit .. => .guard (hostPut_continues ..)
  | .tilePar .. => .guard (.guard (hostPut_continues ..))
  | .tblCommit .. => .ite (hostPut_continues ..) (hostPut_continues ..)
  | .tileCtlRetire .. | .tileCtlRphase .. => .ite (hostPut_continues ..) ⟨_, rfl⟩
  | .registerWrite .. => execRegisterWrite_continues ..
  | .hostPriv .. => execHostPriv_continues ..
  | .logCur .. => execLogCur_continues ..
  | .logWin .. => execLogWin_continues ..
  | .obsCntClr .. => execObsCntClr_continues ..
  | .obsTrcCtl .. => execObsTrcCtl_continues ..
  | .obsTrcMark .. => execObsTrcMark_continues ..
  | .redistSlow .. | .bridleHold .. | .offSequenceStart .. => .ite (.guard ⟨_, rfl⟩) ⟨_, rfl⟩
  | .senseTrust .. | .trustRegain .. | .ballastMismatch .. | .ladderNotchDown .. | .thermCrit .. | .windowPreempt ..
    | .pageRecheck .. | .ticketResponse .. | .ticketArm .. | .sgVoteTimeout .. | .sgFail .. | .train .. | .echo ..
    | .time .. | .flitResend .. | .xtRsp .. | .mgrLostGrounded | .logScan | .bringUpStart .. | .bringWindow ..
    | .escRung .. | .retryGap .. | .pmbPoll .. | .pmbRetry .. | .logForward | .sectorEraseDone .. | .thawResume
    | .tuneEnd | .lowWordRead .. | .tlmPeakRead .. => by
    dsimp only [exec, execSenseTrust, execTrustRegain, execBallastMismatch, execLadderNotchDown, execThermCrit,
      execWindowPreempt, execPageRecheck, execTicketResponse, execTicketArm, execSgVoteTimeout, execSgFail, execTrain,
      execEcho, execTime, execFlitResend, execXtRsp, execMgrLostGrounded, execLogScan, execBringUpStart,
      execBringWindow, execEscRung, execRetryGap, execPmbPoll, execPmbRetry, execLogForward, execSectorEraseDone,
      execThawResume, execTuneEnd, execLowWordRead, execTlmPeakRead]
    repeat' split
    all_goals exact ⟨_, rfl⟩

theorem step_continues (s : State) : Continues (step s) := by
  unfold step
  split
  · exact .ite ⟨_, rfl⟩ ⟨_, rfl⟩
  · exact exec_continues _ _

/-- Settles O9: every leaf of every meaning is a next state (`exec_continues`), and so is an idle tick. -/
theorem everyCommandAnswersANextState : Obligations.EveryCommandAnswersANextState :=
  ⟨fun c s => exec_continues s c, step_continues⟩

/-! ### The step -/

/-- Settles O1: `step` matches on the queue. -/
theorem stepRunsFrontCommand : Obligations.StepRunsFrontCommand := fun _ _ _ => rfl

theorem step_of_pending_nil {s : State} (h : s.pending = []) : step s = idleTick s := by
  unfold step
  rw [h]

/-- A tick counts TETHER_TIME (R3); nothing else it does touches the kept part. -/
theorem State.tick_kept (s : State) : s.tick.kept = { s.kept with time := (s.time + 1) % 2 ^ 64 } := by
  unfold State.tick
  lift_lets
  intro t₀ t₁ t₂ t₃
  have h₃ : t₃.kept = t₁.kept := by simp [t₃, t₂]
  have h₀ : t₀.kept = s.kept := State.linkTick_kept s
  calc t₃.hashTick.drainOne.kept = t₁.kept := by rw [State.drainOne_kept, State.hashTick_kept, h₃]
    _ = { t₀.kept with time := (t₀.kept.time + 1) % 2 ^ 64 } := rfl
    _ = { s.kept with time := (s.time + 1) % 2 ^ 64 } := by rw [h₀]; rfl

/-- Settles O2: the idle tick counts TETHER_TIME and keeps the queue, under the two conditions that `idleTick` tests. -/
theorem idleStepPassesOneTick : Obligations.IdleStepPassesOneTick := by
  intro s hq
  rw [step_of_pending_nil hq]
  refine ⟨fun hpll hrst => ⟨s.tick, ?_, ?_, ?_⟩, fun hoff => ?_⟩
  · simp [idleTick, hpll, hrst]
  · exact congrArg Kept.time s.tick_kept
  · exact (congrArg Kept.pending s.tick_kept).trans hq
  · rcases hoff with h | h <;> simp [idleTick, h]

end Sys2Proof.Machine

/-! ### The rules of a tile's operations

What the operations of a tile agent do to its state and to its phases, said once. -/

namespace Sys2Proof.Machine

@[simp] theorem Tile.allPh_state (x : Tile) (f : Nat → Phase → Phase) : (x.allPh f).state = x.state := rfl
@[simp] theorem Tile.allPh_latchAt (x : Tile) (f : Nat → Phase → Phase) : (x.allPh f).latchAt = x.latchAt := rfl

/-- Reporting an event touches the pending events and EVT_LOST alone (R64). -/
theorem Tile.pushEv_eq (x : Tile) (now code data : Nat) :
    x.pushEv now code data = { x with events := (x.pushEv now code data).events, evtLost := (x.pushEv now code data).evtLost } := by
  unfold Tile.pushEv
  split <;> rfl

@[simp] theorem Tile.pushEv_state (x : Tile) (now code data : Nat) : (x.pushEv now code data).state = x.state := by
  rw [Tile.pushEv_eq]
@[simp] theorem Tile.pushEv_latchAt (x : Tile) (now code data : Nat) : (x.pushEv now code data).latchAt = x.latchAt := by
  rw [Tile.pushEv_eq]

theorem Tile.enter_fields (x : Tile) (now : Nat) (st : TileState) :
    (x.enter now st).state = st ∧ (x.enter now st).crowOkCnt = 0 ∧ (x.enter now st).vinOkCnt = x.vinOkCnt := by
  unfold Tile.enter
  dsimp only
  repeat' split
  all_goals exact ⟨rfl, rfl, rfl⟩

@[simp] theorem Tile.enter_state (x : Tile) (now : Nat) (st : TileState) : (x.enter now st).state = st :=
  (x.enter_fields now st).1
@[simp] theorem Tile.enter_crowOkCnt (x : Tile) (now : Nat) (st : TileState) : (x.enter now st).crowOkCnt = 0 :=
  (x.enter_fields now st).2.1
@[simp] theorem Tile.enter_vinOkCnt (x : Tile) (now : Nat) (st : TileState) : (x.enter now st).vinOkCnt = x.vinOkCnt :=
  (x.enter_fields now st).2.2

/-! ### RETIRED (R44) -/

@[simp] theorem TileState.live_retired : TileState.retired.live = false := rfl
@[simp] theorem TileState.runs_retired : TileState.retired.runs = false := rfl
@[simp] theorem TileState.regulates_retired : TileState.retired.regulates = false := rfl

/-- A tile in RETIRED in which no soft-start abort waits for its latch. -/
def Tile.Spent (x : Tile) : Prop := x.state = .retired ∧ x.latchAt = 0

namespace Tile.Spent

variable {x y : Tile} {now : Nat}

theorem of_eq (h : x.Spent) (hs : y.state = x.state) (hl : y.latchAt = x.latchAt) : y.Spent :=
  ⟨hs.trans h.1, hl.trans h.2⟩

theorem ite {c : Prop} [Decidable c] (hx : x.Spent) (hy : y.Spent) : (if c then x else y).Spent := by
  split
  · exact hx
  · exact hy

theorem allPh (h : x.Spent) (f : Nat → Phase → Phase) : (x.allPh f).Spent := h

theorem pushEv (h : x.Spent) (code data : Nat) : (x.pushEv now code data).Spent := h.of_eq (by simp) (by simp)

theorem goRetired (h : x.Spent) (cause : Nat) : x.goRetired now cause = x := if_pos h.1

theorem retirePhases (h : x.Spent) (mask cause : Nat) : (x.retirePhases now mask cause).Spent := by
  unfold Tile.retirePhases
  lift_lets
  intro y
  have hy : y.Spent := h.allPh _
  rw [hy.goRetired, if_neg (show ¬(y.state = .shed ∧ y.shedMask = 0) by simp [hy.1])]
  exact ite hy hy

/-! The switching period -/

theorem measure (h : x.Spent) (m : PeriodMeas) : (x.measure m).Spent := h

theorem checkReversed (h : x.Spent) : (x.checkReversed now).Spent := by
  unfold Tile.checkReversed
  lift_lets
  intro reported counted
  have hreported : reported.Spent := ite (h.pushEv _ _) h
  have hcounted : counted.Spent := hreported
  rw [hcounted.1]
  exact ite hcounted h

theorem checkOver (h : x.Spent) : (x.checkOver now).Spent := by simpa [Tile.checkOver, h.1] using h

theorem takeCrowbar (h : x.Spent) : (x.takeCrowbar now).Spent := by
  unfold Tile.takeCrowbar
  rw [h.1]
  exact ite h h

theorem checkShort (h : x.Spent) : (x.checkShort now).Spent := by simpa [Tile.checkShort, h.1, h.2] using h

theorem checkLockout (h : x.Spent) : (x.checkLockout now).Spent := by
  unfold Tile.checkLockout
  lift_lets
  intro counted off
  have hcounted : counted.Spent := h
  rwa [if_pos (by simp [hcounted.1])]

theorem countOpen (h : x.Spent) : x.countOpen.Spent := h

theorem droopOn (h : x.Spent) (ofs : Nat) : (x.droopOn now ofs).Spent := by
  unfold Tile.droopOn
  dsimp only
  rw [if_pos (by simp [h.1])]
  exact h

theorem followDroop (h : x.Spent) (ofs : Nat) (droop : Bool) : (x.followDroop now ofs droop).Spent :=
  ite (ite h (h.droopOn ofs)) (ite h (ite h h))

theorem returnDue (h : x.Spent) : (x.returnDue now).Spent := by
  unfold Tile.returnDue
  lift_lets
  intro y
  have hy : y.Spent := h.allPh _
  rwa [if_neg (show ¬(y.state = .shed ∧ y.shedMask = 0) by simp [hy.1])]

theorem runLoop (h : x.Spent) : (x.runLoop now).Spent := by
  unfold Tile.runLoop
  rw [if_neg (by simp [h.1])]
  exact h.allPh _

theorem period (h : x.Spent) (ofs : Nat) (m : PeriodMeas) : (x.period now ofs m).Spent :=
  have hmeasured := (h.measure m).checkReversed.checkOver.takeCrowbar
  have hcounted := hmeasured.checkShort.checkLockout.countOpen
  ((hcounted.allPh _).followDroop ofs m.droop).returnDue.runLoop.allPh _

/-! The sample boundary -/

theorem closeSample (h : x.Spent) : x.closeSample.Spent := h
theorem makeTrep (h : x.Spent) (pos : Nat) : (x.makeTrep now pos).Spent := h

theorem closeSpine (h : x.Spent) : (x.closeSpine now).Spent := by
  unfold Tile.closeSpine
  lift_lets
  intro watched
  have hwatched : watched.Spent := h
  exact ite (of_eq (hwatched.pushEv _ _) rfl rfl) hwatched

theorem countHolds (h : x.Spent) : x.countHolds.Spent := h
theorem capDuties (h : x.Spent) (n : Nat) : (x.capDuties n).Spent := h

theorem checkRise (h : x.Spent) : (x.checkRise now).Spent := by simpa [Tile.checkRise, Tile.reverseShed, h.1] using h

theorem applyRef (h : x.Spent) : x.applyRef.Spent := by
  unfold Tile.applyRef
  rcases x.mrefNext with _ | _ <;> rcases x.msumNext with _ | _ <;> exact h

theorem trims (h : x.Spent) : x.trims.Spent := by simpa [Tile.trims, h.1] using h

/-- Each word finds the tile in a state that it does not act on, or changes what stays until RST_N (R43, R44). -/
theorem apply (h : x.Spent) (refuse : Bool) : ∀ w : TileWord, (x.apply now refuse w).Spent
  | .nop | .ssTarget _ | .setOfs _ | .setShare _ | .cfg _ _ => h
  | .start | .ssGo _ | .stop | .shed _ | .unshed _ | .retirePhase _ | .crowbar | .clear | .capTest _ => by
    simpa [Tile.apply, Tile.doShed, Tile.doUnshed, Tile.doClear, h.1] using h
  | .retireTile => by
    unfold Tile.apply
    rwa [h.goRetired]

theorem applyAll (h : x.Spent) : (x.applyAll now).Spent :=
  List.foldlRecOn (motive := Tile.Spent) _ _ h fun _ hy w _ => hy.apply _ w

theorem rerunLoop (h : x.Spent) : (x.rerunLoop now).Spent :=
  ite (runLoop (of_eq h rfl rfl)) h.runLoop

theorem dropMsum (h : x.Spent) : ({ x with msumNext := none } : Tile).Spent := h
theorem recordVref (h : x.Spent) : ({ x with vrefHist := (x.vref :: x.vrefHist).take 16 } : Tile).Spent := h

theorem boundary (h : x.Spent) (pos fresh : Nat) : (x.boundary now pos fresh).Spent :=
  have hclosed := (h.closeSample.makeTrep pos).closeSpine.countHolds.capDuties fresh
  have happlied := hclosed.checkRise.returnDue.applyRef.trims.applyAll
  happlied.dropMsum.recordVref.rerunLoop

end Tile.Spent

/-- Settles O16: each part of a switching period and of a sample boundary, and each word, keeps `Tile.Spent`. -/
theorem retiredTilesStayRetired : Obligations.RetiredTilesStayRetired := by
  intro x now pos fresh ofs m hstate hlatch
  have h : x.Spent := ⟨hstate, hlatch⟩
  exact ⟨(h.period ofs m).1, (h.boundary pos fresh).1, (h.droopOn ofs).1, fun k c => (h.retirePhases k c).1,
    fun r w => (h.apply r w).1⟩

/-! ### The rows of a tile -/

/-- Changes the tile named and nothing else but the counter of free values, which does not fall. -/
def State.OnlyTile (s : State) (k : Nat) (t : State) : Prop :=
  t = { s with tiles := t.tiles, fresh := t.fresh } ∧ s.fresh ≤ t.fresh ∧ ∀ j : Nat, j ≠ k → t.tile j = s.tile j

namespace State.OnlyTile

theorem refl (s : State) (k : Nat) : s.OnlyTile k s := ⟨rfl, Nat.le_refl _, fun _ _ => rfl⟩

/-- A write of one tile leaves the entries of the others (R33, R40). -/
theorem setTile (s : State) (k : Nat) (v : Tile) : s.OnlyTile k (s.setTile k v) :=
  ⟨rfl, Nat.le_refl _, fun j hj => tget_tset_other _ _ k j v hj⟩

theorem draw (s : State) (k : Nat) : s.OnlyTile k { s with fresh := s.fresh + 1 } := ⟨rfl, Nat.le_succ _, fun _ _ => rfl⟩

theorem draw_setTile (s : State) (k : Nat) (v : Tile) :
    s.OnlyTile k (({ s with fresh := s.fresh + 1 } : State).setTile k v) :=
  ⟨rfl, Nat.le_succ _, fun j hj => tget_tset_other _ _ k j v hj⟩

end State.OnlyTile

/-- Most rows of a tile are one write of it; a period passes a tile by at an odd tick and in reset, and ILIM_HOLD draws a
free value first. Every other row belongs to no tile. -/
theorem exec_onlyTile {c : Instr} {k : Nat} (hc : c.ownTile = some k) (s : State) : Leads (exec c s) (s.OnlyTile k) := by
  cases c
  case switchingPeriod t x =>
    cases hc
    exact leads_ite ((leads_next _ _).2 (.setTile s t _)) <|
      leads_ite ((leads_next _ _).2 (.refl s t)) ((leads_next _ _).2 (.setTile s t _))
  case ilimHold t ch =>
    cases hc
    exact leads_ite ((leads_next _ _).2 (.draw_setTile s t _)) <|
      leads_ite ((leads_next _ _).2 (.draw_setTile s t _)) ((leads_next _ _).2 (.draw s t))
  case droopHoldExpiry | ilimPk | ilimNeg | vsnsOpen | vsnsOpenExit | openPhase | prechargeDone | capDone | rampEnd
      | spineLoss | tileNop | start | ssTarget | ssGo | stop | shed | unshed | retirePhase | retireTile | crowbar | clear
      | setOfs | setShare | capTest | sync | mref | msum | cfg | pendingEventExpiry =>
    cases hc
    exact (leads_next _ _).2 (State.OnlyTile.setTile s _ _)
  all_goals cases hc

/-- Settles O10: every row of `Instr.ownTile` writes its own tile only. -/
theorem tileRowsChangeTheirTileOnly : Obligations.TileRowsChangeTheirTileOnly :=
  fun _ _ s t hc ht => exec_onlyTile hc s t ht

/-! ### Words that reach a tile (R58 to R60, R65) -/

theorem dwFor_iff (t : Nat) (w : Word) : dwFor t w = true ↔ dwPos w = 31 ∨ dwPos w = t % 24 := by simp [dwFor]

theorem refFor_iff (t : Nat) (w : Word) (now : Nat) :
    refFor t w now = true ↔ bits w.toNat 27 26 = t / 6 % 4 ∧ bits w.toNat 3 0 = now / 16 % 16 := by simp [refFor]

/-- Two writes of a tile that write the same lead to the same state: the rows of a tile agent are compared by what they write. -/
theorem next_setTile {s : State} {t : Nat} {v w : Tile} (h : v = w) : (.next (s.setTile t v) : Out) = .next (s.setTile t w) := by
  rw [h]

theorem Tile.discard_of_lt {x : Tile} (h : x.spineErr < 65535) : x.discard = { x with spineErr := x.spineErr + 1 } := by
  rw [Tile.discard, Nat.min_eq_right h]

theorem Tile.discard_of_le {x : Tile} (h : 65535 ≤ x.spineErr) : x.discard = { x with spineErr := 65535 } := by
  rw [Tile.discard, Nat.min_eq_left (Nat.le_succ_of_le h)]

section Received

variable {w : Word} {chk : BitVec 4} {x y z : Tile} {c : Prop} [Decidable c]

/-- A word whose check lane disagrees is discarded, whatever it would have done. -/
theorem received_of_ne (h : chk ≠ dwCheck w) : (if !dwOk w chk then x.discard else y) = x.discard :=
  if_pos (by simp [dwOk, h])

theorem received_of_eq (h : chk = dwCheck w) : (if !dwOk w chk then x.discard else y) = y :=
  if_neg (by simp [dwOk, h])

/-- A whole word that the tile takes. -/
theorem received_meant (h : chk = dwCheck w) (hc : c) : (if !dwOk w chk then x.discard else if c then y else z) = y :=
  (received_of_eq h).trans (if_pos hc)

/-- A whole word that is not for the tile. -/
theorem received_other (h : chk = dwCheck w) (hc : ¬c) : (if !dwOk w chk then x.discard else if c then y else z) = z :=
  (received_of_eq h).trans (if_neg hc)

theorem not_meant {type n : Nat} {named : Bool} (h : type ≠ n ∨ named = false) : ¬(type = n ∧ named = true) := by
  rintro ⟨htype, hnamed⟩
  simp [htype, hnamed] at h

end Received

section Cmd

variable {t : Nat} {w : Word} {chk : BitVec 4} {x : Tile}

theorem Tile.takeCmd_of_ne (h : chk ≠ dwCheck w) : x.takeCmd t ⟨w, chk⟩ = x.discard := received_of_ne h

theorem Tile.takeCmd_hold {c : TileWord} (h : chk = dwCheck w) (htype : dwType w = 3)
    (hpos : dwPos w = 31 ∨ dwPos w = t % 24) (hc : cmdOf w = some c) : x.takeCmd t ⟨w, chk⟩ = x.hold c := by
  refine (received_meant h ⟨htype, (dwFor_iff t w).2 hpos⟩).trans ?_
  simp only [hc]

theorem Tile.takeCmd_ignore (h : chk = dwCheck w)
    (hother : dwType w ≠ 3 ∨ (dwPos w ≠ 31 ∧ dwPos w ≠ t % 24) ∨ cmdOf w = none) : x.takeCmd t ⟨w, chk⟩ = x := by
  by_cases hmeant : dwType w = 3 ∧ dwFor t w = true
  · refine (received_meant h hmeant).trans ?_
    obtain ⟨htype, hfor⟩ := hmeant
    have hnone : cmdOf w = none := by
      rw [dwFor_iff] at hfor
      rcases hother with hne | hne | hnone
      · exact absurd htype hne
      · omega
      · exact hnone
    simp only [hnone]
  · exact received_other h hmeant

end Cmd

/-- What a CMD word does when the tile `t` receives it: it waits where it is whole and for the tile, and is discarded or
ignored otherwise. -/
def HeldByTile (t : Nat) (w : Word) (chk : BitVec 4) (s : State) (o : Out) : Prop :=
  (∀ c, chk = dwCheck w → dwType w = 3 → dwPos w = 31 ∨ dwPos w = t % 24 → cmdOf w = some c →
    o = .next (s.setTile t ((s.tile t).hold c))) ∧
  (chk ≠ dwCheck w → o = .next (s.setTile t (s.tile t).discard)) ∧
  (chk = dwCheck w → dwType w ≠ 3 ∨ (dwPos w ≠ 31 ∧ dwPos w ≠ t % 24) ∨ cmdOf w = none →
    o = .next (s.setTile t (s.tile t)))

theorem heldByTile_takeCmd (t : Nat) (w : Word) (chk : BitVec 4) (s : State) :
    HeldByTile t w chk s (.next (s.updTile t fun x => x.takeCmd t ⟨w, chk⟩)) :=
  ⟨fun _ hchk htype hpos hc => next_setTile (Tile.takeCmd_hold hchk htype hpos hc),
    fun hchk => next_setTile (Tile.takeCmd_of_ne hchk),
    fun hchk hother => next_setTile (Tile.takeCmd_ignore hchk hother)⟩

/-- Codes 14 to 31 are reserved (R59). -/
theorem cmdOf_reserved {w : Word} (h : 14 ≤ dwCode w) : cmdOf w = none := by
  unfold cmdOf
  dsimp only
  split
  case h_15 => rfl
  all_goals omega

/-- Settles O11: each of the fourteen rows is `Tile.takeCmd`, and `cmdOf` reads the code and cuts the argument. -/
theorem tileCommandsAreHeldToTheBoundary : Obligations.TileCommandsAreHeldToTheBoundary := by
  refine ⟨fun t w chk s => ?_, fun _ _ => rfl, fun w => ?_⟩
  · have h : HeldByTile t w chk s (.next (s.updTile t fun x => x.takeCmd t ⟨w, chk⟩)) := heldByTile_takeCmd t w chk s
    exact ⟨h, h, h, h, h, h, h, h, h, h, h, h, h, h⟩
  · refine ⟨?_, ?_, ?_, ?_, ?_, ?_, ?_, ?_, ?_, ?_, ?_, ?_, ?_, ?_, cmdOf_reserved⟩
    all_goals
      intro hcode
      simp [cmdOf, hcode, bits]

/-- Settles O12: the rows share the check of the lane (`received_of_ne`), and differ in the word each takes. -/
theorem downstreamWordsReachTheirTile : Obligations.DownstreamWordsReachTheirTile := by
  refine ⟨fun t w chk s hchk => ?_, fun x => ⟨Tile.discard_of_lt, Tile.discard_of_le⟩, fun t w s => ?_,
    fun t now w => refFor_iff t w now⟩
  · exact ⟨next_setTile (received_of_ne hchk), next_setTile (received_of_ne hchk), next_setTile (received_of_ne hchk),
      next_setTile (received_of_ne hchk)⟩
  · refine ⟨fun htype => ?_, fun htype href => ?_, fun htype href => ?_, fun htype hpos => ?_, fun hne => ?_, fun hne => ?_,
      fun hne => ?_, fun hne => ?_⟩
    · exact next_setTile (received_meant rfl htype)
    · exact next_setTile (received_meant rfl ⟨htype, href⟩)
    · exact next_setTile (received_meant rfl ⟨htype, href⟩)
    · exact next_setTile (received_meant rfl ⟨htype, (dwFor_iff t w).2 hpos⟩)
    · exact next_setTile (received_other rfl hne)
    · exact next_setTile (received_other rfl (not_meant hne))
    · exact next_setTile (received_other rfl (not_meant hne))
    · refine next_setTile (received_other rfl ?_)
      rintro ⟨htype, hfor⟩
      rw [dwFor_iff] at hfor
      omega

/-! ### The protections of a tile (R41, R46 to R53) -/

theorem Tile.allPh_ph (x : Tile) (f : Nat → Phase → Phase) : ∀ k : Fin 4, (x.allPh f).ph k = f k (x.ph k)
  | 0 | 1 | 2 | 3 => rfl

theorem Tile.updPh_ph (x : Tile) (f : Phase → Phase) : ∀ k : Fin 4, (x.updPh k f).ph k = f (x.ph k)
  | 0 | 1 | 2 | 3 => rfl

theorem Tile.pushEv_ph (x : Tile) (now code data : Nat) (k : Nat) : (x.pushEv now code data).ph k = x.ph k := by
  rw [Tile.pushEv_eq]
  rfl

theorem Tile.integrate_ph (x : Tile) (k : Nat) : x.integrate.ph k = x.ph k := by
  unfold Tile.integrate
  split <;> rfl

theorem Tile.setDuties_ph (x : Tile) (k : Fin 4) : ∃ d, x.setDuties.ph k = { x.ph k with duty := d } :=
  ⟨_, Tile.allPh_ph x _ k⟩

/-- The loop gives each phase a duty and changes nothing else of it (R37). -/
theorem Tile.runLoop_ph (x : Tile) (now : Nat) (k : Fin 4) : ∃ d, (x.runLoop now).ph k = { x.ph k with duty := d } := by
  unfold Tile.runLoop
  split
  · obtain ⟨d, hd⟩ := Tile.setDuties_ph { ({ x with loopBase := x.integ } : Tile).integrate with loopAt := now + 1 } k
    exact ⟨d, hd.trans (congrArg (fun p : Phase => { p with duty := d }) (Tile.integrate_ph _ k))⟩
  · exact ⟨0, Tile.allPh_ph x _ k⟩

theorem Tile.rerunLoop_ph (x : Tile) (now : Nat) (k : Fin 4) : ∃ d, (x.rerunLoop now).ph k = { x.ph k with duty := d } := by
  unfold Tile.rerunLoop
  split
  · exact Tile.runLoop_ph _ now k
  · exact x.runLoop_ph now k

/-- The hold of a phase and its two counts restart, under a new ceiling, and the loop that runs again gives it a duty (R47). -/
theorem Tile.setHold_ph (x : Tile) (now fresh : Nat) (k : Fin 4) (on : Bool) : ∃ d, (x.setHold now fresh k on).ph k =
    { x.ph k with
      holdCont := on, overCnt := 0, underCnt := 0, duty := d
      dutyCap := if on || (x.ph k).holdTrans then (Config.holdDuty (4 * fresh + k)).toNat else 511 } := by
  unfold Tile.setHold
  lift_lets
  intro held rerun
  have hheld : held.ph k = _ := Tile.updPh_ph x _ k
  have hrerun : ∃ d, rerun.ph k = { held.ph k with duty := d } := by
    unfold rerun
    split
    · exact held.rerunLoop_ph now k
    · exact ⟨_, rfl⟩
  obtain ⟨d, hd⟩ := hrerun
  exact ⟨d, (Tile.pushEv_ph ..).trans (hd.trans (congrArg (fun p : Phase => { p with duty := d }) hheld))⟩

/-- ILIM_HOLD tests the counts of the phase as they stand, and draws a free value for the ceiling (R47). -/
theorem exec_ilimHold (t : Fin 192) (k : Fin 4) (s : State) : exec (.ilimHold t k) s =
    let s' : State := { s with fresh := s.fresh + 1 }
    let p := (s.tile t).ph k
    if !p.holdCont && decide ((s.tile t).par.tlim ≤ p.overCnt) then
      .next (s'.setTile t ((s.tile t).setHold s.time s'.fresh k true))
    else if p.holdCont && decide (16 ≤ p.underCnt) then .next (s'.setTile t ((s.tile t).setHold s.time s'.fresh k false))
    else .next s' := rfl

/-- Two passes over the same indexes agree where their steps agree at the tick at which the pass starts. -/
theorem forIdx_congr {n : Nat} {s : State} {f g : Nat → State → State} (htime : ∀ i u, (f i u).time = u.time)
    (hstep : ∀ i u, u.time = s.time → f i u = g i u) : forIdx n f s = forIdx n g s := by
  suffices h : ∀ (l : List Nat) (u : State), u.time = s.time →
      l.foldl (fun u i => f i u) u = l.foldl (fun u i => g i u) u from h _ s rfl
  intro l
  induction l with
  | nil => intro u _; rfl
  | cons i l ih =>
    intro u hu
    rw [List.foldl_cons, List.foldl_cons, ← hstep i u hu]
    exact ih _ ((htime i u).trans hu)

/-- The nets and droop inputs of a mitten act on each of its tiles at the tick at which they change. -/
theorem next_forIdx_updTile {s : State} {n : Nat} (tile : Nat → Nat) (f : Nat → Nat → State → Tile → Tile) :
    (.next (forIdx n (fun p u => u.updTile (tile p) (f u.time p u)) s) : Out) =
      .next (forIdx n (fun p u => u.setTile (tile p) (f s.time p u (u.tile (tile p)))) s) := by
  refine congrArg _ (forIdx_congr (fun _ _ => rfl) fun p u hu => ?_)
  rw [← hu]
  rfl

/-- Settles O13: each row is one write of the tile under the condition that the clause names; the rows of a mitten are such
writes of its six tiles. -/
theorem tileProtectionsAct : Obligations.TileProtectionsAct := by
  refine ⟨⟨fun t k s => ?_, fun t k s => ?_, fun x now fresh k on => ?_, fun t s hruns hfrozen hlow => ?_,
    fun t s hfrozen hplaus => ?_, fun t k s hretired hopen => ?_⟩, fun m s => ?_⟩
  · exact ⟨fun hactive => ⟨next_setTile (if_pos hactive), next_setTile (if_pos hactive)⟩,
      fun hidle => ⟨next_setTile (if_neg (by simp [hidle])), next_setTile (if_neg (by simp [hidle]))⟩⟩
  · exact ⟨fun hcont hover => (exec_ilimHold t k s).trans (if_pos (by simp [hcont, hover])),
      fun hcont hunder => (exec_ilimHold t k s).trans
        ((if_neg (by simp [hcont])).trans (if_pos (by simp [hcont, hunder]))),
      fun hcont hover => (exec_ilimHold t k s).trans
        ((if_neg (by simp [hcont, hover])).trans (if_neg (by simp [hcont])))⟩
  · obtain ⟨d, h⟩ := x.setHold_ph now fresh k on
    simp only [h, and_self]
  · exact next_setTile (if_pos (by simp [hruns, hfrozen, hlow]))
  · exact next_setTile ((if_pos (by simp [hfrozen, hplaus])).trans (if_pos hfrozen))
  · exact next_setTile (if_pos (by simp [hretired, hopen]))
  · exact ⟨next_forIdx_updTile _ fun now p u x => x.droopOn now (u.ofsOf (6 * m + p)),
      next_forIdx_updTile _ fun now _ _ x => if x.state.live then x.goCrowbar now false else x,
      next_forIdx_updTile _ fun now _ _ x => if x.state = .softstart ∧ x.latchAt = 0 then
        (x.pushEv now 0x13 (x.vsns + x.sinceT0 now * 65536)).enter now .latched else x⟩

/-! ### Periods, boundaries and sequences (R33 to R43, R54 to R65) -/

/-- A retired phase is off in every state, as every phase of a tile in OFF and RETIRED is (R42). -/
theorem State.lowSide_off {s : State} {t k : Nat}
    (h : ((s.tile t).ph k).retired = true ∨ (s.tile t).state = .off ∨ (s.tile t).state = .retired) :
    s.lowSide t k = .off := by
  by_cases hphase : ((s.tile t).ph k).retired = true
  · simp [State.lowSide, hphase]
  · rcases h.resolve_left hphase with h | h <;> simp [State.lowSide, h]

/-- Settles O14: each row is one write of the tile under the condition that the clause names. -/
theorem tilePeriodsBoundariesAndSequences : Obligations.TilePeriodsBoundariesAndSequences := by
  refine ⟨⟨fun t x s => ?_, fun t s htime hreset => ?_, fun t k s => ?_⟩, fun t s hboost hdroop hhold hruns => ?_,
    fun t x s hstate hdone hchecked => ?_, fun t x s hstate hdone hchecked hleft => ?_, fun t s hstate hcap hdue => ?_,
    fun t s hstate hlatch hdue => ?_, fun t s hmiss => ?_, fun t s hexpired => ?_⟩
  · refine ⟨fun hrst htime hreset => ?_, fun hrst => if_pos hrst⟩
    exact (if_neg (by simp [hrst])).trans (if_neg (by simp [htime, hreset]))
  · exact if_neg (by simp [htime, hreset])
  · refine ⟨State.lowSide_off, fun hphase => ⟨fun h => ?_, ?_, ?_⟩⟩
    · simp [State.lowSide, hphase, h]
    · rintro (h | h) <;> simp [State.lowSide, hphase, h]
    · rintro (h | h) <;> simp [State.lowSide, hphase, h]
  · exact next_setTile ((if_pos (by simp [hboost, hdroop, hhold])).trans (if_pos hruns))
  · exact next_setTile (by simp [hstate, hdone, hchecked])
  · exact next_setTile (by simp [hstate, hdone, hchecked, hleft])
  · exact next_setTile (if_pos ⟨hstate, hcap, hdue⟩)
  · exact next_setTile (if_pos ⟨hstate, hlatch, hdue⟩)
  · exact next_setTile (if_pos hmiss)
  · exact next_setTile (if_neg hexpired)

/-! ### CLEAR (R50) -/

theorem Tile.apply_clear_crowbar {x : Tile} {now : Nat} {r : Bool} (h : x.state = .crowbar) :
    x.apply now r .clear = if 64 ≤ x.crowOkCnt then x.enter now .off else x.pushEv now 0x10 x.vsns := by
  by_cases hok : 64 ≤ x.crowOkCnt <;> simp [Tile.apply, Tile.doClear, h, hok]

theorem Tile.apply_clear_latched {x : Tile} {now : Nat} {r : Bool} (h : x.state = .latched) :
    x.apply now r .clear = if 64 ≤ x.vinOkCnt then x.enter now .off else x.pushEv now 0x10 x.vsns := by
  by_cases hok : 64 ≤ x.vinOkCnt <;> simp [Tile.apply, Tile.doClear, h, hok]

theorem Tile.checkReversed_vinOkCnt (x : Tile) (now : Nat) :
    (x.checkReversed now).vinOkCnt = if x.vin < -100 then 0 else min 64 (x.vinOkCnt + 1) := by
  unfold Tile.checkReversed
  split
  · dsimp only
    generalize (if x.vinOkCnt != 0 then x.pushEv now 0x0D x.vinData else x) = reported
    split
    · rw [Tile.enter_vinOkCnt]
    · split
      · rw [Tile.enter_vinOkCnt]
      · rfl
  · rfl

/-- Settles O15: CLEAR tests the count of its state, and the periods count it (`Tile.checkOver`, `Tile.checkReversed`). -/
theorem clearTestsTheCauseInTheTile : Obligations.ClearTestsTheCauseInTheTile := by
  intro x now r
  refine ⟨fun h hok => ?_, fun h hlow => ?_, fun h hok => ?_, fun h hlow => ?_, fun h => ?_, fun own => ⟨rfl, ?_⟩,
    x.checkReversed_vinOkCnt now⟩
  · rw [Tile.apply_clear_crowbar h, if_pos hok, Tile.enter_state]
  · rw [Tile.apply_clear_crowbar h, if_neg (Nat.not_le.2 hlow)]
  · rw [Tile.apply_clear_latched h, if_pos hok, Tile.enter_state]
  · rw [Tile.apply_clear_latched h, if_neg (Nat.not_le.2 hlow)]
  · simp [Tile.checkOver, h, TileState.live]
  · simp [Tile.goCrowbar]

/-! ### Upstream words (R61, R62, R65) -/

theorem uwOk_check (w : BitVec 64) : uwOk w (uwCheck w) = true := by simp [uwOk]

theorem uwOk_of_ne {w : BitVec 64} {chk : BitVec 4} (h : chk ≠ uwCheck w) : uwOk w chk = false := by simp [uwOk, h]

/-- Settles O17: each row tests the check lane, the type and the position, or the missed reports, and then does what the
clause writes out. -/
theorem upstreamWordsReachTheFieldCore : Obligations.UpstreamWordsReachTheFieldCore := by
  refine ⟨⟨fun q w s htype hpos => ?_, fun v w => ⟨rfl, rfl, rfl, rfl, rfl, rfl⟩, fun q w s htype hpos hlock => ?_,
    fun q w chk s hchk => ⟨?_, ?_⟩⟩, fun t s => ⟨fun hmissed hgone => ?_, fun hnot => ?_⟩⟩
  · exact if_pos ⟨uwOk_check w, htype, hpos⟩
  · exact if_pos ⟨uwOk_check w, htype, hpos, by simp [State.takeUp, hlock]⟩
  · exact if_neg (by simp [uwOk_of_ne hchk])
  · exact if_neg (by simp [uwOk_of_ne hchk])
  · exact if_pos ⟨hmissed, by simp [hgone]⟩
  · refine if_neg fun ⟨hmissed, hgone⟩ => ?_
    rcases hnot with hlow | htrue
    · omega
    · exact hgone htrue

end Sys2Proof.Machine

/-! ### The domain loop and its registers

What the samples, frames and slots of the field core do in a domain, and what a write of a register does that nothing bars. -/

namespace Sys2Proof.Machine

/-! ### Samples, auto-tunes and frames (R67, R87, R15) -/

/-- The state in which the operations of a frame run: the boundary counts as taken (R15). -/
def State.inFrame (s : State) : State := s.updInst fun n => { n with unitAt := s.time }

/-- What a frame does outside a freeze, once the effects `u` of the frame that ends are carried out (R9): it is closed and the
rungs of faults are applied, and targets, decisions and ratings follow unless a lockstep mismatch stands. -/
def State.afterEffects (u : State) : State :=
  let v := u.closeFrame.frameLedger.frameRungs
  if v.inst.lockstep then v else v.frameTargets.frameDecide.frameEngine

/-- A frame boundary that is due: out of reset and with the PLL locked, each is taken once. -/
def State.FrameDue (s : State) : Prop :=
  s.time % 256 = 0 ∧ s.inst.inReset = false ∧ s.inst.pll = true ∧ (s.inst.unitAt ≠ s.time ∨ s.time = 0)

/-- A FRAME that is due, with no rung of a stop waiting in a freeze, closes the measurements of a frozen die, and carries out a
frame otherwise. -/
theorem exec_frame_of_due {s : State} (hdue : s.FrameDue) (hstop : s.obs.frozen = false ∨ s.flt.rungs = []) :
    exec .frame s = .next (if s.obs.frozen then s.inFrame.closeFrame else
      (if s.inst.lockstep then
        if s.inst.gndNext = 0 then s.inFrame.frameTickets else s.inFrame.frameTickets.enterGround s.inst.gndNext
      else s.inFrame.frameEffects).afterEffects) := by
  obtain ⟨htick, hreset, hpll, hnew⟩ := hdue
  have hrun : ¬(s.time % 256 ≠ 0 ∨ (s.inst.unitAt = s.time ∧ s.time ≠ 0) ∨ s.inst.inReset ∨ ¬s.inst.pll) := by
    simp [htick, hreset, hpll]
    omega
  have hkeep : ¬(s.inFrame.obs.frozen ∧ s.inFrame.flt.rungs.any (·.1 == 4)) := by
    rcases hstop with h | h <;> simp [State.inFrame, h]
  refine (if_neg hrun).trans ?_
  dsimp only
  rw [← State.inFrame, if_neg hkeep, State.afterEffects, apply_ite Host.Outcome.next, apply_ite Host.Outcome.next]
  rfl

/-- Settles O18: each row acts at its boundary (`exec_frame_of_due` for the frame), and passes the others by. -/
theorem samplesAndFramesRunAtTheirBoundaries : Obligations.SamplesAndFramesRunAtTheirBoundaries := by
  refine ⟨fun x s => ⟨fun htick hreset henum => if_neg (by simp [htick, hreset, henum]), fun hnot => if_pos (by simpa using hnot)⟩,
    fun r s hrun htick hfrozen => ?_, fun s htick hreset hpll => ⟨fun hnew hfrozen hlock => ?_,
      fun hnew hfrozen hlock hground => ?_, fun hnew hfrozen hrungs => ?_, fun htaken hpos => ?_⟩⟩
  · refine (if_neg (by simp [htick, hfrozen])).trans ?_
    rw [hrun]
    dsimp only
    cases s.tuneCond r <;> rfl
  · rw [exec_frame_of_due ⟨htick, hreset, hpll, hnew⟩ (.inl hfrozen), if_neg (by simp [hfrozen]),
      if_neg (by simp [hlock])]
    unfold State.afterEffects State.inFrame
    rfl
  · rw [exec_frame_of_due ⟨htick, hreset, hpll, hnew⟩ (.inl hfrozen), if_neg (by simp [hfrozen]), if_pos hlock,
      if_pos hground]
    rfl
  · rw [exec_frame_of_due ⟨htick, hreset, hpll, hnew⟩ (.inr hrungs), if_pos hfrozen]
    rfl
  · exact if_pos (.inr (.inl ⟨htaken, hpos⟩))

/-! ### Sense trust and saturation (R77 to R80, R84) -/

/-- The raising of a lost trust, which takes the failed test off its point (R77, R424). -/
def State.raiseTrust (s : State) (p : Nat) : State :=
  (s.updPoint p fun x => { x with why := none }).raise cSenseTrust (mkSrc 3 p) (s.point p).trustData

/-- Whether of every point of a list the trust is gone and its loss raised (R79, R80). -/
def State.allDark (s : State) (l : List Nat) : Bool := l.all fun i => !(s.point i).trusted && (s.point i).why.isNone

/-- Of a point that lost its trust and belongs to no domain, nothing but the loss is raised. -/
theorem exec_senseTrust_of_no_dom {s : State} {p : Fin 512} (hlost : (s.point p).why ≠ none)
    (hdom : (s.raiseTrust p).mittenDom (p.val / 16) = none) : exec (.senseTrust p) s = .next (s.raiseTrust p) := by
  obtain ⟨c, hc⟩ := Option.ne_none_iff_exists'.1 hlost
  change execSenseTrust p s = _
  rw [execSenseTrust, hc]
  dsimp only
  rw [← State.raiseTrust, hdom]

/-- A lost trust may take with it the domain of the point, or else its mitten. -/
theorem exec_senseTrust_of_dom {s : State} {p : Fin 512} {d : Nat} (hlost : (s.point p).why ≠ none)
    (hdom : (s.raiseTrust p).mittenDom (p.val / 16) = some d) : exec (.senseTrust p) s =
      let u := s.raiseTrust p
      if u.allDark (u.domPoints d) then .next (u.raise cSenseDomainLost (mkSrc 5 d) 0)
      else if u.allDark ((u.domPoints d).filter (· / 16 == p.val / 16)) ∧ (u.domPoints d).any (fun i => (u.point i).trusted) then
        .next (u.raise cSenseMittenLost (mkSrc 2 (p.val / 16)) 0)
      else .next u := by
  obtain ⟨c, hc⟩ := Option.ne_none_iff_exists'.1 hlost
  change execSenseTrust p s = _
  rw [execSenseTrust, hc]
  dsimp only
  rw [← State.raiseTrust, hdom]
  rfl

/-- A point is trusted again when its three tests hold, and then its mitten's and its domain's losses end (R78). -/
theorem exec_trustRegain_of_dom {s : State} {p : Fin 512} {d : Nat} (hdom : s.mittenDom (p.val / 16) = some d)
    (hmine : (s.domPoints d).contains p.val = true) : exec (.trustRegain p) s =
      if (s.point p).trusted = false ∧ (s.point p).locked = false ∧ s.trustRegain ≤ (s.point p).passCnt then
        .next (((s.updPoint p fun x => { x with trusted := true, passCnt := 0, why := none }).endCause
          cSenseMittenLost (mkSrc 2 (p.val / 16))).endCause cSenseDomainLost (mkSrc 5 d))
      else .next s := by
  change execTrustRegain p s = _
  rw [execTrustRegain, hdom]
  dsimp only
  simp only [hmine, and_true, Bool.not_eq_true']

/-- DOM_SAT_PERSIST waits for both of its run lengths (R84). -/
theorem exec_domSatPersist (d : Fin 32) (s : State) : exec (.domSatPersist d) s =
    if s.satErr ≤ (s.dom d).satCnt ∧ s.satTime ≤ (s.dom d).satCnt ∧ bit (s.dom d).satEp 1 = false then
      .next ((s.updDom d fun x => { x with satEp := x.satEp + 2 }).raise cDomSatPersist (mkSrc 5 d)
        ((s.dom d).satCnt + 65536 * b2n (s.dom d).uPos))
    else .next s := by
  change execDomSatPersist d s = _
  simp only [execDomSatPersist, max_le_iff, and_assoc, Bool.not_eq_true]

theorem bit_zero_succ_of_even {n : Nat} (h : n % 2 = 0) : bit (n + 1) 0 = true := by
  simp only [bit, pow_zero, Nat.div_one, beq_iff_eq]
  omega

/-- Settles O19: each row raises what it judges under its condition, and leaves the state as it is under no other. -/
theorem senseAndSaturationAreJudged : Obligations.SenseAndSaturationAreJudged := by
  refine ⟨⟨fun p s hlost => ?_, fun p s hnone => ?_, fun x => ?_, fun p d s hdom hmine => ⟨fun htrust hlock hpass => ?_,
    fun hnot => ?_⟩⟩, fun d s hrun hfirst => ?_, fun d s herr hrun hfirst => ?_, fun d s hnot => ?_, fun d s hnot => ?_,
    fun n => bit_zero_succ_of_even, rfl, rfl⟩
  · refine ⟨exec_senseTrust_of_no_dom hlost, fun d hdom => ⟨fun hall => ?_, fun hsome hmine hany => ?_, fun hsome hnot => ?_⟩⟩
    · exact (exec_senseTrust_of_dom hlost hdom).trans (if_pos hall)
    · exact (exec_senseTrust_of_dom hlost hdom).trans ((if_neg (ne_true_of_eq_false hsome)).trans (if_pos ⟨hmine, hany⟩))
    · refine (exec_senseTrust_of_dom hlost hdom).trans ((if_neg (ne_true_of_eq_false hsome)).trans (if_neg ?_))
      rintro ⟨hmine, hany⟩
      rcases hnot with h | h
      · exact ne_true_of_eq_false h hmine
      · exact ne_true_of_eq_false h hany
  · change execSenseTrust p s = _
    rw [execSenseTrust, hnone]
  · simp only [Point.trustData, b2n, beq_iff_eq]
  · exact (exec_trustRegain_of_dom hdom hmine).trans (if_pos ⟨htrust, hlock, hpass⟩)
  · refine (exec_trustRegain_of_dom hdom hmine).trans (if_neg fun ⟨htrust, hlock, hpass⟩ => ?_)
    rcases hnot with h | h | h
    · simp [h] at htrust
    · simp [h] at hlock
    · omega
  · exact if_pos ⟨hrun, ne_true_of_eq_false hfirst⟩
  · exact (exec_domSatPersist d s).trans (if_pos ⟨herr, hrun, hfirst⟩)
  · refine if_neg fun ⟨hrun, hfirst⟩ => ?_
    rcases hnot with h | h
    · omega
    · exact hfirst h
  · refine (exec_domSatPersist d s).trans (if_neg fun ⟨herr, hrun, hfirst⟩ => ?_)
    rcases hnot with h | h | h
    · omega
    · omega
    · simp [h] at hfirst

/-! ### Shedding (R88 to R90) -/

/-- The phases that a level of shedding asks of a tile, whatever it has retired (R89). -/
def wantedPhases (lvl p : Nat) : List Nat :=
  match lvl with
  | 1 => [p % 4]
  | 2 => [0, 2]
  | 3 => (List.range 4).filter (· != (p + 3) % 4)
  | _ => List.range 4

/-- What a wanted phase adds to the phases kept: itself, or a phase not wanted in its place where it is retired (R89). -/
def keepPhase (want : List Nat) (retired : Nat) (acc : List Nat) (k : Nat) : List Nat :=
  if !bit retired k then (if acc.contains k then acc else acc ++ [k])
  else match (List.range 4).find? fun j => !bit retired j && !acc.contains j && !want.contains j with
    | some j => acc ++ [j]
    | none => acc

theorem keptPhases_eq (lvl p retired : Nat) :
    keptPhases lvl p retired = (wantedPhases lvl p).foldl (keepPhase (wantedPhases lvl p) retired) [] := rfl

/-- A retired phase is not added: neither as the one wanted nor in the place of another. -/
theorem bit_of_mem_keepPhase {want acc : List Nat} {retired k j : Nat} (hacc : ∀ i ∈ acc, bit retired i = false)
    (hj : j ∈ keepPhase want retired acc k) : bit retired j = false := by
  unfold keepPhase at hj
  split at hj
  case isTrue hk =>
    split at hj
    · exact hacc j hj
    · rcases List.mem_append.1 hj with h | h
      · exact hacc j h
      · rw [List.mem_singleton.1 h]
        simpa using hk
  case isFalse =>
    split at hj
    case h_1 i hi =>
      rcases List.mem_append.1 hj with h | h
      · exact hacc j h
      · have hfound := List.find?_some hi
        simp only [Bool.and_eq_true, Bool.not_eq_true'] at hfound
        rw [List.mem_singleton.1 h]
        exact hfound.1.1
    case h_2 => exact hacc j hj

/-- A retired phase is never kept (R89). -/
theorem keptPhases_contains_of_retired {lvl p retired k : Nat} (hk : bit retired k = true) :
    (keptPhases lvl p retired).contains k = false := by
  have hkept : ∀ j ∈ keptPhases lvl p retired, bit retired j = false := by
    rw [keptPhases_eq]
    exact List.foldlRecOn (motive := fun acc => ∀ j ∈ acc, bit retired j = false) _ _ (by simp)
      fun acc hacc k _ j => bit_of_mem_keepPhase hacc
  rw [List.contains_eq_mem, decide_eq_false_iff_not]
  exact fun hmem => by simp [hkept k hmem] at hk

theorem bit_zero_left (k : Nat) : bit 0 k = false := by simp [bit]

/-- With none retired a wanted phase is kept itself. -/
theorem mem_keepPhase_of_none_retired {want acc : List Nat} {k j : Nat} : j ∈ keepPhase want 0 acc k ↔ j ∈ acc ∨ j = k := by
  rw [keepPhase, if_pos (by simp [bit_zero_left])]
  split
  case isTrue h =>
    have hk : k ∈ acc := by simpa using h
    exact ⟨.inl, fun h => h.elim id fun e => e ▸ hk⟩
  case isFalse => simp

theorem mem_foldl_keepPhase_of_none_retired {want l acc : List Nat} {k : Nat} :
    k ∈ l.foldl (keepPhase want 0) acc ↔ k ∈ acc ∨ k ∈ l := by
  induction l generalizing acc with
  | nil => simp
  | cons i l ih => rw [List.foldl_cons, ih, mem_keepPhase_of_none_retired, List.mem_cons, or_assoc]

/-- With none retired a tile keeps the phases that its level asks (R89). -/
theorem keptPhases_contains_of_none_retired (lvl p k : Nat) :
    (keptPhases lvl p 0).contains k = (wantedPhases lvl p).contains k := by
  simp [keptPhases_eq, mem_foldl_keepPhase_of_none_retired]

/-- A domain that may shed, at the last sample of its frame, is held back by a grant within the guard and by a live ticket. -/
theorem exec_domainShed_of_mayShed {d : Fin 32} {s : State} (htick : s.time % 256 / 16 = 15) (hfrozen : s.obs.frozen = false)
    (hlock : s.inst.lockstep = false) (hreset : s.inst.inReset = false) (henabled : s.enabled d = true)
    (hmay : s.mayShed d = true) :
    exec (.domainShed d) s =
      if s.nearGrants d (nextFrame s.time) ≠ [] then
        .next ((s.updDom d fun x => { x with dwell := [] }).raise cShedBlocked (mkSrc 5 d) 0)
      else if (s.domTks d fun k => k.state == .armed || k.state == .launched) ≠ [] then .next s
      else .next (s.shedTo d ((s.dom d).dwell.foldl max 0)) := by
  refine (if_neg (by simp [htick, hfrozen, hlock, hreset, henabled, hmay])).trans ?_
  simp only [List.isEmpty_iff, ne_eq]

/-- Settles O22: the row sheds, waits or is blocked (`exec_domainShed_of_mayShed`), and the phases kept are those that the level
asks where none is retired, and never a retired one. -/
theorem domainsShedBetweenSlotsInPhase : Obligations.DomainsShedBetweenSlotsInPhase := by
  refine ⟨fun d s htick hfrozen hlock hreset henabled hmay => ?_, fun d s hnot => if_pos ?_, fun d lvl s => rfl,
    fun p => ⟨fun k => ?_, fun k => ?_, fun k => ?_, fun n lost _ _ k => keptPhases_contains_of_retired⟩⟩
  · have hrow := exec_domainShed_of_mayShed htick hfrozen hlock hreset henabled hmay
    exact ⟨fun hnear => hrow.trans (if_pos hnear),
      fun hnear hlive => hrow.trans ((if_neg (not_not.2 hnear)).trans (if_pos hlive)),
      fun hnear hlive => hrow.trans ((if_neg (not_not.2 hnear)).trans (if_neg (not_not.2 hlive)))⟩
  · rcases hnot with h | h | h
    · exact .inl h
    · simp [h]
    · exact .inr (.inl h)
  · rw [keptPhases_contains_of_none_retired]
    simp [wantedPhases, k.isLt]
  · rw [keptPhases_contains_of_none_retired]
    simp [wantedPhases]
  · rw [keptPhases_contains_of_none_retired]
    simp [wantedPhases]

/-! ### Register writes that nothing bars (R391, R395 to R397, R423) -/

section Unbarred

variable {s : State} {a w : Nat} {early frz bad : Bool} {note put : State → State}

/-- A field core whose registers take writes: it is up, past its verdict and without a lockstep mismatch. -/
def State.TakesWrites (s : State) : Prop := s.hostUp = true ∧ s.inst.lockstep = false ∧ s.beforeVerdict = false

/-- A privileged write of a good value has its effect, which a freeze may put off. -/
theorem hostPut_of_takesWrites (hs : s.TakesWrites) (hbad : bad = false) : s.hostPut a w true early frz bad note put =
    if frz && s.obs.frozen then .next (s.holdWrite a w).okay else .next (put s).okay := by
  obtain ⟨hup, hlock, hverdict⟩ := hs
  simp [State.hostPut, hup, hlock, hverdict, hbad]

theorem hostPut_okay (hs : s.TakesWrites) (hfrz : frz = false ∨ s.obs.frozen = false) (hbad : bad = false) :
    s.hostPut a w true early frz bad note put = .next (put s).okay := by
  refine (hostPut_of_takesWrites hs hbad).trans (if_neg ?_)
  rcases hfrz with h | h <;> simp [h]

theorem hostPut_held (hs : s.TakesWrites) (hfrozen : s.obs.frozen = true) :
    s.hostPut a w true early true false note put = .next (s.holdWrite a w).okay :=
  (hostPut_of_takesWrites hs rfl).trans (if_pos (by simp [hfrozen]))

end Unbarred

/-- Settles O55: each row is a write of the host port with its own effect, under the condition that its value is good
(`hostPut_okay`), or one that a freeze holds (`hostPut_held`); four rows test what bars them themselves. -/
theorem registerWritesTakeEffect : Obligations.RegisterWritesTakeEffect := by
  intro w s hup hlock hverdict
  have hs : s.TakesWrites := ⟨hup, hlock, hverdict⟩
  refine ⟨fun hfrozen => ?_, fun hfrozen d => hostPut_held hs hfrozen,
    fun hfits => show execHkCtl w true s = _ from hostPut_okay hs (.inl rfl) (by simp [hfits]),
    fun hwin => hostPut_okay hs (.inl rfl) (by simp [hwin]),
    show execCtlLock w true s = _ from hostPut_okay hs (.inl rfl) rfl, ?_, fun hdest => ?_, ?_, ?_, fun hmgr => ?_⟩
  · have okay {a early bad note put} := hostPut_okay (s := s) (a := a) (w := w.toNat) (early := early) (frz := true) (bad := bad)
      (note := note) (put := put) hs (.inr hfrozen)
    refine ⟨fun d => ⟨fun hgood => show execDomVreq d w true s = _ from okay hgood, okay rfl, okay, okay⟩,
      fun t => ⟨fun hbit => (if_pos hbit).trans (okay rfl), fun hphases => (if_pos hphases).trans (okay rfl)⟩,
      fun k hindex hopen hgood => ?_, fun hmin => okay ?_, fun hmin hmax => okay ?_, fun g i => okay rfl,
      fun hcommit hopen hgood => ?_, okay rfl, fun hcommit hgood => ?_, okay rfl⟩
    · exact (if_neg (by simp [hup])).trans ((if_neg (by simp [hindex])).trans (okay (by simp [hopen, hgood])))
    · simpa using hmin
    · simp [Nat.not_lt.2 hmin, Nat.not_lt.2 hmax]
    · exact (if_neg (by simp [hcommit])).trans (okay (by simp [hopen, hgood]))
    · exact (if_neg (by simp [hcommit])).trans (okay hgood)
  · exact (if_neg (by simp [hup])).trans ((if_neg (by simp)).trans (if_neg (by simp [hlock])))
  · refine (if_neg (by simp [hup])).trans ((if_neg (by simp)).trans (if_neg ?_))
    rcases hdest with h | ⟨hversion, hline⟩
    · simp [hlock, h]
    · simp [hlock, hline, Nat.not_lt.2 hversion]
  · exact (if_neg (by simp [hup])).trans ((if_neg (by simp)).trans (if_neg (by simp [hlock])))
  · exact (if_neg (by simp [hup])).trans ((if_neg (by simp [hlock])).trans (if_neg (by simp)))
  · refine (if_neg (by simp [hup])).trans ((if_neg (by simp [hlock])).trans ((if_pos rfl).trans (if_neg ?_)))
    rcases hmgr with h | h <;> simp [h]

end Sys2Proof.Machine

/-! ### The launch of tickets

What the grant pass, the ticket port, the life of a ticket and the two sides of a sync set do, and what the ballast and the shares
of a domain report. -/

namespace Sys2Proof.Machine

/-! ### The grant pass (R99, R101, R116, R120, R274) -/

theorem slotUp_mod_eight (t : Nat) : slotUp t % 8 = 0 := Nat.mul_mod_right 8 _

/-- The first slot that is tried is a slot: each of the 64 that items 2 and 3 of R116 may pass over starts 8 ticks after the last. -/
theorem firstSlot_mod_eight (d : Nat) (x : Ticket) (now : Nat) (s : State) : s.firstSlot d x now % 8 = 0 := by
  have hlo := slotUp_mod_eight (max x.earliest (now + 8))
  unfold State.firstSlot
  dsimp only
  split
  next k _ => omega
  next => omega

/-- Settles O33: a pass that runs tries its candidates where there is a valid time and a supply, and notes the time as what the
queued tickets wait for where there is not. -/
theorem grantPassesTryCandidatesInOrder : Obligations.GrantPassesTryCandidatesInOrder := by
  refine ⟨fun s => ⟨fun hfrozen hreset hvalid hsupply => ?_, fun hfrozen hreset hbarred => ?_, fun hnot => if_pos hnot⟩,
    firstSlot_mod_eight⟩
  · exact (if_neg (by simp [hfrozen, hreset])).trans (if_neg (by simp [hvalid, hsupply]))
  · exact (if_neg (by simp [hfrozen, hreset])).trans (if_pos (by simpa using hbarred))

/-! ### Ballast and shares (R96, R97, R126) -/

/-- Settles O20: each report is raised where its test has failed, and nothing happens elsewhere. -/
theorem ballastAndShareFaultsAreReported : Obligations.BallastAndShareFaultsAreReported := by
  refine ⟨fun d i n s hraise => ?_, fun d s hnone => ?_, fun m s => ⟨fun ⟨t, hmem, hlate⟩ => ?_, fun hearly => ?_⟩,
    fun t s hworks hosc => if_pos ⟨hworks, hosc⟩, fun t s hnot => if_neg ?_⟩
  · change execBallastMismatch d s = _
    rw [execBallastMismatch, hraise]
  · change execBallastMismatch d s = _
    rw [execBallastMismatch, hnone]
  · refine (if_pos (List.any_eq_true.2 ⟨t, hmem, decide_eq_true hlate⟩)).trans ?_
    rw [apply_ite Host.Outcome.next]
  · refine if_neg fun hany => ?_
    obtain ⟨t, hmem, hlate⟩ := List.any_eq_true.1 hany
    exact absurd (hearly t hmem) (Nat.not_lt.2 (of_decide_eq_true hlate))
  · rcases hnot with h | h <;> simp [h]

/-! ### The ticket port (R102 to R108) -/

section Port

variable {s : State} {c : Fin 32}

/-- A cluster whose ticket port takes messages: it is enabled, out of reset and past the fuse read. -/
def State.PortOpen (s : State) (c : Nat) : Prop :=
  (s.cluster c).disabled = false ∧ s.inst.inReset = false ∧ s.inst.fuseDone = true

theorem State.PortOpen.not_shut (h : s.PortOpen c) :
    ¬((s.cluster c).disabled = true ∨ s.inst.inReset = true ∨ ¬s.inst.fuseDone = true) := by
  obtain ⟨henabled, hreset, hfuses⟩ := h
  simp [henabled, hreset, hfuses]

/-- A request at an open port is captured in a freeze, waits for room in TK_RSP, or is taken. -/
theorem exec_ticketRequest_of_open (h : s.PortOpen c) (w : BitVec 96) (whole : Bool) : exec (.ticketRequest c w whole) s =
    if s.obs.frozen then .next (s.captureReq c (.ticketRequest c w whole) true)
    else if (s.cluster c).full ∨ ¬(s.cluster c).rspWait.isEmpty then
      .next (s.updCluster c fun x => { x with reqWait := x.reqWait ++ [(s.time, .ticketRequest c w whole)] })
    else .next (s.takeRequest c w.toNat whole s.time) :=
  if_neg h.not_shut

/-- A DONE report at an open port is captured in a freeze, ends its ticket, or is a port error. -/
theorem exec_doneReport_of_open (h : s.PortOpen c) (w : Word) (whole : Bool) : exec (.doneReport c w whole) s =
    let n := w.toNat
    let x := s.ticket (bits n 27 12)
    if s.obs.frozen then .next (s.captureReq c (.doneReport c w whole) false)
    else if whole ∧ crc8 24 (n / 256) = n % 256 ∧ bits n 31 28 = 1 ∧ x.used ∧ x.cluster = c ∧ x.state.inLedger ∧
        ¬(x.state.runs ∧ x.runEnd ≤ s.time) then
      .next (s.finish (bits n 27 12) .done)
    else .next (s.portErr c 1) :=
  if_neg h.not_shut

/-- What an accepted COUNT report changes (R138, R343): the value `v` for counter `k` goes to ticket `i`, to the engine and to the run of
cluster `c`, and its energy is charged. -/
def State.count (s : State) (c i k v : Nat) : State :=
  let sat (a : Nat) : Nat := min (2 ^ 64 - 1) (a + v)
  (((s.updTicket i fun x => { x with cnt := tset 0 x.cnt k (sat (tget 0 x.cnt k)) }).chargeDyn i k v).updEng fun e =>
    { e with cntNow := tset 0 e.cntNow (16 * c + k) (min (2 ^ 31 - 1) (tget 0 e.cntNow (16 * c + k) + v)) }).updCluster c fun y =>
      if y.runTicket = i ∧ y.runFrom.isSome then { y with runCnt := tset 0 y.runCnt k (sat (tget 0 y.runCnt k)) } else y

/-- A COUNT report at an open port is captured in a freeze, counted for its ticket, or is a port error. -/
theorem exec_countReport_of_open (h : s.PortOpen c) (w : BitVec 96) (whole : Bool) : exec (.countReport c w whole) s =
    let n := w.toNat
    let x := s.ticket (bits n 91 76)
    if s.obs.frozen then .next (s.captureReq c (.countReport c w whole) false)
    else if whole ∧ crc8 88 (n / 256) = n % 256 ∧ bits n 95 92 = 2 ∧ x.used ∧ x.cluster = c ∧ x.state.runs then
      .next (s.count c (bits n 91 76) (bits n 75 72) (bits n 71 8))
    else .next (s.portErr c 1) :=
  if_neg h.not_shut

end Port

/-- Settles O30: the request meets an open port (`exec_ticketRequest_of_open`), and the checks refuse it or pass it. -/
theorem ticketRequestsAreAnsweredOrTaken : Obligations.TicketRequestsAreAnsweredOrTaken := by
  intro c w whole s henabled hreset hfuses
  have hrow := exec_ticketRequest_of_open (s := s) ⟨henabled, hreset, hfuses⟩ w whole
  refine ⟨fun hfrozen => hrow.trans (if_pos hfrozen), fun hfrozen hfull => ?_, fun hfrozen hroom hnowait => ?_⟩
  · exact hrow.trans ((if_neg (by simp [hfrozen])).trans (if_pos (by simpa using hfull)))
  · have htaken : exec (.ticketRequest c w whole) s = .next (s.takeRequest c w.toNat whole s.time) :=
      hrow.trans ((if_neg (by simp [hfrozen])).trans (if_neg (by simp [hroom, hnowait])))
    refine ⟨fun st hrefused => ?_, fun hpassed => ⟨fun hsync => ?_, fun hsync => ?_⟩⟩
    · rw [htaken, State.takeRequest, hrefused]
    · rw [htaken, State.takeRequest, hpassed]
      exact congrArg _ (if_neg (by simp [hsync]))
    · rw [htaken, State.takeRequest, hpassed]
      exact congrArg _ (if_pos hsync)

/-- Settles O31: a report at an open port is taken where every check holds, and is a port error where one fails. -/
theorem reportsReachTheirOwnTicket : Obligations.ReportsReachTheirOwnTicket := by
  refine ⟨fun c w s henabled hreset hfuses hfrozen => ?_, fun c w s henabled hreset hfuses hfrozen => ?_,
    fun c w v whole s henabled hreset hfuses hfrozen => ?_⟩
  · have hrow (whole : Bool) := (exec_doneReport_of_open (s := s) ⟨henabled, hreset, hfuses⟩ w whole).trans
      (if_neg (ne_true_of_eq_false hfrozen))
    refine ⟨fun hcrc hcode hused hmine hledger hintime => ?_, fun whole hbad => (hrow whole).trans (if_neg ?_)⟩
    · refine (hrow true).trans (if_pos ⟨rfl, hcrc, hcode, hused, hmine, hledger, fun ⟨hruns, hlate⟩ => ?_⟩)
      rcases hintime with h | h
      · exact ne_true_of_eq_false h hruns
      · omega
    · rintro ⟨hwhole, hcrc, hcode, hused, hmine, hledger, hintime⟩
      rcases hbad with h | h | h | h | h | h | h
      · exact ne_true_of_eq_false h hwhole
      · exact h hcrc
      · exact h hcode
      · exact ne_true_of_eq_false h hused
      · exact h hmine
      · exact ne_true_of_eq_false h hledger
      · exact hintime h
  · have hrow (whole : Bool) := (exec_countReport_of_open (s := s) ⟨henabled, hreset, hfuses⟩ w whole).trans
      (if_neg (ne_true_of_eq_false hfrozen))
    refine ⟨fun hcrc hcode hused hmine hruns => (hrow true).trans (if_pos ⟨rfl, hcrc, hcode, hused, hmine, hruns⟩),
      fun whole hbad => (hrow whole).trans (if_neg ?_)⟩
    rintro ⟨hwhole, hcrc, hcode, hused, hmine, hruns⟩
    rcases hbad with h | h | h | h | h | h
    · exact ne_true_of_eq_false h hwhole
    · exact h hcrc
    · exact h hcode
    · exact ne_true_of_eq_false h hused
    · exact h hmine
    · exact ne_true_of_eq_false h hruns
  · have hopen : s.PortOpen c := ⟨henabled, hreset, hfuses⟩
    exact ⟨(exec_doneReport_of_open hopen w whole).trans (if_pos hfrozen),
      (exec_countReport_of_open hopen v whole).trans (if_pos hfrozen)⟩

/-! ### The channels of a cluster (R106, R124, R189, R370) -/

/-- Settles O32: a response leaves where one is pending, a stretch sample counts, and the codes of a margin are Gray codes. -/
theorem clusterChannelsAreFollowed : Obligations.ClusterChannelsAreFollowed := by
  refine ⟨fun c w r s hfrozen hrsp => ?_, fun c s hnone => ?_, fun c s hfrozen => if_pos hfrozen, fun c s hreset hfrozen => ?_,
    fun c s hreset hfrozen => ?_, fun c g s => rfl, by decide, by decide, by decide, by decide, by decide⟩
  · refine (if_neg (ne_true_of_eq_false hfrozen)).trans ?_
    rw [hrsp]
    rfl
  · change execTicketResponse c s = _
    rw [execTicketResponse, hnone, ite_self]
  · exact (if_neg (ne_true_of_eq_false hreset)).trans (if_pos hfrozen)
  · exact (if_neg (ne_true_of_eq_false hreset)).trans (if_neg (ne_true_of_eq_false hfrozen))

/-! ### The life of a ticket (R110, R112, R125, R343, R344) -/

/-- Settles O34: each row acts where its ticket is in the row's state and the row's tick has come, and in no freeze. -/
theorem ticketsRunThroughTheirStates : Obligations.TicketsRunThroughTheirStates := by
  refine ⟨fun i s hused hstate hballast htick hfrozen => ?_, fun d i s => ⟨fun b hbase => ?_, fun hbase => ?_⟩,
    fun i s hused hstate htick hfrozen => if_pos ⟨hused, hstate, htick, by simp [hfrozen]⟩,
    fun i s hused hstate htick hfrozen => if_pos ⟨hused, hstate, htick, by simp [hfrozen]⟩,
    fun i s hused hfrozen => ⟨fun hstate htick => ?_, fun hstate htick => ?_⟩, fun i s hfrozen => ⟨?_, ?_, ?_, ?_⟩⟩
  · refine (if_pos ⟨hused, hstate, hballast, htick, by simp [hfrozen]⟩).trans ?_
    dsimp only
    cases s.tkDom (s.ticket i) with
    | none => rfl
    | some d => exact (apply_ite Host.Outcome.next ..).symm
  · rw [State.latchBase, hbase]
  · rw [State.latchBase, hbase]
  · have hwaits : ((s.ticket i).state == .queued || (s.ticket i).state == .requested) = true := by simpa using hstate
    refine (if_pos ⟨hused, by simp [hfrozen], .inl ⟨hwaits, htick⟩⟩).trans ?_
    rw [if_pos hwaits]
  · have hwaits : ¬((s.ticket i).state == .queued || (s.ticket i).state == .requested) = true := by
      rcases hstate with h | h <;> simp [h]
    have hruns : (s.ticket i).state.runs = true := by rcases hstate with h | h <;> rw [h] <;> rfl
    refine (if_pos ⟨hused, by simp [hfrozen], .inr ⟨hruns, htick⟩⟩).trans ?_
    rw [if_neg hwaits]
  · exact if_neg (by simp [hfrozen])
  · exact if_neg (by simp [hfrozen])
  · exact if_neg (by simp [hfrozen])
  · exact if_neg (by simp [hfrozen])

/-! ### Sync sets (R128 to R131, R239) -/

/-- A flit that is taken outside a freeze has its effect on the state that has passed it on and noted it. -/
theorem recv_of_takes {s : State} {kind : Nat} {r : Ring} {f : Flit} {c : Instr} {act : State → State}
    (hfrozen : s.obs.frozen = false) (htakes : s.takes kind r f = true) :
    s.recv kind r f c act = .next (act (s.taken r f)) :=
  (if_neg (by simp [hfrozen])).trans (if_pos htakes)

/-- Settles O35: each flit has its row's effect on its members (`recv_of_takes`); a proposal is a vote for its slot where all can be
booked and for another where not, a commit turns on the time, and a withdrawal on whether it is meant for all. -/
theorem fieldsVoteAndGrantTheirMembers : Obligations.FieldsVoteAndGrantTheirMembers := by
  intro f r s hfrozen
  refine ⟨fun htakes => ?_, fun htakes hmem => ⟨fun hfits => ?_, fun hmisfit => ?_⟩,
    fun htakes => ⟨fun hvalid => ?_, fun hvalid hmem => ?_⟩, fun htakes => ?_, fun htakes hbc => ?_,
    fun htakes hbc hmgr => ?_⟩
  · change execSgSet ⟨f, r⟩ s = _
    unfold execSgSet
    exact recv_of_takes hfrozen htakes
  · change execSgProp ⟨f, r⟩ s = _
    rw [execSgProp, recv_of_takes hfrozen htakes]
    exact congrArg _ ((if_neg (by simpa using hmem)).trans (if_pos hfits))
  · change execSgProp ⟨f, r⟩ s = _
    rw [execSgProp, recv_of_takes hfrozen htakes]
    exact congrArg _ ((if_neg (by simpa using hmem)).trans (if_neg (ne_true_of_eq_false hmisfit)))
  · change execSgCommit ⟨f, r⟩ s = _
    rw [execSgCommit, recv_of_takes hfrozen htakes]
    exact congrArg _ (if_pos hvalid)
  · change execSgCommit ⟨f, r⟩ s = _
    rw [execSgCommit, recv_of_takes hfrozen htakes]
    exact congrArg _ ((if_neg (ne_true_of_eq_false hvalid)).trans (if_neg (by simpa using hmem)))
  · change execSgCancel ⟨f, r⟩ s = _
    unfold execSgCancel
    exact recv_of_takes hfrozen htakes
  · change execSgWd ⟨f, r⟩ s = _
    rw [execSgWd, recv_of_takes hfrozen htakes]
    exact congrArg _ (if_neg (by simp [hbc]))
  · change execSgWd ⟨f, r⟩ s = _
    rw [execSgWd, recv_of_takes hfrozen htakes]
    exact congrArg _ ((if_pos (by simp [hbc])).trans (if_pos hmgr))

/-- Settles O36: each flit has its row's effect on the manager's sets (`recv_of_takes`), and the rounds and sets that a row looks for
are the ones it fails or withdraws. -/
theorem theManagerCollectsSyncSets : Obligations.TheManagerCollectsSyncSets := by
  refine ⟨fun f r s hfrozen htakes hmgr => ?_, fun f r s hfrozen htakes => ?_, fun f r x s hfrozen htakes hfind => ?_,
    fun g x s hfrozen hfind => ?_, fun g x s hfrozen hfind => ?_⟩
  · change execSgFwd ⟨f, r⟩ s = _
    rw [execSgFwd, recv_of_takes hfrozen htakes]
    exact congrArg _ (if_neg (by simp [hmgr]))
  · change execSgVote ⟨f, r⟩ s = _
    unfold execSgVote
    exact recv_of_takes hfrozen htakes
  · change execSgDrop ⟨f, r⟩ s = _
    rw [execSgDrop, recv_of_takes hfrozen htakes]
    dsimp only
    rw [hfind]
  · change execSgVoteTimeout g s = _
    rw [execSgVoteTimeout, hfind]
    exact if_neg (ne_true_of_eq_false hfrozen)
  · change execSgFail g s = _
    rw [execSgFail, hfind]
    exact if_neg (ne_true_of_eq_false hfrozen)

end Sys2Proof.Machine

/-! ### Periods and windows of the engine (R159, R160, R163) -/

namespace Sys2Proof.Machine

/-- Settles O27: a period starts at its boundary where the engine runs, and each activity has its own branch for the work left on a
lane; the forecaster and the attribution note the frame in which they report. -/
theorem forecasterPeriodsAndLeftWork : Obligations.ForecasterPeriodsAndLeftWork := by
  refine ⟨fun s hreset => ⟨fun htick hruns => if_neg (by simp [htick, hreset, hruns]), fun hnot => if_pos ?_⟩,
    fun l s hleft => if_neg (by simpa using hleft), fun l s hleft hend => ?_, fun l s hleft hend => ?_, fun l s => ⟨rfl, rfl⟩⟩
  · rcases hnot with htick | hstopped
    · exact .inl htick
    · exact .inr (.inr (ne_true_of_eq_false hstopped))
  · have hdue : ¬((s.eng.lane l).leftAt.isEmpty ∨ s.time % 256 < 240) := by simp [hleft, hend]
    exact (if_neg hdue).trans (apply_ite Host.Outcome.next ..).symm
  · have hdue : ¬((s.eng.lane l).leftFc.isEmpty ∨ s.time % (16 * s.eng.fcPer) < 16 * (s.eng.fcPer - 1)) := by simp [hleft, hend]
    exact (if_neg hdue).trans (apply_ite Host.Outcome.next ..).symm

/-! ### Bad pages and their arrays (R166, R167) -/

/-- A recheck that is due, after the frame of the failure and not grounded by a lockstep mismatch, reads the page: one that passes
is charged to its array, and one that fails is reloaded. -/
theorem exec_pageRecheck_of_due {pg : Fin 8192} {b : BadPage} {s : State} (hbad : tget none s.eng.bad pg.val = some b)
    (hsince : b.since < frameOf s.time) (hasked : b.asked = false) (hgood : b.goodAt = none)
    (hserves : s.grounded = false ∨ s.inst.lockstep = false) (ok : Bool) :
    exec (.pageRecheck pg ok) s =
      if ok = true ∧ s.chkAgrees pg = true then
        .next ((s.updEng fun e => { e with charges := tset 0 e.charges b.array (tget 0 e.charges b.array + 1) }).updBad pg
          fun x => { x with goodAt := some (nextFrame s.time) })
      else .next (s.reloadPage pg) := by
  have hdue : ¬(frameOf s.time ≤ b.since ∨ b.asked ∨ b.goodAt.isSome ∨ s.grounded && s.inst.lockstep) := by
    rcases hserves with h | h <;> simp [hsince, hasked, hgood, h]
  change execPageRecheck pg ok s = _
  rw [execPageRecheck, hbad]
  exact if_neg hdue

theorem State.reloadPage_of_hmod {s : State} {pg : Nat} (h : s.eng.hmod.contains pg = true) :
    s.reloadPage pg = s.restorePage pg := if_pos h

theorem State.reloadPage_of_not_hmod {s : State} {pg : Nat} (h : s.eng.hmod.contains pg = false) :
    s.reloadPage pg = s.askPage pg := if_neg (ne_true_of_eq_false h)

/-- Settles O28: a due recheck passes or reloads (`exec_pageRecheck_of_due`), the restored page is good or raised as its cells read
back, and the third charge retires an array in which no retirement stands or waits. -/
theorem badPagesAreRecheckedAndReloaded : Obligations.BadPagesAreRecheckedAndReloaded := by
  refine ⟨fun pg b ok s hbad hsince hasked hgood hserves => ?_, fun pg s => ⟨fun hback => if_pos hback,
    fun hback => if_neg (ne_true_of_eq_false hback)⟩, fun pg ok s hnone => ?_, fun a s hcharged hin hnext => ?_⟩
  · have hrow := exec_pageRecheck_of_due hbad hsince hasked hgood hserves ok
    refine ⟨fun hok hagrees => hrow.trans (if_pos ⟨hok, hagrees⟩), fun hfails => ?_⟩
    have hreload : exec (.pageRecheck pg ok) s = .next (s.reloadPage pg) := by
      refine hrow.trans (if_neg fun ⟨hok, hagrees⟩ => ?_)
      rcases hfails with h | h
      · exact ne_true_of_eq_false h hok
      · exact ne_true_of_eq_false h hagrees
    exact ⟨fun hmod => hreload.trans (congrArg _ (State.reloadPage_of_hmod hmod)),
      fun hmod => hreload.trans (congrArg _ (State.reloadPage_of_not_hmod hmod))⟩
  · change execPageRecheck pg ok s = _
    rw [execPageRecheck, hnone]
  · exact if_pos ⟨hcharged, ne_true_of_eq_false hin, ne_true_of_eq_false hnext⟩

/-- What the chunk of a flit makes of a page that was asked for: the buffer takes it, and with the last chunk the page is written
and read back, well or not (R166). -/
def State.reloadChunk (s : State) (f : Flit) (ok : Bool) : State :=
  let pg := fbits f 104 92
  let c := s.takeChunk pg (fbits f 91 87) (fbits f 86 23)
  if c.eng.reloadGot.length < 32 then c
  else
    let u := (c.writePage pg (readBytes 0 c.eng.reload 0 256)).updEng fun e => { e with
      loadPage := none, reload := [], reloadGot := [] }
    if ok then
      (u.updBad pg fun b => { b with
        asked := false, failed := false, goodAt := some (nextFrame u.time) }).endCause cEngPageReloadFail u.srcInst
    else (u.updBad pg fun b => { b with failed := true }).raiseInst cEngPageReloadFail pg

/-- PAGE_DATA that is taken acts only on a page that is bad and was asked for. -/
theorem exec_pageData_of_takes {f : Flit} {r : Ring} {s : State} (hfrozen : s.obs.frozen = false) (htakes : s.takes 0x1A r f = true)
    (ok : Bool) : exec (.pageData ⟨f, r⟩ ok) s = .next (
      let t := s.taken r f
      if (tget none t.eng.bad (fbits f 104 92)).all fun b => !b.asked then t else t.reloadChunk f ok) := by
  change execPageData ⟨f, r⟩ ok s = _
  rw [execPageData, recv_of_takes hfrozen htakes]
  rfl

/-- Settles O29: a request is answered by the manager with a good image (`recv_of_takes`), and a chunk acts on a bad page that was
asked for (`exec_pageData_of_takes`), which it writes where 32 chunks are in. -/
theorem pagesTravelInThirtyTwoChunks : Obligations.PagesTravelInThirtyTwoChunks := by
  refine ⟨fun f r s hfrozen htakes hmgr hverdict => ?_, fun f r ok b s hfrozen htakes hbad hasked => ?_,
    fun f r ok s hfrozen htakes hnone => ?_⟩
  · change execPageReq ⟨f, r⟩ s = _
    rw [execPageReq, recv_of_takes hfrozen htakes]
    exact congrArg _ (if_pos ⟨hmgr, hverdict⟩)
  · have hchunk : exec (.pageData ⟨f, r⟩ ok) s = .next ((s.taken r f).reloadChunk f ok) :=
      (exec_pageData_of_takes hfrozen htakes ok).trans (congrArg _ (if_neg (by simp [hbad, hasked])))
    exact ⟨fun hfew => hchunk.trans (congrArg _ (if_pos hfew)),
      fun hall => hchunk.trans (congrArg _ (if_neg (Nat.not_lt.2 hall)))⟩
  · exact (exec_pageData_of_takes hfrozen htakes ok).trans (congrArg _ (if_pos (by simp [hnone])))

end Sys2Proof.Machine

/-! ### Limits, caps, stops and decisions

What a ladder, the manager's part of the caps, the stops and the die decisions do, each where its test holds and where it does not. -/

namespace Sys2Proof.Machine

/-! ### Ladders (R187 to R189) -/

/-- Settles O23: a notch down turns on the allocation and then on the sum, the frames since the last step and the group; a notch up
turns on the frames counted under the allocation. -/
theorem laddersStepNotchByNotch : Obligations.LaddersStepNotchByNotch := by
  refine ⟨fun k a s halloc htime hover hdue hgroup => ?_, fun k s hnone => ?_,
    fun k s htime halloc hcount => if_pos ⟨htime, Option.isSome_iff_ne_none.2 halloc, hcount⟩,
    fun k s hfew => if_neg fun ⟨_, _, hcount⟩ => absurd hcount (Nat.not_le.2 hfew)⟩
  · change execLadderNotchDown k s = _
    rw [execLadderNotchDown, halloc]
    exact (if_pos ⟨htime, hover, hdue⟩).trans (if_neg (by simpa using hgroup))
  · change execLadderNotchDown k s = _
    rw [execLadderNotchDown, hnone]

/-! ### The manager's part of the caps (R186, R192, R204, R424) -/

/-- Settles O24: each row acts where its test holds, and each test asks for the manager, so that none holds on a worker. -/
theorem theManagerAllocatesInFrameFour : Obligations.TheManagerAllocatesInFrameFour := by
  refine ⟨fun s hmgr hready hframe hround hfrozen hlock hfactory =>
      if_pos ⟨hmgr, hready, hframe, hround, by simp [hfrozen], by simp [hlock], by simp [hfactory]⟩,
    fun s hworker => ?_, fun s hmgr hcap hrounds => if_pos ⟨hmgr, hcap, hrounds⟩,
    fun s hmgr hrounds hfirst => if_pos ⟨hmgr, hrounds, by simp [hfirst]⟩⟩
  have hnot : ¬s.inst.manager = true := ne_true_of_eq_false hworker
  exact ⟨if_neg fun h => hnot h.left, if_neg fun h => hnot h.left, if_neg fun h => hnot h.left⟩

/-! ### Stops (R196, R198, R274, R351, R356) -/

/-- COOL_STOP is no flit that a freeze holds back: it has its effect wherever it is taken (R351). -/
theorem recv_coolStop_of_takes {s : State} {r : Ring} {f : Flit} {c : Instr} {act : State → State} (htakes : s.takes 0x05 r f = true) :
    s.recv 0x05 r f c act = .next (act (s.taken r f)) :=
  (if_neg (by simp)).trans (if_pos htakes)

/-- Outside a freeze there is none to end. -/
theorem State.endFreeze_of_not_frozen {s : State} (hfrozen : s.obs.frozen = false) : s.endFreeze = s :=
  if_neg (ne_true_of_eq_false hfrozen)

/-- Settles O26: an input acts where it is not in force already and the field is out of reset; COOL_STOP is taken in a freeze too
(`recv_coolStop_of_takes`), COOL_LOSS outside one (`recv_of_takes`), where only the manager acts on it. -/
theorem stopsEndAFreezeAndAct : Obligations.StopsEndAFreezeAndAct := by
  refine ⟨fun i code s hhot hfirst hreset => if_pos ⟨hhot, by simp [hfirst], by simp [hreset]⟩,
    fun s hreset => if_neg (ne_true_of_eq_false hreset), fun s hfirst hreset => if_neg (by simp [hfirst, hreset]),
    fun s hfailed => ⟨if_pos (.inl hfailed), if_pos hfailed⟩, fun f r s htakes => ?_,
    fun f r s hfrozen htakes => ⟨fun hmgr => ?_, fun hworker => ?_⟩, fun s => State.endFreeze_of_not_frozen⟩
  · change execCoolStop ⟨f, r⟩ s = _
    unfold execCoolStop
    exact recv_coolStop_of_takes htakes
  · change execCoolLoss ⟨f, r⟩ s = _
    rw [execCoolLoss, recv_of_takes hfrozen htakes]
    exact congrArg _ (if_neg (by simp [hmgr]))
  · change execCoolLoss ⟨f, r⟩ s = _
    rw [execCoolLoss, recv_of_takes hfrozen htakes]
    exact congrArg _ (if_pos (ne_true_of_eq_false hworker))

/-! ### Die decisions (R15, R173, R186, R229, R239) -/

/-- A decision for a time to come is kept for it. -/
theorem State.takeDec_of_ahead {s : State} {eff : Nat} (hahead : s.time < eff) (k : DecKind) : s.takeDec eff k = s.addDec eff k :=
  if_pos hahead

/-- A decision for a time that has passed counts as late, and is kept for the next frame start. -/
theorem State.takeDec_of_passed {s : State} {eff : Nat} (hpassed : eff ≤ s.time) (k : DecKind) :
    s.takeDec eff k = (s.updTth fun t => { t with late := min 65535 (t.late + 1) }).addDec (nextFrame s.time) k :=
  if_neg (Nat.not_lt.2 hpassed)

/-- Settles O41: a decision that is taken (`recv_of_takes`) is kept by its time (`State.takeDec_of_ahead`,
`State.takeDec_of_passed`), and the decisions that are due are applied unless a freeze or a step of the time bars it. -/
theorem dieDecisionsActAtTheirTime : Obligations.DieDecisionsActAtTheirTime := by
  refine ⟨fun f r s hfrozen htakes => ?_, fun f r s hfrozen htakes => ⟨fun hclass => ?_, fun hreserved => ?_⟩,
    fun s eff k => ⟨fun hahead => State.takeDec_of_ahead hahead k, fun hpassed => State.takeDec_of_passed hpassed k⟩,
    fun s hfrozen hreset hnostep => if_neg ?_, fun s hbarred => if_pos ?_⟩
  · change execDdMode ⟨f, r⟩ s = _
    unfold execDdMode
    exact recv_of_takes hfrozen htakes
  · change execDdAlloc ⟨f, r⟩ s = _
    rw [execDdAlloc, recv_of_takes hfrozen htakes]
    exact congrArg _ (if_neg (Nat.ne_of_lt hclass))
  · change execDdAlloc ⟨f, r⟩ s = _
    rw [execDdAlloc, recv_of_takes hfrozen htakes]
    exact congrArg _ (if_pos hreserved)
  · rcases hnostep with hstep | htick
    · simp [hfrozen, hreset, hstep]
    · simp [hfrozen, hreset, htick]
  · rcases hbarred with hfrozen | hstep
    · exact .inl hfrozen
    · exact .inr (.inr hstep)

end Sys2Proof.Machine

/-! ### The manager and the tether

What a flit that is sent again, a TIME, the flits of two dies and the rows of start-up do, each where its test holds and where it
does not. -/

namespace Sys2Proof.Machine

/-! ### Resending (R215, R218) -/

/-- The ring of the next sending of a flit (R218): the other one where that is not down, and both where it was sent on both. -/
def State.nextRing (s : State) (ring : Nat) : Nat :=
  let other := if ring = 3 then 3 else 3 - ring
  if (if other = 1 then s.tth.ring1Down else s.tth.ring2Down && other == 2) then ring else other

@[simp] theorem State.nextRing_three (s : State) : s.nextRing 3 = 3 := by simp [State.nextRing]

@[simp] theorem State.nextRing_one (s : State) : s.nextRing 1 = if s.tth.ring2Down = true then 1 else 2 := by simp [State.nextRing]

@[simp] theorem State.nextRing_two (s : State) : s.nextRing 2 = if s.tth.ring1Down = true then 2 else 1 := by simp [State.nextRing]

/-- A slot whose flit is 32 ticks out, in ring mode and outside a freeze: after three sendings its flit is given up, before that it
is sent again. -/
theorem exec_flitResend_of_due {q : Fin 64} {x : Slot} {s : State}
    (hdue : s.tth.slots.find? (fun x => fSeq x.word == q.val && decide (x.sentAt + 32 ≤ s.time)) = some x)
    (hline : s.lineMode = false) (hfrozen : s.obs.frozen = false) :
    exec (.flitResend q) s =
      if 3 ≤ x.sends then
        .next ((s.updTth fun t => { t with slots := t.slots.erase x, undel := min 65535 (t.undel + 1) }).raiseInst cTthUndelivered 0)
      else .next ((s.updTth fun t => { t with
        slots := t.slots.map fun z =>
          if z = x then { x with ring := s.nextRing x.ring, sentAt := s.time, sends := x.sends + 1 } else z
        seqUse := tset 0 t.seqUse (fSeq x.word) (s.time + 1) }).putOut (s.nextRing x.ring) x.word) := by
  change execFlitResend q s = _
  rw [execFlitResend, hdue]
  exact if_neg (by simp [hline, hfrozen])

/-- Settles O38: a slot that is due is given up or sent again (`exec_flitResend_of_due`), on the ring that `State.nextRing` names. -/
theorem flitsAreSentAgainUntilTheyReturn : Obligations.FlitsAreSentAgainUntilTheyReturn := by
  refine ⟨fun q x s hdue hline hfrozen => ?_, fun f r s hok hsrc hreset => if_pos ⟨hok, hsrc, ne_true_of_eq_false hreset⟩,
    fun s hreset => ⟨if_neg (ne_true_of_eq_false hreset), if_neg (ne_true_of_eq_false hreset)⟩⟩
  have hrow := exec_flitResend_of_due hdue hline hfrozen
  refine ⟨fun hthree => hrow.trans (if_pos hthree), fun ring hfew hring => ?_⟩
  have hnext : s.nextRing x.ring = ring := by
    rcases hring with ⟨hfrom, rfl⟩ | ⟨hfrom, rfl⟩ | ⟨hfrom, rfl⟩ <;> simp [hfrom]
  rw [hrow, if_neg (Nat.not_le.2 hfew), hnext]

/-! ### Time (R226, R227, R229, R231) -/

/-- A TIME of the manager that comes in whole: in a freeze it is captured; else it is passed on, and shows the manager the revolution
of its ring, or a worker the time. -/
theorem exec_time_of_intact {f : Flit} {s : State} (hreset : s.inst.inReset = false) (hpll : s.inst.pll = true)
    (hok : flitOk f = true) (hkind : fKind f = 0x02) (hsrc : some (fSrc f) = s.mgrId) (r : Ring) (x : Fin 16) :
    exec (.time f r x) s =
      if s.obs.frozen then .next (s.captureFlit r (.time f r x))
      else
        let u := s.passOn r f
        let rev := min 255 (16 * u.time + x.val - u.tth.timeSent1)
        if u.inst.manager then
          .next (u.updTth fun t => match r with
            | .one => { t with back1 := true, rev1 := rev }
            | .two => { t with back2 := true, rev2 := rev })
        else .next (u.workerTime f r (16 * u.time + x.val)) :=
  if_neg (by simp [hreset, hpll, hok, hkind, hsrc])

/-- Settles O39: a whole TIME goes to the manager's part or the worker's (`exec_time_of_intact`), and the two rows act where their
tests hold. -/
theorem timeIsHeldToTheManagers : Obligations.TimeIsHeldToTheManagers := by
  refine ⟨fun f r x s hreset hpll hok hkind hsrc => ?_, fun s hinvalid => ⟨fun hfour => if_pos ⟨hfour, ne_true_of_eq_false hinvalid⟩,
    fun hfew => if_neg fun ⟨hfour, _⟩ => absurd hfour (Nat.not_le.2 hfew)⟩,
    fun s hstep htick hfrozen => if_pos ⟨hstep, htick, ne_true_of_eq_false hfrozen⟩,
    fun s hnone => if_neg fun ⟨hstep, _⟩ => ne_true_of_eq_false hnone hstep⟩
  have hrow := exec_time_of_intact hreset hpll hok hkind hsrc r x
  refine ⟨fun hfrozen => hrow.trans (if_pos hfrozen), fun hfrozen => ?_⟩
  have hpassed := hrow.trans (if_neg (ne_true_of_eq_false hfrozen))
  exact ⟨fun hmgr => hpassed.trans (if_pos hmgr), fun hworker => hpassed.trans (if_neg (ne_true_of_eq_false hworker))⟩

/-! ### The off-die port (R230, R236 to R238) -/

/-- A flit of the partner that is taken: a FOLLOWER that is asked has met another, and else the manager answers until a clash
is known. -/
theorem exec_xtReq_of_takes {f : Flit} {s : State} (htakes : s.xtTakes 0x1C f = true) (x : Fin 16) :
    exec (.xtReq f x) s =
      let u := s.xtHear f
      if u.xtRole = 2 then .next u.xtClash
      else if u.mgr.xtRoleBad then .next u
      else .next (({ u with fresh := u.fresh + 1 } : State).sendXt 0x1D
        (t64 u.time 41 + x.val * 2 ^ 37 + Config.xtTurn u.fresh % 2 ^ 20 * 2 ^ 17)) :=
  if_neg (not_not_intro htakes)

/-- What an answer of the partner shows: the link is up, and an answer came at this tick. -/
def State.xtAnswered (s : State) (f : Flit) : State := (s.xtHear f).updMgr fun m => { m with xtRspAt := s.time }

/-- An answer that is taken: a SOURCE that is answered has met another; else it completes the exchange that waits for it. -/
theorem exec_xtRsp_of_takes {f : Flit} {s : State} (htakes : s.xtTakes 0x1D f = true) (x : Fin 16) :
    exec (.xtRsp f x) s =
      let u := s.xtAnswered f
      if u.xtRole = 1 then .next u.xtClash
      else match u.mgr.xtT1 with
        | none => .next u
        | some t1 => .next ((u.updMgr fun m => { m with xtT1 := none }).xtOffset (
            let t2 : Int := 16 * fbits f 104 41 + fbits f 40 37
            half ((t2 - t1) - ((16 * u.time + x.val : Int) - (t2 + fbits f 36 17))))) :=
  (if_neg (not_not_intro htakes)).trans rfl

/-- Settles O40: a request and an answer that are taken go by the role (`exec_xtReq_of_takes`, `exec_xtRsp_of_takes`), and the other
rows act where their tests hold. The turn-round of an answer is a free value (`Config.xtTurn`). -/
theorem twoDiesExchangeTimeAndLevel : Obligations.TwoDiesExchangeTimeAndLevel := by
  refine ⟨fun s hmgr hrole htick hfrozen hlock hreset => ⟨fun hagree hver => ?_, fun hclash => ?_⟩, fun f x s htakes => ?_,
    fun f x s htakes => ?_, fun s => ⟨fun hfirst => if_neg (ne_true_of_eq_false hfirst), fun hknown => if_pos hknown⟩,
    fun f s => ⟨fun htakes => if_pos htakes, fun hnot => if_neg (ne_true_of_eq_false hnot)⟩,
    fun clock s hmgr hrole hreset => ⟨fun hup hlost => ?_, fun hdown => ?_⟩⟩
  · exact if_pos ⟨hmgr, hrole, ne_true_of_eq_false hagree, hver, htick, ne_true_of_eq_false hfrozen, ne_true_of_eq_false hlock,
      ne_true_of_eq_false hreset⟩
  · exact if_neg fun ⟨_, _, hagree, _⟩ => hagree hclash
  · have hrow := exec_xtReq_of_takes htakes x
    exact ⟨fun hrole => hrow.trans (if_pos hrole),
      fun hrole hagree => hrow.trans ((if_neg hrole).trans (if_neg (ne_true_of_eq_false hagree))),
      fun hrole hclash => hrow.trans ((if_neg hrole).trans (if_pos hclash))⟩
  · have hrow := exec_xtRsp_of_takes htakes x
    refine ⟨fun hrole => hrow.trans (if_pos hrole), fun t1 hrole hasked => hrow.trans ((if_neg hrole).trans ?_),
      fun hrole hidle => hrow.trans ((if_neg hrole).trans ?_)⟩
    · rw [show (s.xtAnswered f).mgr.xtT1 = some t1 from hasked]
      rfl
    · rw [show (s.xtAnswered f).mgr.xtT1 = none from hidle]
      rfl
  · exact if_pos ⟨hmgr, hrole, ne_true_of_eq_false hup, ne_true_of_eq_false hreset, hlost⟩
  · exact if_neg fun ⟨_, _, hup, _⟩ => hup hdown

/-! ### Start-up (R219 to R221, R225, R240 to R247) -/

/-- The fuse values are in the registers, and FAULT_N is released, before anything is tested or sent (R242, R244). -/
def State.takeFuses (s : State) (x : FuseRead) : State :=
  (({ s with fuses := fusesOf x } : State).updInst fun n => { n with fuseDone := true, fuseBad := !(fusesOf x).crcOk }).updFlt
    fun f => { f with held := false }

/-- What the first fuse read tests and sends changes no kept field. -/
theorem exec_fuseRead_kept {x : FuseRead} {s : State} (hpll : s.inst.pll = true) (hfirst : s.inst.fuseDone = false) :
    Answers (exec (.fuseRead x) s) fun t => t.kept = (s.takeFuses x).kept := by
  refine ⟨_, if_neg (by simp [hpll, hfirst]), ?_⟩
  rw [← State.takeFuses]
  simp

/-- The first fuse read of a worker, with a good CRC and a version in common with every cluster. -/
theorem exec_fuseRead_of_sound {x : FuseRead} {s : State} (hpll : s.inst.pll = true) (hfirst : s.inst.fuseDone = false)
    (hworker : s.inst.manager = false) (hcrc : (fusesOf x).crcOk = true)
    (hvers : ∀ c : Nat, c < 32 → tkVerOk (nth (0, 0) x.tkVer c) = true) :
    exec (.fuseRead x) s = .next ((s.takeFuses x).sendEcho 5) := by
  have hnone : ((List.range 32).filter fun c => !tkVerOk (nth (0, 0) x.tkVer c)) = [] := by
    simpa [List.filter_eq_nil_iff] using hvers
  have hworks : ((s.takeFuses x).sendEcho 5).inst.manager = false :=
    (congrArg Kept.manager ((s.takeFuses x).sendEcho_kept 5)).trans hworker
  refine (if_neg (by simp [hpll, hfirst])).trans ?_
  rw [hnone, ← State.takeFuses]
  simp [hcrc, hworks, forL]

/-- The bytes of a device that are used: 16 MiB where it takes no longer address, and 64 MiB at most (R247, R329). -/
def usedBytes (x : Sfdp) : Nat :=
  if decide (0x1000000 < x.size) && !x.read4 && !x.enter4 then 0x1000000 else min x.size 0x4000000

theorem usedBytes_le (x : Sfdp) : usedBytes x ≤ 0x4000000 := by
  unfold usedBytes
  split <;> omega

/-- Settles O45: each step acts where it is due; of a fuse read the registers are a part that no later operation of it changes
(`exec_fuseRead_kept`), and the size of a device is bounded by `usedBytes_le`. -/
theorem startUpTakesItsSteps : Obligations.StartUpTakesItsSteps := by
  refine ⟨fun s hstrapped hreset hpll => if_pos ⟨hstrapped, ne_true_of_eq_false hreset, ne_true_of_eq_false hpll⟩,
    fun x s hpll hfirst => ?_, fun x s hpll hfirst hworker hcrc hvers => ?_, fun s hfuses htrained hfactory => ?_,
    fun a b s hfuses htrained hfactory hclosed => ?_, fun x s hmgr hnvm hfuses hverdict => ?_,
    fun x s hpll hdone => if_pos (.inr hdone), fun x s hpll hfirst => if_neg (by simp [hpll, hfirst])⟩
  · obtain ⟨t, ht, hkept⟩ := exec_fuseRead_kept (x := x) hpll hfirst
    exact ⟨t, ht, congrArg Kept.fuses hkept⟩
  · rw [exec_fuseRead_of_sound hpll hfirst hworker hcrc hvers, State.takeFuses, hcrc]
    rfl
  · exact (if_neg (by simp [hfuses, htrained, hfactory])).trans (if_pos (by simp))
  · refine (if_neg (by simp [hfuses, htrained, hfactory])).trans (if_neg ?_)
    rcases hclosed with h | h <;> simp [h]
  · exact ⟨_, if_neg (by simp [hmgr, hnvm, hfuses, hverdict]), rfl, rfl, usedBytes_le x, rfl, rfl, rfl, rfl⟩

end Sys2Proof.Machine

/-! ### What keeps the straps

O8 speaks of every state, while the laws on the operations that write a memory or the time (Sys2Proof/Laws/Invariant.lean) speak of
states that satisfy the invariant. What those laws say of the straps and the queue (`Kept.held`) is said here of every state: an
operation that changes no kept field keeps them by its own law, and the others write fields that are none of them. -/

namespace Sys2Proof.Machine

@[simp] theorem held_ite (c : Prop) [Decidable c] (a b : Kept) : (if c then a else b).held = if c then a.held else b.held :=
  apply_ite ..

@[simp] theorem forL_held {α : Type} (f : α → State → State) (l : List α) (s : State)
    (h : ∀ x s, (f x s).kept.held = s.kept.held) : (forL l f s).kept.held = s.kept.held := by
  induction l generalizing s with
  | nil => rfl
  | cons x r ih => exact (ih (f x s)).trans (h x s)

@[simp] theorem forIdx_held (f : Nat → State → State) (n : Nat) (s : State) (h : ∀ x s, (f x s).kept.held = s.kept.held) :
    (forIdx n f s).kept.held = s.kept.held := forL_held f _ s h

@[simp] theorem State.updEng_held (s : State) (f : Engine → Engine) : (s.updEng f).kept.held = s.kept.held := rfl
@[simp] theorem State.updLog_held (s : State) (f : Recorder → Recorder) : (s.updLog f).kept.held = s.kept.held := rfl
@[simp] theorem State.updObs_held (s : State) (f : Observe → Observe) : (s.updObs f).kept.held = s.kept.held := rfl
@[simp] theorem State.stepTime_held (s : State) (k : Int) : (s.stepTime k).kept.held = s.kept.held := rfl
@[simp] theorem State.sections_held (s : State) (c p : List Host.Cell) :
    ({ s with cfg := c, pend := p } : State).kept.held = s.kept.held := rfl

/-! ### Table pages and reloads (R164, R166, R421, R422) -/

@[simp] theorem State.writePage_held (s : State) (pg : Nat) (l : List (BitVec 8)) :
    (s.writePage pg l).kept.held = s.kept.held := rfl

@[simp] theorem State.writeHostPage_held (s : State) (pg : Nat) (l : List (BitVec 8)) :
    (s.writeHostPage pg l).kept.held = s.kept.held := rfl

@[simp] theorem putPage_held (s : State) (w : Nat) : (putPage w s).kept.held = s.kept.held := State.updEng_held _ _

@[simp] theorem State.landCommit_held (s : State) : s.landCommit.kept.held = s.kept.held := by
  unfold State.landCommit
  (repeat' split) <;> simp

@[simp] theorem State.putLaw_held (s : State) (d kp ki kd ulim : Nat) : (s.putLaw d kp ki kd ulim).kept.held = s.kept.held := by
  unfold State.putLaw
  split <;> simp

@[simp] theorem State.loadPages_held (s : State) (a b : Nat) : (s.loadPages a b).kept.held = s.kept.held :=
  forL_held _ _ _ fun _ _ => rfl

@[simp] theorem State.restorePage_held (s : State) (pg : Nat) : (s.restorePage pg).kept.held = s.kept.held := by
  simp [State.restorePage]

@[simp] theorem State.reloadPage_held (s : State) (pg : Nat) : (s.reloadPage pg).kept.held = s.kept.held := by
  simp [State.reloadPage]

@[simp] theorem State.retryPages_held (s : State) : s.retryPages.kept.held = s.kept.held := by
  simp [State.retryPages]

@[simp] theorem State.evalRound_held (s : State) : s.evalRound.kept.held = s.kept.held := by
  simp [State.evalRound]

@[simp] theorem State.takeChunk_held (s : State) (pg i v : Nat) : (s.takeChunk pg i v).kept.held = s.kept.held := by
  simp [State.takeChunk]

/-! ### The flash (R329 to R334) -/

@[simp] theorem State.programmed_held (s : State) : s.programmed.kept.held = s.kept.held := rfl

@[simp] theorem State.spoilSlots_held (s : State) : s.spoilSlots.kept.held = s.kept.held := rfl

@[simp] theorem State.halfErase_held (s : State) (v : Nat) : (s.halfErase v).kept.held = s.kept.held := State.updLog_held _ _

@[simp] theorem State.programFailed_held (s : State) : s.programFailed.kept.held = s.kept.held := by
  simp [State.programFailed]

/-! ### Snapshots, dumps and ABORT (R357 to R361) -/

@[simp] theorem State.latchSnap_held (s : State) : s.latchSnap.kept.held = s.kept.held := by
  simp [State.latchSnap]

@[simp] theorem State.copyDump_held (s : State) (cut : Bool) : (s.copyDump cut).kept.held = s.kept.held := by
  simp [State.copyDump]

@[simp] theorem State.stopSnap_held (s : State) : s.stopSnap.1.kept.held = s.kept.held := by
  unfold State.stopSnap
  split <;> rfl

@[simp] theorem State.bodySnap_held (s : State) : s.bodySnap.kept.held = s.kept.held := by
  simp [State.bodySnap]

@[simp] theorem State.stopBusy_held (s : State) (old : Option Cmd) : (s.stopBusy old).1.kept.held = s.kept.held := by
  unfold State.stopBusy
  dsimp only
  (repeat' split) <;> simp [doneUnless]

@[simp] theorem State.abortFn_held (s : State) (arg : Nat) (old : Option Cmd) : (s.abortFn arg old).1.kept.held = s.kept.held := by
  unfold State.abortFn
  split <;> simp

@[simp] theorem State.abortNow_held (s : State) (arg : Nat) (old : Option Cmd) : (s.abortNow arg old).kept.held = s.kept.held := by
  simp [State.abortNow]

@[simp] theorem State.dropRunning_held (s : State) : s.dropRunning.kept.held = s.kept.held := by
  simp [State.dropRunning]

/-! ### Time (R226 to R229, R237) -/

@[simp] theorem State.estimate_held (s : State) (off : Int) : (s.estimate off).kept.held = s.kept.held := by
  unfold State.estimate
  dsimp only
  (repeat' split) <;> simp

@[simp] theorem State.tryEstimate_held (s : State) (last : Bool) : (s.tryEstimate last).kept.held = s.kept.held := by
  unfold State.tryEstimate
  dsimp only
  split <;> simp

@[simp] theorem State.workerTime_held (s : State) (f : Flit) (r : Ring) (arr : Nat) :
    (s.workerTime f r arr).kept.held = s.kept.held := by
  unfold State.workerTime
  dsimp only
  split <;> simp

@[simp] theorem State.tetherFrame_held (s : State) : s.tetherFrame.kept.held = s.kept.held := by
  simp [State.tetherFrame]

@[simp] theorem State.xtOffset_held (s : State) (ofs : Int) : (s.xtOffset ofs).kept.held = s.kept.held := by
  simp [State.xtOffset]

/-! ### The sections (R258, R271) -/

@[simp] theorem State.factoryStart_held (s : State) : s.factoryStart.kept.held = s.kept.held := by
  unfold State.factoryStart
  split
  · rfl
  · simp

@[simp] theorem commitCal_held (s : State) (d : Nat) : (commitCal d s).kept.held = s.kept.held := by
  simp [commitCal]

@[simp] theorem State.commit_held (s : State) (m : List Host.Cell) (a b : Nat) : (s.commit m a b).kept.held = s.kept.held := by
  unfold State.commit
  lift_lets
  intro taken versioned budgets pars sent ticket doms mgr hk
  have hsent : sent.kept.held = s.kept.held := by
    have hpars : pars.kept.held = s.kept.held := by simp [pars, budgets, versioned, taken]
    unfold sent
    split <;> simp [hpars]
  have hdoms : doms.kept = ticket.kept := forL_kept _ _ _ fun _ _ => State.updDom_kept ..
  clear_value sent doms
  simp [hk, mgr, hdoms, ticket, hsent]

/-! ### The domain sample and the frame (R15, R67) -/

@[simp] theorem State.sample_held (s : State) (x : SampleIn) : (s.sample x).kept.held = s.kept.held := by
  unfold State.sample
  lift_lets
  intro was measured
  have hmeasured : measured.kept.held = s.kept.held := by simp [measured]
  clear_value measured
  intro brought sensed tested
  have htested : tested.kept.held = s.kept.held := by simp [tested, sensed, brought, hmeasured]
  clear_value tested
  intro moved ran
  have hran : ran.kept.held = s.kept.held := by simp [ran, moved, htested]
  clear_value ran
  intro counted tuned
  have htuned : tuned.kept.held = s.kept.held := by
    unfold tuned
    split <;> simp [counted, hran]
  clear_value tuned
  split <;> simp [hmeasured, htuned]

@[simp] theorem frameDom_held (s : State) (d : Nat) : (frameDom d s).kept.held = s.kept.held := by
  simp [frameDom]

@[simp] theorem State.frameEffects_held (s : State) : s.frameEffects.kept.held = s.kept.held := by
  simp [State.frameEffects]

@[simp] theorem State.startFrame_held (s : State) : s.startFrame.kept.held = s.kept.held := by
  simp [State.startFrame]

@[simp] theorem State.frameDecide_held (s : State) : s.frameDecide.kept.held = s.kept.held := by
  simp [State.frameDecide]

/-! ### Outcomes that keep the straps -/

/-- Whatever next state a command leads to has the straps and the queue of the state before. -/
def KeepsHeld (s : State) (o : Out) : Prop := Leads o fun t => t.kept.held = s.kept.held

theorem keepsHeld_next {s t : State} (h : t.kept.held = s.kept.held) : KeepsHeld s (.next t) := (leads_next _ _).2 h

theorem keepsHeld_of_kept {s : State} {o : Out} (h : Leads o fun t => t.kept = s.kept) : KeepsHeld s o :=
  fun t ht => congrArg Kept.held (h t ht)

theorem KeepsHeld.ite {s : State} {c : Prop} [Decidable c] {a b : Out} (ha : KeepsHeld s a) (hb : KeepsHeld s b) :
    KeepsHeld s (if c then a else b) := leads_ite ha hb

/-- A condition under which the command changes nothing, with the rest of its meaning behind it. -/
theorem KeepsHeld.guard {s : State} {c : Prop} [Decidable c] {o : Out} (h : KeepsHeld s o) :
    KeepsHeld s (if c then .next s else o) := .ite (keepsHeld_next rfl) h

theorem outState_held {s : State} {o : Out} (h : KeepsHeld s o) : (outState s o).kept.held = s.kept.held := by
  unfold outState
  split
  · exact h _ rfl
  · rfl
  · rfl

theorem recv_keepsHeld (s : State) (kind : Nat) (r : Ring) (f : Flit) (c : Instr) (act : State → State)
    (h : ∀ u : State, (act u).kept.held = u.kept.held) : KeepsHeld s (s.recv kind r f c act) :=
  .ite (keepsHeld_next (by simp)) <| .ite (keepsHeld_next (by simp [h])) (keepsHeld_next (by simp))

theorem runCmd_keepsHeld (s : State) (code : Nat) (needPriv mgrOnly priv cool : Bool) (body : State → State)
    (h : ∀ u : State, (body u).kept.held = u.kept.held) : KeepsHeld s (s.runCmd code needPriv mgrOnly priv cool body) := by
  refine .guard <| .ite (keepsHeld_next (by simp)) <| .ite (keepsHeld_next (by simp)) <|
    .ite (keepsHeld_next ?_) (keepsHeld_next (by simp))
  unfold State.startBody
  split <;> simp [h]

theorem hostPut_keepsHeld (s : State) (a w : Nat) (priv early frz bad : Bool) (note put : State → State)
    (hnote : (note s).kept.held = s.kept.held) (hput : (put s).kept.held = s.kept.held) :
    KeepsHeld s (s.hostPut a w priv early frz bad note put) :=
  .guard <| .ite (keepsHeld_next (by simp)) <| .ite (keepsHeld_next (by simp)) <| .ite (keepsHeld_next (by simp)) <|
    .ite (keepsHeld_next (by simp [hnote])) <| .ite (keepsHeld_next (by simp)) (keepsHeld_next (by simp [hput]))

/-! ### The end of a freeze (R352 to R356) -/

theorem execSect_keepsHeld (s : State) (f : RxFlit) : KeepsHeld s (execSect f s) := by
  refine .guard (recv_keepsHeld _ _ _ _ _ _ fun u => ?_)
  split
  · rfl
  · exact (congrArg Kept.held (State.updInst_kept _ _ ⟨rfl, rfl, rfl⟩)).trans (State.sections_held u u.cfg _)

theorem execVerdict_keepsHeld (s : State) (f : RxFlit) : KeepsHeld s (execVerdict f s) := by
  refine .guard (recv_keepsHeld _ _ _ _ _ _ fun u => ?_)
  dsimp only
  repeat' split
  all_goals simp

theorem execPageData_keepsHeld (s : State) (f : RxFlit) (ok : Bool) : KeepsHeld s (execPageData f ok s) := by
  refine recv_keepsHeld _ _ _ _ _ _ fun u => ?_
  dsimp only
  repeat' split
  all_goals simp

theorem execTime_keepsHeld (s : State) (f : Flit) (r : Ring) (frac : Fin 16) : KeepsHeld s (execTime f r frac s) :=
  .guard <| .ite (keepsHeld_next (by simp)) <| .ite (keepsHeld_next (by simp)) (keepsHeld_next (by simp))

/-- A captured flit that acts at the thaw as a command of its own, apart from TIME, whose arrival was noted (R355). -/
theorem runFlit_of_not_writes {c : Instr} (h : c.writes = false) (n : Nat) (s : State) :
    runFlit n c s = outState s (exec c s) ∨ runFlit n c s = s := by
  unfold runFlit
  split
  -- TIME writes, and what is no flit of a ring does nothing
  case h_27 => cases h
  case h_28 => exact .inr rfl
  all_goals exact .inl rfl

@[simp] theorem runFlit_held (n : Nat) (c : Instr) (s : State) : (runFlit n c s).kept.held = s.kept.held := by
  by_cases hquiet : c.writes = false
  · rcases runFlit_of_not_writes hquiet n s with h | h <;> rw [h]
    exact outState_held (keepsHeld_of_kept (exec_kept_of_not_writes s c hquiet))
  · unfold runFlit
    split
    -- SECT, VERDICT, PAGE_DATA and TIME write; the other flits are quiet
    case h_9 => exact outState_held (execSect_keepsHeld _ _)
    case h_10 => exact outState_held (execVerdict_keepsHeld _ _)
    case h_14 => exact outState_held (execPageData_keepsHeld _ _ _)
    case h_27 =>
      split
      · exact outState_held (execTime_keepsHeld _ _ _ _)
      · simp
    case h_28 => rfl
    all_goals exact absurd rfl hquiet

@[simp] theorem runPort_held (n : Nat) (c : Instr) (s : State) : (runPort n c s).kept.held = s.kept.held := by
  unfold runPort
  split
  · split <;> simp
  · exact outState_held (keepsHeld_of_kept (execDoneReport_kept _ _ _ _))
  · exact outState_held (keepsHeld_of_kept (execCountReport_kept _ _ _ _))
  · rfl

@[simp] theorem ticketNow_held (i : Nat) (s : State) : (ticketNow i s).kept.held = s.kept.held := by
  unfold ticketNow
  exact (outState_held (keepsHeld_of_kept (execTicketRun_kept _ _))).trans <|
    (outState_held (keepsHeld_of_kept (execTicketLaunch_kept _ _))).trans <|
    outState_held (keepsHeld_of_kept (execTicketArm_kept _ _))

@[simp] theorem thawChannel_held (c : Nat) (s : State) : (thawChannel c s).kept.held = s.kept.held := by
  unfold thawChannel
  dsimp only
  split <;> simp

@[simp] theorem plainPut_held (a w : Nat) (s : State) : (plainPut a w s).kept.held = s.kept.held := by
  simp [plainPut]

@[simp] theorem lateWrite_held (a w : Nat) (s : State) : (lateWrite a w s).kept.held = s.kept.held := by
  simp [lateWrite, putCommit]

@[simp] theorem State.thawNow_held (s : State) (tt : Nat) (early : Bool) : (s.thawNow tt early).kept.held = s.kept.held := by
  unfold State.thawNow
  lift_lets
  intro tf flits late held dump ended cleared extended aborted ported ticketed reported written published dumped
  have haborted : aborted.kept.held = s.kept.held := by
    unfold aborted
    cases held <;> simp [extended, cleared, ended]
  clear_value aborted
  have hwritten : written.kept.held = s.kept.held := by simp [written, reported, ticketed, ported, haborted]
  clear_value written
  have hpublished : published.kept.held = s.kept.held := by simp [published, hwritten]
  clear_value published
  have hdumped : dumped.kept.held = s.kept.held := by simp [dumped, hpublished]
  clear_value dumped
  split <;> simp [hdumped]

@[simp] theorem State.endFreeze_held (s : State) : s.endFreeze.kept.held = s.kept.held := by
  simp [State.endFreeze]

/-! ### The commands that write -/

theorem execDomainSample_keepsHeld (s : State) (x : SampleIn) : KeepsHeld s (execDomainSample x s) :=
  .guard (keepsHeld_next (by simp))

theorem execFrame_keepsHeld (s : State) : KeepsHeld s (execFrame s) := by
  refine .guard ?_
  lift_lets
  intro marked thawed
  have hthawed : thawed.kept.held = s.kept.held := by
    unfold thawed
    split <;> simp [marked]
  clear_value thawed
  intro closed rungs
  have hclosed : closed.kept.held = s.kept.held := by
    unfold closed
    (repeat' split) <;> simp [hthawed]
  clear_value closed
  exact .ite (keepsHeld_next (by simp [hthawed])) <|
    .ite (keepsHeld_next (by simp [rungs, hclosed])) (keepsHeld_next (by simp [rungs, hclosed]))

theorem execTthTimeStep_keepsHeld (s : State) : KeepsHeld s (execTthTimeStep s) :=
  .ite (keepsHeld_next (by simp)) (keepsHeld_next rfl)

theorem execPageRecheck_keepsHeld (s : State) (pg : Fin 8192) (ok : Bool) : KeepsHeld s (execPageRecheck pg ok s) := by
  unfold execPageRecheck
  split
  · exact keepsHeld_next rfl
  · exact .guard <| .ite (keepsHeld_next (by simp)) (keepsHeld_next (by simp))

theorem execHousekeepingRound_keepsHeld (s : State) : KeepsHeld s (execHousekeepingRound s) :=
  .guard <| .ite (keepsHeld_next (by simp)) <| .ite (keepsHeld_next (by simp)) (keepsHeld_next (by simp))

theorem execLockstep_keepsHeld (s : State) : KeepsHeld s (execLockstep s) := .guard (keepsHeld_next (by simp))

theorem execThermTrip_keepsHeld (s : State) (i : Fin 128) (code : Int) : KeepsHeld s (execThermTrip i code s) :=
  .ite (keepsHeld_next (by simp)) (keepsHeld_next rfl)

theorem execCoolOkDeassert_keepsHeld (s : State) : KeepsHeld s (execCoolOkDeassert s) := .guard (keepsHeld_next (by simp))

theorem execCoolStop_keepsHeld (s : State) (f : RxFlit) : KeepsHeld s (execCoolStop f s) :=
  recv_keepsHeld _ _ _ _ _ _ fun u => by simp

theorem execPwrfailN_keepsHeld (s : State) : KeepsHeld s (execPwrfailN s) := .guard (keepsHeld_next (by simp))

theorem execXtRsp_keepsHeld (s : State) (f : Flit) (frac : Fin 16) : KeepsHeld s (execXtRsp f frac s) := by
  refine .guard <| .ite (keepsHeld_next (by simp)) ?_
  split
  · exact keepsHeld_next (by simp)
  · exact keepsHeld_next (by simp)

theorem execFuseRead_keepsHeld (s : State) (x : FuseRead) : KeepsHeld s (execFuseRead x s) := by
  refine .guard (keepsHeld_next (Eq.trans (b := (s.takeFuses x).kept.held) ?_ rfl))
  rw [← State.takeFuses]
  simp

theorem execRingTraining_keepsHeld (s : State) (ring1 ring2 : Bool) : KeepsHeld s (execRingTraining ring1 ring2 s) :=
  .guard <| .ite (keepsHeld_next (by simp)) (keepsHeld_next (by simp))

theorem execImageVerify_keepsHeld (s : State) : KeepsHeld s (execImageVerify s) := by
  refine .guard <| .ite (keepsHeld_next ?_) (keepsHeld_next ?_)
  · simp
  · split <;> simp

theorem execNoVerdict_keepsHeld (s : State) : KeepsHeld s (execNoVerdict s) :=
  .ite (keepsHeld_next (by simp)) (keepsHeld_next rfl)

theorem execPageProgramDone_keepsHeld (s : State) (ok : Bool) : KeepsHeld s (execPageProgramDone ok s) :=
  .guard <| .ite (keepsHeld_next (by simp)) <| .ite (keepsHeld_next (by simp)) (keepsHeld_next (by simp))

theorem execSectorEraseDone_keepsHeld (s : State) (ok : Bool) : KeepsHeld s (execSectorEraseDone ok s) := by
  unfold execSectorEraseDone
  split
  · exact keepsHeld_next rfl
  next v _ =>
    refine .guard <| .ite (keepsHeld_next ?_) (keepsHeld_next ?_)
    -- by `rw`, so that the 4,096 erased bytes are not evaluated
    · rw [State.stageAfter_kept, State.flashNext_kept, State.noteFlushed_kept, State.dropBelow_kept, State.updLog_held]
    · have hhalf := s.halfErase_held v
      generalize s.halfErase v = half at hhalf ⊢
      split <;> simp [hhalf]

theorem execFlashBusyTimeout_keepsHeld (s : State) : KeepsHeld s (execFlashBusyTimeout s) :=
  .ite (keepsHeld_next (by simp)) (keepsHeld_next rfl)

theorem execThawResume_keepsHeld (s : State) : KeepsHeld s (execThawResume s) := by
  unfold execThawResume
  split
  · exact .ite (keepsHeld_next (by simp)) (keepsHeld_next rfl)
  · exact keepsHeld_next rfl

theorem execSnapshotLatch_keepsHeld (s : State) : KeepsHeld s (execSnapshotLatch s) :=
  .ite (keepsHeld_next (by simp)) (keepsHeld_next rfl)

theorem execDumpCopy_keepsHeld (s : State) : KeepsHeld s (execDumpCopy s) :=
  .ite (keepsHeld_next (by simp)) (keepsHeld_next rfl)

theorem runAbort_keepsHeld (s : State) (mine : Nat → Bool) (priv : Bool) : KeepsHeld s (s.runAbort mine priv) := by
  refine .guard (runCmd_keepsHeld _ _ _ _ _ _ _ fun u => ?_)
  split <;> simp

theorem execSnapshot_keepsHeld (s : State) (priv : Bool) : KeepsHeld s (execSnapshot priv s) :=
  runCmd_keepsHeld _ _ _ _ _ _ _ fun _ => State.bodySnap_held _

theorem execTck_keepsHeld (s : State) (tms tdi : Bool) : KeepsHeld s (execTck tms tdi s) := by
  refine keepsHeld_next (Eq.trans (b := (s.tapRise tms tdi).kept.held) rfl ?_)
  unfold State.tapRise
  dsimp only
  (repeat' split) <;> rfl

theorem execTblPage_keepsHeld (s : State) (w : Word) : KeepsHeld s (execTblPage w s) :=
  hostPut_keepsHeld _ _ _ _ _ _ _ _ _ rfl (putPage_held _ _)

/-- The command of each value that is written to `CMD` (R398). -/
theorem writeCmd_keepsHeld (s : State) (w : Nat) (priv : Bool) : KeepsHeld s (s.writeCmd w priv) := by
  unfold State.writeCmd
  split
  · exact keepsHeld_of_kept (execNop_kept _ _)
  · exact runAbort_keepsHeld _ _ _
  · exact keepsHeld_of_kept (execDomainOn_kept _ _)
  · exact .ite (keepsHeld_of_kept (execDomainOffAll_kept _ _)) (keepsHeld_of_kept (execDomainOff_kept _ _))
  · exact keepsHeld_of_kept (execSetMode_kept _ _)
  · exact keepsHeld_of_kept (execAutotune_kept _ _)
  · exact keepsHeld_of_kept (execFreeze_kept _ _)
  · exact keepsHeld_of_kept (execThaw_kept _ _)
  · exact keepsHeld_of_kept (execDump_kept _ _)
  · exact execSnapshot_keepsHeld _ _
  · exact keepsHeld_of_kept (execFlushLog_kept _ _)
  · exact keepsHeld_of_kept (execClearFault_kept _ _ _)
  · exact keepsHeld_of_kept (execSetCap_kept _ _)
  · exact keepsHeld_of_kept (execCmdReservedCode_kept _ _ _)

/-- The links of the chain stand in the order in which the meaning tries the addresses. -/
theorem execRegisterWrite_keepsHeld (addr : BitVec 20) (w : Word) (priv : Bool) (s : State) :
    KeepsHeld s (execRegisterWrite addr w priv s) := by
  have kept {o : Out} (h : Leads o fun t => t.kept = s.kept) := keepsHeld_of_kept h
  have put (a n : Nat) (early frz bad : Bool) (f : State → State) (h : (f s).kept.held = s.kept.held) :=
    hostPut_keepsHeld s a n priv early frz bad id f rfl h
  exact .guard <| .ite (keepsHeld_next (by simp)) <| .ite (writeCmd_keepsHeld _ _ _) <| .ite (keepsHeld_next (by simp)) <|
    .ite (keepsHeld_next (by simp)) <| .ite (kept (execCtlLock_kept _ _ _)) <| .ite (kept (execFltAck_kept _ _ _)) <|
    .ite (kept (execLogCur_kept _ _ _ _)) <| .ite (kept (execLogCur_kept _ _ _ _)) <| .ite (kept (execHkCtl_kept _ _ _)) <|
    .ite (kept (execTlmCtl_kept _ _ _)) <| .ite (kept (execNrgJobRel_kept _ _ _)) <| .ite (kept (execEngBudCommit_kept _ _ _)) <|
    .ite (kept (execTktQmax_kept _ _ _)) <| .ite (kept (execTktSgLead_kept _ _ _)) <| .ite (kept (execTktSgMask_kept _ _ _ _ _)) <|
    .ite (kept (execTilePar_kept _ _ _ _)) <| .ite (kept (execDomVreq_kept _ _ _ _)) <| .ite (kept (execDomUcal_kept _ _ _ _)) <|
    .ite (kept (execDomLawB_kept _ _ _ _)) <| .ite (kept (execDomPg_kept _ _ _ _)) <| .ite (put _ _ _ _ _ _ (by simp)) <|
    .ite (kept (execObsCntClr_kept _ _ _)) <| .ite (kept (execObsTrcCtl_kept _ _ _)) <| .ite (kept (execObsTrcMark_kept _ _ _)) <|
    .ite (execTblPage_keepsHeld _ _) <| .ite (kept (execTblCommit_kept _ _ _)) <| put _ _ _ _ _ _ (plainPut_held _ _ _)

/-- Every command but the assertion and the release of RST_N keeps the straps and the queue: one outside `Instr.writes` by the law
of its meaning, and the others by the lemmas above. -/
theorem exec_keepsHeld {c : Instr} (hrelease : ∀ x, c ≠ .rstNRelease x) (hassert : c ≠ .rstNAssert) (s : State) :
    KeepsHeld s (exec c s) := by
  cases c with
  | domainSample x => exact execDomainSample_keepsHeld s x
  | frame => exact execFrame_keepsHeld s
  | housekeepingRound => exact execHousekeepingRound_keepsHeld s
  | thermTrip j code => exact execThermTrip_keepsHeld s j code
  | coolOkDeassert => exact execCoolOkDeassert_keepsHeld s
  | pageRecheck pg ok => exact execPageRecheck_keepsHeld s pg ok
  | pageData f ok => exact execPageData_keepsHeld s f ok
  | time f r frac => exact execTime_keepsHeld s f r frac
  | tthTimeStep => exact execTthTimeStep_keepsHeld s
  | coolStop f => exact execCoolStop_keepsHeld s f
  | sect f => exact execSect_keepsHeld s f
  | verdict f => exact execVerdict_keepsHeld s f
  | xtRsp f frac => exact execXtRsp_keepsHeld s f frac
  | rstNAssert => exact absurd rfl hassert
  | rstNRelease x => exact absurd rfl (hrelease x)
  | fuseRead x => exact execFuseRead_keepsHeld s x
  | ringTraining ring1 ring2 => exact execRingTraining_keepsHeld s ring1 ring2
  | imageVerify => exact execImageVerify_keepsHeld s
  | noVerdict => exact execNoVerdict_keepsHeld s
  | pwrfailN => exact execPwrfailN_keepsHeld s
  | lockstep => exact execLockstep_keepsHeld s
  | pageProgramDone ok => exact execPageProgramDone_keepsHeld s ok
  | sectorEraseDone ok => exact execSectorEraseDone_keepsHeld s ok
  | thawResume => exact execThawResume_keepsHeld s
  | snapshotLatch => exact execSnapshotLatch_keepsHeld s
  | dumpCopy => exact execDumpCopy_keepsHeld s
  | abortBusyCommand _ | abortDomainRamp _ | abortBridle _ | abortAutotune _ | abortLogFlush _ | abortDump _ | abortTrace _
  | abortSnapshot _ =>
    unfold exec
    exact runAbort_keepsHeld s _ _
  | snapshot priv => exact execSnapshot_keepsHeld s priv
  | tblPage w => exact execTblPage_keepsHeld s w
  | registerWrite addr w priv => exact execRegisterWrite_keepsHeld addr w priv s
  | tck tms tdi => exact execTck_keepsHeld s tms tdi
  | trstN => exact keepsHeld_next rfl
  | flashBusyTimeout => exact execFlashBusyTimeout_keepsHeld s
  | _ => exact keepsHeld_of_kept (exec_kept_of_not_writes s _ rfl)

/-! ### What a raise leaves alone

A raise enters the history, the recorder and the occurrences, starts a gap or sends FREEZE; it leaves `State.inst` alone. -/

@[simp] theorem State.updLink_inst (s : State) (r : Ring) (f : Link → Link) : (s.updLink r f).inst = s.inst := rfl

@[simp] theorem State.toLinks_inst (s : State) (rings : Nat) (f : Flit) : (s.toLinks rings f).inst = s.inst := by
  unfold State.toLinks
  dsimp only
  (repeat' split) <;> rfl

@[simp] theorem State.putOut_inst (s : State) (rings : Nat) (f : Flit) : (s.putOut rings f).inst = s.inst := by simp [State.putOut]

@[simp] theorem State.emitFlit_inst (s : State) (rings : Nat) (f : Flit) : (s.emitFlit rings f).inst = s.inst := by
  unfold State.emitFlit
  extract_lets seq word kept
  have hkept : kept.inst = s.inst := rfl
  split
  · rw [State.updTth_inst, State.putOut_inst, State.putOut_inst, hkept]
  · rw [State.putOut_inst, hkept]

@[simp] theorem State.sendOn_inst (s : State) (rings : Nat) (f : Flit) : (s.sendOn rings f).inst = s.inst := by
  unfold State.sendOn
  dsimp only
  (repeat' split) <;> simp

@[simp] theorem State.freezeOn_inst (s : State) (cls : Nat) : (s.freezeOn cls).inst = s.inst := by
  unfold State.freezeOn
  split <;> simp [State.schedFreeze, State.broadcast]

@[simp] theorem State.bufferRec_inst (s : State) (r : Rec) : (s.bufferRec r).inst = s.inst := by
  unfold State.bufferRec
  dsimp only
  (repeat' split) <;> rfl

@[simp] theorem State.flushOn_inst (s : State) (r : Rec) : (s.flushOn r).inst = s.inst := by
  unfold State.flushOn
  dsimp only
  (repeat' split) <;> rfl

@[simp] theorem State.sortHist_inst (s : State) (q n : Nat) : (s.sortHist q n).inst = s.inst := by
  induction n generalizing s q with
  | zero => rfl
  | succ n ih =>
    unfold State.sortHist
    dsimp only
    split
    · exact ih _ _
    · rfl

@[simp] theorem State.addHist_inst (s : State) (cls sev src data : Nat) : (s.addHist cls sev src data).inst = s.inst := by
  unfold State.addHist
  dsimp only
  split
  · rfl
  · exact State.sortHist_inst _ _ _

@[simp] theorem State.startGap_inst (s : State) (cls src : Nat) : (s.startGap cls src).inst = s.inst := by
  unfold State.startGap
  dsimp only
  (repeat' split) <;> rfl

@[simp] theorem State.openOcc_inst (s : State) (cls sev src data : Nat) : (s.openOcc cls sev src data).inst = s.inst := by
  unfold State.openOcc
  split <;> rfl

@[simp] theorem State.raise_inst (s : State) (cls src data : Nat) : (s.raise cls src data).inst = s.inst := by
  unfold State.raise State.raiseSev State.raiseCore
  dsimp only
  split <;> simp [State.recordRaise]

@[simp] theorem State.endCause_inst (s : State) (cls src : Nat) : (s.endCause cls src).inst = s.inst := rfl

theorem forL_inst {α : Type} (f : α → State → State) (h : ∀ x s, (f x s).inst = s.inst) (l : List α) (s : State) :
    (forL l f s).inst = s.inst := by
  induction l generalizing s with
  | nil => rfl
  | cons x l ih => exact (ih _).trans (h x s)

@[simp] theorem State.decideTile_inst (s : State) (t : Nat) (w : TileWord) : (s.decideTile t w).inst = s.inst := by
  unfold State.decideTile
  split <;> rfl

@[simp] theorem State.unshedDom_inst (s : State) (d : Nat) : (s.unshedDom d).inst = s.inst := by
  unfold State.unshedDom
  split
  · exact forL_inst _ (fun t u => State.decideTile_inst (u.updView t _) _ _) _ _
  · rfl

/-- A cause of GROUNDED is noted for the next frame, and nothing else of `State.inst` changes (R274). -/
theorem State.groundBy_inst (s : State) (k : Nat) :
    (s.groundBy k).inst = { s.inst with gndNext := (s.groundBy k).inst.gndNext } := by
  have hshed (u : State) : (forL u.doms_ (fun d s => s.unshedDom d) u).inst = u.inst :=
    forL_inst _ (fun _ _ => State.unshedDom_inst _ _) _ _
  unfold State.groundBy
  dsimp only
  (repeat' split) <;> simp [State.updInst, State.raiseInst, hshed]

/-- `State.inst` as a release of RST_N leaves it: out of reset, with ROLE, FIELD_ID and NVM_EN from the pins (R207). -/
def Inst.released (n : Inst) (x : Straps) : Inst :=
  { n with inReset := false, strapped := true, manager := x.manager, fieldId := x.fieldId, nvmEn := x.nvmEn }

/-- A release that acts, before any other or after an assertion, samples the pins; the retired arrays only raise, and cause
GROUNDED where none is left (R167, R207). -/
theorem exec_rstNRelease_inst {s : State} (hdue : s.inst.inReset = true ∨ s.inst.strapped = false) (x : Straps) :
    Answers (exec (.rstNRelease x) s) fun t => t.inst = { Inst.released s.inst x with gndNext := t.inst.gndNext } := by
  have hreports (l : List Nat) (u : State) : (forL l (fun a s =>
      (s.raise cEngArrayRetired (mkSrc 7 a) 0).endCause cEngArrayRetired (mkSrc 7 a)) u).inst = u.inst :=
    forL_inst _ (fun a u => by rw [State.endCause_inst, State.raise_inst]) l u
  refine ⟨_, if_neg (by rcases hdue with h | h <;> simp [h]), ?_⟩
  split
  · rw [State.groundBy_inst, hreports]
    rfl
  · rw [hreports]
    rfl

/-- Settles O8: every other command keeps the straps (`exec_keepsHeld`), and a release that acts takes them from the pins
(`exec_rstNRelease_inst`). -/
theorem strapsAreSampledAtReleaseOnly : Obligations.StrapsAreSampledAtReleaseOnly := by
  refine ⟨fun c s t hrelease hassert ht => ?_, fun x s hdue => ?_⟩
  · have hheld := exec_keepsHeld hrelease hassert s t ht
    exact ⟨congrArg Held.manager hheld, congrArg Held.fieldId hheld, congrArg Held.nvmEn hheld⟩
  · obtain ⟨t, ht, hinst⟩ := exec_rstNRelease_inst hdue x
    exact ⟨t, ht, congrArg Inst.manager hinst, congrArg Inst.fieldId hinst, congrArg Inst.nvmEn hinst,
      congrArg Inst.inReset hinst, congrArg Inst.strapped hinst⟩

end Sys2Proof.Machine

/-! ### Reset, the image and the bring-up

The reset (R243), the manager's verification of the image (R254 to R258), and the rows of a bring-up (R262 to R275). -/

namespace Sys2Proof.Machine

/-! ### Reset (R240, R243) -/

/-- No tile is listed at reset, so each reads as the entry of an unlisted one. -/
theorem State.reset_tile (t : Nat) : State.reset.tile t = {} := rfl

/-- A domain is not listed at reset either. -/
theorem State.reset_dom (d : Nat) : State.reset.dom d = {} := rfl

/-- Settles O3: `State.reset` is the state of the field defaults, and RST_N is one record over it. The reset values are those of log
entries 2 and 3 and the unwritten memories those of log entry 67; the tiles' mark is log entry 46's, the cut flash log entry 54's, and
the fuses are the registers of a read-out, which the next start reads again. -/
theorem resetLeavesTheBlockOff : Obligations.ResetLeavesTheBlockOff := by
  refine ⟨⟨rfl, rfl, fun t => congrArg Tile.state (State.reset_tile t), fun d => congrArg Dom.loop (State.reset_dom d),
    rfl, rfl, rfl, rfl, rfl, rfl, rfl, rfl, rfl, rfl, rfl⟩,
    fun s hrun => ?_, fun s hreset => if_pos hreset⟩
  have hfresh : s.fresh < s.fresh + 2 ^ 27 := Nat.lt_add_of_pos_right (Nat.two_pow_pos 27)
  exact ⟨_, if_neg (ne_true_of_eq_false hrun), rfl, hfresh, rfl⟩

/-! ### The verification of the image (R254 to R258, R271) -/

/-- What the image checks find, where they find anything, has a reason code of R254: 0 is kept for GOOD. -/
def HasReason (o : Option ImgFail) : Prop := ∀ x, o = some x → x.rc ≠ 0

theorem hasReason_none : HasReason none := nofun

theorem hasReason_some {x : ImgFail} (h : x.rc ≠ 0) : HasReason (some x) := fun _ hx => Option.some.inj hx ▸ h

theorem hasReason_failAt {rc : Nat} (h : rc ≠ 0) (readTo : Nat) (sent : List (Sect × Nat)) : HasReason (failAt rc readTo sent) :=
  hasReason_some h

theorem HasReason.ite {c : Prop} [Decidable c] {a b : Option ImgFail} (ha : c → HasReason a) (hb : HasReason b) :
    HasReason (if c then a else b) := by
  split
  · next hc => exact ha hc
  · exact hb

/-- A section fails by its index, its content or its CRC; one that passes only notes that it was sent. -/
theorem State.streamBad_hasReason (s : State) (vs : List State) (used : Nat → Bool) (l : List Sect) :
    HasReason (s.streamBad vs used l) := by
  induction l with
  | nil => exact hasReason_none
  | cons e r ih =>
    refine .ite (fun _ => hasReason_some (Nat.succ_ne_zero _)) ?_
    split
    · exact hasReason_some (Nat.succ_ne_zero _)
    · refine .ite (fun _ => hasReason_some (Nat.succ_ne_zero _)) fun x hx => ?_
      obtain ⟨y, hy, rfl⟩ := Option.map_eq_some_iff.1 hx
      exact ih y hy

/-- Each check of R254 that fails names its own reason. -/
theorem State.imageFail_hasReason (s : State) : HasReason s.imageFail := by
  refine .ite (fun hheader => .ite (fun _ => hasReason_some (Nat.succ_ne_zero _)) (hasReason_failAt hheader _ _)) ?_
  refine .ite (fun _ => hasReason_failAt (by decide) _ _) (.ite (fun _ => hasReason_failAt (by decide) _ _)
    (.ite (fun _ => hasReason_failAt (by decide) _ _) (.ite (fun _ => hasReason_failAt (by decide) _ _) ?_)))
  dsimp only
  split
  · next x hx => exact hx ▸ s.streamBad_hasReason _ _ _
  · split
    · exact hasReason_some (Nat.succ_ne_zero _)
    · exact .ite (fun _ => hasReason_failAt (by decide) _ _)
        (.ite (fun _ => hasReason_failAt (by decide) _ _) hasReason_none)

/-- A loop over the images of a list is a loop over the list (here, over each section with all its parts). -/
theorem forL_map {α β : Type} (g : α → β) (f : β → State → State) (l : List α) (s : State) :
    forL (l.map g) f s = forL l (fun x => f (g x)) s :=
  List.foldl_map

/-- Settles O46: the checks give a reason code where they fail (`State.imageFail_hasReason`), so the verdict is GOOD where none does and
BAD otherwise. What DATA says of the rule is log entry 77's, and the order of the checks log entry 47's. -/
theorem theManagerVerifiesTheImage : Obligations.TheManagerVerifiesTheImage := by
  refine ⟨fun s hmgr hfuses htrained hverdict hfactory => ⟨?_, s.imageFail_hasReason⟩, fun s hworker => if_pos (by simp [hworker]),
    fun s htrained hverdict hfactory => ⟨fun hlate => if_pos ⟨htrained, hverdict, ne_true_of_eq_false hfactory, hlate⟩,
      fun hearly => if_neg fun ⟨_, _, _, hlate⟩ => absurd hlate (Nat.not_le.2 hearly)⟩⟩
  refine (if_neg (by simp [hmgr, hfuses, htrained, hverdict, hfactory])).trans ?_
  cases hfail : s.imageFail with
  | none =>
    refine (if_pos rfl).trans ?_
    rewrite [Option.getD_none, forL_map]
    rfl
  | some x => exact if_neg (s.imageFail_hasReason x hfail)

/-! ### The windows and the starts of a bring-up (R262, R263, R272) -/

/-- A window that is set ends the bring-up at its tick, and does nothing before it or where no bring-up is left. -/
theorem exec_bringWindow_of_set {d : Fin 32} {t : Nat} {s : State} (hset : (s.dom d).bring.winEnd = some t) :
    exec (.bringWindow d) s =
      if t ≤ s.time ∧ (s.dom d).inBring then .next ((s.raise cBringWindow (mkSrc 5 d) 0).endBring d .window) else .next s := by
  change execBringWindow d s = _
  simp only [execBringWindow, hset]

/-- A bring-up whose tick is set starts in the sample before it, where its domain still waits. -/
theorem exec_bringUpStart_of_set {d : Fin 32} {t : Nat} {s : State} (hset : (s.dom d).bring.startAt = some t) :
    exec (.bringUpStart d) s =
      if t ≤ s.time + 16 ∧ (s.dom d).bring.step = .waiting then .next (s.startBring d) else .next s := by
  change execBringUpStart d s = _
  simp only [execBringUpStart, hset]

/-- An off sequence starts at its tick and ends what is left of the bring-up; a power failure holds it back (R275). -/
theorem exec_offSequenceStart_of_due {d : Fin 32} {t : Nat} {s : State} (hset : (s.dom d).bring.offAt = some t) (hdue : t ≤ s.time) :
    exec (.offSequenceStart d) s =
      let u := s.updBring d fun b => { b with offAt := if b.offAt.any (· ≤ s.time) then none else b.offAt,
                                              offAllAt := if b.offAllAt.any (· ≤ s.time) then none else b.offAllAt }
      .next (if u.lim.pwrFail then u else (u.abortBring d).startOff d false) := by
  refine (if_pos (by simp [hset, hdue])).trans ?_
  exact (apply_ite ..).symm

/-- Settles O48: a window and an off sequence act where their tick has come (`exec_bringWindow_of_set`,
`exec_offSequenceStart_of_due`). That the off sequence follows at the next frame start is log entry 49's. -/
theorem aMissedWindowEndsTheBringUp : Obligations.AMissedWindowEndsTheBringUp := by
  refine ⟨fun d t s hset hover hbring => ?_, fun d s => rfl, rfl, fun d t s hset hopen => ?_,
    fun d t s hset hdue _ => exec_offSequenceStart_of_due hset hdue⟩
  · exact (exec_bringWindow_of_set hset).trans (if_pos ⟨hover, hbring⟩)
  · exact (exec_bringWindow_of_set hset).trans (if_neg fun ⟨hover, _⟩ => absurd hover (Nat.not_le.2 hopen))

/-! ### The bridle and READY (R266, R267, R270, R275) -/

/-- Settles O49: each row acts in its own step of the sequence, at its tick. That a bring-up starts one sample before its tick is log
entry 31's; READY is the field's own, at T_ready (R270). -/
theorem bringUpsStageTheirBridle : Obligations.BringUpsStageTheirBridle := by
  refine ⟨fun d t s hset hwait => ⟨fun hdue => ?_, fun hearly => ?_⟩, fun d s hstep hframe => if_pos ⟨hstep, hframe⟩,
    fun d s hstep hleft hsample hwindow => ⟨fun hdue hheld hfits => if_pos ⟨hstep, hleft, hdue, hheld, hsample, hwindow, hfits⟩,
      fun hfull => if_neg fun ⟨_, _, _, _, _, _, hfits⟩ => ne_true_of_eq_false hfull hfits⟩,
    fun d s hstep hleft hlong => ?_, fun d s hstep hframe hgap => if_pos ⟨hstep, hframe, hgap⟩,
    fun t s hset hready hfrozen => ⟨fun hearly => if_neg ?_, fun hdue => if_pos ?_⟩⟩
  · exact (exec_bringUpStart_of_set hset).trans (if_pos ⟨hdue, hwait⟩)
  · exact (exec_bringUpStart_of_set hset).trans (if_neg fun ⟨hdue, _⟩ => absurd hdue (Nat.not_le.2 hearly))
  · exact (if_pos ⟨hstep, hleft, hlong⟩).trans (apply_ite ..).symm
  · simp [hset, hearly]
  · simp [hset, hdue, hready, hfrozen]

end Sys2Proof.Machine

/-! ### Rungs, retries and lockstep

What a frame start does to an occurrence (R287) and to a retry gap (R290, R300), said once for an occurrence that is listed and a gap
that runs. -/

namespace Sys2Proof.Machine

/-- A listed occurrence takes its next rung at a frame start once its timer has run out, where one is left and nothing acknowledged
it. -/
theorem exec_escRung_of_listed {i : Fin 4096} {o : Occ} {s : State} (hlisted : s.flt.occs[i.val]? = some o) :
    exec (.escRung i) s =
      if s.time % 256 = 0 ∧ s.inst.unitAt = s.time ∧ ¬ o.ack ∧ o.rungIdx < (faultEsc o.cls).2.length ∧
          o.start + o.timer ≤ frameOf s.time ∧ ¬ s.obs.frozen then
        let r := nth 0 (faultEsc o.cls).2 o.rungIdx
        let u := (s.updFlt fun f => { f with
          occs := setNth f.occs i { o with rungIdx := o.rungIdx + 1, rung := r, start := frameOf s.time }
          rungs := f.rungs ++ [(r, o.cls, o.src)] }).raiseSev cEscRung o.sev o.src (o.cls + 256 * r)
        .next (if r = 3 then u.groundBy 1 else u)
      else .next s := by
  change execEscRung i s = _
  simp only [execEscRung, hlisted]

/-- A gap that runs is over at its frame where a retry is left: the retry counts as used, and either waits for another gap, while an
occurrence still holds the domain off, or sends CLEAR. -/
theorem exec_retryGap_of_running {d : Fin 32} {f : Nat} {s : State} (hgap : (s.dom d).retry.gapFrom = some f) :
    exec (.retryGap d) s =
      if f + s.flt.gap ≤ frameOf s.time ∧ (s.dom d).retry.used < s.flt.retries ∧ ¬ s.inst.lockstep ∧ ¬ s.obs.frozen then
        if s.flt.occs.any (Occ.rungOff d) then .next (s.updDom d fun x => x.useRetry (some (frameOf s.time)) false)
        else .next ((clearTiles d s).updDom d fun x => x.useRetry none true)
      else .next s := by
  change execRetryGap d s = _
  simp only [execRetryGap, hgap]

/-- Settles O50: a rung and a retry are taken where they are due (`exec_escRung_of_listed`, `exec_retryGap_of_running`), and the
other rows where their own conditions hold. That a mismatch ends the bring-ups and the running command is log entry 51's. -/
theorem escalationClimbsAndLockstepLatches : Obligations.EscalationClimbsAndLockstepLatches := by
  refine ⟨⟨fun i o s hlisted hframe hunit hthawed => ⟨fun hopen hleft hover => ?_, fun hack => ?_⟩,
      fun d f s hgap hpair hthawed hover hleft => ?_, fun w s hup => ?_,
      fun s hesc hframe hunit hthawed hended => ⟨fun hfree => ?_, fun hheld => ?_⟩⟩,
    fun s hup hpair => if_neg ?_, fun s hmismatch => if_pos (.inl hmismatch),
    fun s hpll hlocked => ⟨if_pos ⟨hpll, ne_true_of_eq_false hlocked⟩, if_neg (ne_true_of_eq_false hlocked)⟩,
    fun s hholdover => ⟨if_neg fun ⟨_, hlocked⟩ => hlocked hholdover, if_pos hholdover⟩⟩
  · exact (exec_escRung_of_listed hlisted).trans
      (if_pos ⟨hframe, hunit, ne_true_of_eq_false hopen, hleft, hover, ne_true_of_eq_false hthawed⟩)
  · exact (exec_escRung_of_listed hlisted).trans (if_neg fun ⟨_, _, hopen, _⟩ => hopen hack)
  · have htry := (exec_retryGap_of_running hgap).trans
      (if_pos ⟨hover, hleft, ne_true_of_eq_false hpair, ne_true_of_eq_false hthawed⟩)
    exact ⟨fun hoff => htry.trans (if_pos hoff), fun hon => htry.trans (if_neg (ne_true_of_eq_false hon))⟩
  · exact (if_neg (not_not_intro hup)).trans (if_neg (not_not_intro rfl))
  · exact if_pos ⟨hesc, hframe, hunit, ne_true_of_eq_false hthawed, ne_true_of_eq_false hfree, by simp [hended]⟩
  · exact if_neg fun ⟨_, _, _, _, hfree, _⟩ => hfree hheld
  · simp [hup, hpair]

end Sys2Proof.Machine

/-! ### Rounds, readings and scans

What the field core does at the end of a round and of a telemetry window, what the readings of its sensors, of VIN and of the
housekeeping ADC make it do, and what a read of a register clears or advances. -/

namespace Sys2Proof.Machine

/-! ### Rounds and windows (R185, R293, R301, R311, R324, R351) -/

/-- A round boundary that is due: its frame has started (R301), the field is out of reset and has a table, and each is taken once. -/
def State.RoundDue (s : State) : Prop :=
  s.time % 262144 = 0 ∧ s.time ≠ 0 ∧ s.inst.unitAt = s.time ∧ s.hk.roundAt ≠ s.time + 1 ∧ s.inst.inReset = false ∧
    (s.inst.committed = true ∨ s.inst.factory = true)

/-- A round that is due is closed, with its tests where the supervisors run; a freeze only starts its sums again (log entry 34), and
a halted supervisor leaves the report of the field alone. -/
theorem exec_housekeepingRound_of_due {s : State} (hdue : s.RoundDue) : exec .housekeepingRound s =
    let t := (if s.obs.frozen then s else s.retrain).closeRound (!s.obs.frozen && !s.inst.lockstep)
    if s.obs.frozen then .next t.newSums
    else if s.inst.lockstep then .next (t.sendReport (roundOf t.time - 1)).newRound
    else .next t.evalRound := by
  obtain ⟨htick, hpos, hframe, hfirst, hreset, htable⟩ := hdue
  exact if_neg (by simp [htick, hpos, hframe, hfirst, hreset, htable])

/-- A publication outside a freeze at the end of a window whose length stays: the sums of the window are published and start again. -/
theorem exec_tlmPublish_of_windowEnd {s : State} (hclosed : s.hk.roundAt = s.time + 1) (hfirst : s.hk.pubAt ≠ s.time + 1)
    (hpair : s.inst.lockstep = false) (hthawed : s.obs.frozen = false) (hsame : s.hk.win = s.hk.winInForce)
    (hend : roundOf s.time % 2 ^ s.hk.winInForce = 0) : exec .tlmPublish s =
      .next ((s.updHk fun h => { h with pubAt := s.time + 1 }).asideWindow.publish 1).restartWindow := by
  have hkept : (s.hk.win != s.hk.winInForce && roundOf s.time % 2 ^ s.hk.win == 0) = false := by simp [hsame]
  have hends : (roundOf s.time % 2 ^ s.hk.winInForce == 0) = true := beq_iff_eq.2 hend
  refine (if_neg (by simp [hclosed, hfirst, hpair])).trans ?_
  rw [hkept, hends, if_pos (.inl rfl), if_neg (not_not_intro rfl)]
  exact congrArg (fun u : State => (.next u.restartWindow : Out)) (if_neg (ne_true_of_eq_false hthawed))

/-- Settles O21: a due round goes by the freeze and then by the lockstep mismatch (`exec_housekeepingRound_of_due`), and a window that
ends is published (`exec_tlmPublish_of_windowEnd`). That a frozen round is only closed is log entry 34's. -/
theorem roundsCloseAtRoundBoundaries : Obligations.RoundsCloseAtRoundBoundaries := by
  refine ⟨fun s htick hpos hframe hfirst hreset htable => ?_, fun s hnot => if_pos ?_,
    fun s => exec_tlmPublish_of_windowEnd⟩
  · rw [exec_housekeepingRound_of_due ⟨htick, hpos, hframe, hfirst, hreset, htable⟩]
    refine ⟨fun hthawed hpair => ?_, fun hfrozen => ?_, fun hthawed hmismatch => ?_⟩
    · simp [hthawed, hpair]
    · simp [hfrozen]
    · simp [hthawed, hmismatch]
  · rcases hnot with htick | htaken | hreset
    · exact .inl htick
    · exact .inr (.inr (.inr (.inl htaken)))
    · exact .inr (.inr (.inr (.inr (.inl hreset))))

/-! ### Temperatures and VIN (R196, R291, R302) -/

/-- A sensor of a domain that comes to T_CRIT raises THERM_CRIT once, and the domain's ceiling goes down. -/
theorem exec_thermCrit_of_dom {i : Fin 128} {code : Int} {d : Nat} {s : State} (hvalid : (s.sensor i).valid = true)
    (hcool : (s.sensor i).hot = false) (hover : s.tCrit (s.thermGroup (sensorMitten i)) ≤ code) (hreset : s.inst.inReset = false)
    (hdom : s.mittenDom (sensorMitten i) = some d) : exec (.thermCrit i code) s =
      .next ((({ s with sensors := tset {} s.sensors i.val { s.sensor i with hot := true } } : State).raise
        cThermCrit (mkSrc 5 d) (uext 16 code + i.val * 65536)).critDomain d) := by
  have hmark : ({ s with sensors := tset {} s.sensors i.val { s.sensor i with hot := true } } : State).mittenDom (sensorMitten i) =
    some d := hdom
  refine (if_pos ⟨hvalid, ne_true_of_eq_false hcool, hover, ne_true_of_eq_false hreset⟩).trans ?_
  dsimp only
  rw [hmark]

/-- Settles O25: a reading is kept in its sensor's frame, and THERM_CRIT (`exec_thermCrit_of_dom`) and VIN_RANGE are raised where
their tests hold and their episodes have not begun. -/
theorem temperaturesAndVinAreActedOn : Obligations.TemperaturesAndVinAreActedOn := by
  refine ⟨⟨fun i code s hturn hreset => if_pos ⟨hturn, ne_true_of_eq_false hreset⟩,
      fun i code d s => exec_thermCrit_of_dom,
      fun i code s hnot => if_neg fun ⟨hvalid, _, hover, _⟩ => ?_, fun i code s hhot => if_neg fun ⟨_, hcool, _⟩ => hcool hhot⟩,
    fun s => ⟨fun hlong hnew => if_pos ⟨hlong, ne_true_of_eq_false hnew⟩, fun hraised => if_neg fun ⟨_, hnew⟩ => hnew hraised, rfl⟩⟩
  rcases hnot with hunder | hinvalid
  · exact absurd hover (Int.not_le.2 hunder)
  · exact ne_true_of_eq_false hinvalid hvalid

/-! ### The housekeeping ADC (R305, R309, R310, R324) -/

/-- An entry inside the sequence that is not yet in an episode raises HK_RANGE by the test of its kind: a thermistor by its round, any
other entry by its count of rounds. -/
theorem exec_hkRange_of_entry {i : Fin 16} {s : State} (hentry : i.val < s.adcEnts) (hnew : (s.adc i).range = false) :
    exec (.hkRange i) s =
      if (s.adcKind i = 3 ∧ (s.adc i).thOut = true) ∨ (s.adcKind i ≠ 3 ∧ 4 ≤ (s.adc i).outCnt) then
        .next ((s.updAdc i fun e => { e with range := true }).raise cHkRange (mkSrc 9 i)
          (uext 16 ((s.adc i).roundVal.getD 0) + if s.adcKind i = 3 then 0x20000 else 0x10000))
      else .next s := by
  change execHkRange i s = _
  simp only [execHkRange, hentry, hnew, true_and, beq_iff_eq, Bool.false_eq_true, not_false_eq_true, ne_eq]

/-- Settles O51: a scan starts at its period, and an entry raises what its own test finds, once (`exec_hkRange_of_entry`). That one
command takes the whole scan is log entry 52's. -/
theorem theHousekeepingAdcScans : Obligations.TheHousekeepingAdcScans := by
  refine ⟨fun uv s htable hents hpair hreset hperiod hfirst => if_neg ?_,
    fun uv s hoff => if_pos (.inr (.inr (.inr (.inr (.inl hoff))))),
    fun i s hentry hkind hcount hnew hready => if_pos ⟨hentry, hkind, hcount, ne_true_of_eq_false hnew, hready⟩,
    fun i s hentry hnew => ⟨fun hkind hout => ?_, fun hkind hcount => ?_⟩,
    fun i s hraised => if_neg fun ⟨_, hnew, _⟩ => hnew hraised⟩
  · simp [htable, hents, hpair, hreset, hperiod, hfirst]
  · rw [exec_hkRange_of_entry hentry hnew, if_pos (.inl ⟨hkind, hout⟩), if_pos hkind]
  · rw [exec_hkRange_of_entry hentry hnew, if_pos (.inr ⟨hkind, hcount⟩), if_neg hkind]

/-! ### Reads that clear or advance (R313, R321, R337, R338, R349, R354, R415, R417) -/

/-- A read of a peak answers the word as it stood before the read cleared it. -/
theorem exec_tlmPeakRead_of_peak {addr : BitVec 20} {s t : State} (hup : s.hostUp = true)
    (hpeak : s.clearPeak (addr.toNat / 4 * 4) = some t) :
    exec (.tlmPeakRead addr) s = .next (t.rspWordOf (s.regWord (addr.toNat / 4 * 4))) := by
  change execTlmPeakRead addr s = _
  simp only [execTlmPeakRead, hpeak, if_pos hup]

/-- A read of the log's window with the privilege bit goes by RDY alone. -/
theorem exec_logWin_of_priv {s : State} (hup : s.hostUp = true) : exec (.logWin true) s =
    if ¬s.logRdy then .next (s.rsp .okay 0) else .next (s.advance.rsp .okay (nth 0 s.log.win 15).toNat) :=
  (if_neg (not_not_intro hup)).trans (if_neg fun ⟨_, hbarred⟩ => hbarred rfl)

/-- Settles O59: each read acts on the one register or window that it names, where its condition holds. That a read of OBS_TRC_WIN
clears TRC_STS.FULL is log entry 59's. -/
theorem readsThatChangeState : Obligations.ReadsThatChangeState := by
  intro s hup
  have hserved : ¬¬s.hostUp = true := not_not_intro hup
  refine ⟨fun addr t => exec_tlmPeakRead_of_peak hup, if_neg hserved, if_pos hup, if_pos hup, if_pos hup,
    fun c => if_pos hup, if_pos hup, fun hallowed => if_neg ?_, fun hfrozen => ?_, fun hthawed => ?_, fun hready => ?_,
    fun hwait => ?_⟩
  · simp [hup, hallowed]
  · exact (if_neg hserved).trans (if_neg (not_not_intro hfrozen))
  · exact (if_neg hserved).trans (if_pos (ne_true_of_eq_false hthawed))
  · exact (exec_logWin_of_priv hup).trans (if_neg (not_not_intro hready))
  · exact (exec_logWin_of_priv hup).trans (if_pos (ne_true_of_eq_false hwait))

end Sys2Proof.Machine

/-! ### The recorder's flash

What the recorder's flash commands come to, and what the start-up scan leaves of the recorder. -/

namespace Sys2Proof.Machine

/-! ### Flushes, programs and erases (R330 to R332, R334) -/

/-- The end of a page program that runs. A power-fail flush reads nothing back, so its records count as written also where the
slots are spoilt; otherwise a failure retries or raises. -/
theorem exec_pageProgramDone_of_running {s : State} (hrun : s.log.prog ≠ []) (ok : Bool) : exec (.pageProgramDone ok) s =
    if s.log.pfMode then
      .next (if ok then s.programmed else { s.programmed with fresh := s.spoilSlots.fresh }.updLog fun l => { l with
        nvm := s.spoilSlots.log.nvm }).noteFlushed.flashNext.stageAfter
    else if ok then .next (s.programmed.endCause cLogWriteFail s.srcInst).noteFlushed.flashNext.stageAfter
    else .next s.programFailed.stageAfter :=
  if_neg (mt List.isEmpty_iff.1 hrun)

/-- Without a page program under way its end has no effect. -/
theorem exec_pageProgramDone_of_idle {s : State} (hidle : s.log.prog = []) (ok : Bool) : exec (.pageProgramDone ok) s = .next s :=
  if_pos (List.isEmpty_iff.2 hidle)

/-- A page program outside a power-fail flush has failed once its bound has passed. -/
theorem exec_flashBusyTimeout_of_running {s : State} (hrun : s.log.prog ≠ []) (hmode : s.log.pfMode = false) :
    exec .flashBusyTimeout s =
      if s.log.progFrom + s.log.info.tPage / 2 ≤ s.time then .next s.programFailed.stageAfter else .next s := by
  change execFlashBusyTimeout s = _
  have hbusy : ¬s.log.prog.isEmpty = true := mt List.isEmpty_iff.1 hrun
  simp only [execFlashBusyTimeout, hbusy, hmode, Bool.false_eq_true, not_false_eq_true, true_and]

/-- The end of an erase that runs: its slots are erased, or the sector is open and the erase is tried once more. -/
theorem exec_sectorEraseDone_of_running {v : Nat} {s : State} (herase : s.log.erase = some v) (hrun : s.log.eraseSusp = false)
    (ok : Bool) : exec (.sectorEraseDone ok) s =
      if ok then .next ((s.updLog fun l => { l with
        nvm := writeBytes 0xFF s.log.nvm (s.slotAddr (64 * v)) (List.replicate 4096 0xFF), erase := none, reclaim := none
        retryE := false }).dropBelow.noteFlushed.flashNext.stageAfter)
      else .next (if (s.halfErase v).log.retryE then (s.halfErase v).flashFail
        else (s.halfErase v).updLog fun l => { l with retryE := true }) := by
  change execSectorEraseDone ok s = _
  simp only [execSectorEraseDone, herase, hrun, Bool.false_eq_true, if_false]

/-! ### What a raise leaves of the recorder (R280, R327, R331)

The flits that a raise sends, its history entry and its occurrence leave the recorder alone; its record leaves what the start-up
scan sets. -/

@[simp] theorem State.updLink_log (s : State) (r : Ring) (f : Link → Link) : (s.updLink r f).log = s.log := rfl

@[simp] theorem State.toLinks_log (s : State) (rings : Nat) (f : Flit) : (s.toLinks rings f).log = s.log := by
  simp only [State.toLinks]
  repeat' split
  all_goals rfl

@[simp] theorem State.putOut_log (s : State) (rings : Nat) (f : Flit) : (s.putOut rings f).log = s.log := by
  rw [State.putOut, State.toLinks_log, State.updTth_log]

@[simp] theorem State.emitFlit_log (s : State) (rings : Nat) (f : Flit) : (s.emitFlit rings f).log = s.log := by
  unfold State.emitFlit
  extract_lets q word sent
  have hsent : sent.log = s.log := rfl
  split
  · rw [State.updTth_log, State.putOut_log, State.putOut_log, hsent]
  · rw [State.putOut_log, hsent]

@[simp] theorem State.sendOn_log (s : State) (rings : Nat) (f : Flit) : (s.sendOn rings f).log = s.log := by
  simp only [State.sendOn]
  repeat' split
  all_goals simp

@[simp] theorem State.freezeOn_log (s : State) (cls : Nat) : (s.freezeOn cls).log = s.log := by
  unfold State.freezeOn
  split
  · simp [State.schedFreeze, State.broadcast]
  · rfl

@[simp] theorem State.sortHist_log (s : State) (q n : Nat) : (s.sortHist q n).log = s.log := by
  induction n generalizing s q with
  | zero => rfl
  | succ n ih =>
    simp only [State.sortHist]
    split
    · exact ih _ _
    · rfl

@[simp] theorem State.addHist_log (s : State) (cls sev src data : Nat) : (s.addHist cls sev src data).log = s.log := by
  simp only [State.addHist]
  split
  · rfl
  · exact State.sortHist_log _ _ _

@[simp] theorem State.startGap_log (s : State) (cls src : Nat) : (s.startGap cls src).log = s.log := by
  simp only [State.startGap]
  repeat' split
  all_goals rfl

@[simp] theorem State.openOcc_log (s : State) (cls sev src data : Nat) : (s.openOcc cls sev src data).log = s.log := by
  unfold State.openOcc
  split <;> rfl

/-- What the start-up scan sets for good: that it is made, and that the device is usable (R335). -/
def Recorder.scan (l : Recorder) : Bool × Bool := (l.scanned, l.usable)

@[simp] theorem State.bufferRec_scan (s : State) (r : Rec) : (s.bufferRec r).log.scan = s.log.scan := by
  simp only [State.bufferRec]
  repeat' split
  all_goals rfl

@[simp] theorem State.flushOn_scan (s : State) (r : Rec) : (s.flushOn r).log.scan = s.log.scan := by
  simp only [State.flushOn]
  repeat' split
  all_goals rfl

theorem State.recordRaise_scan (s : State) (cls sev src data : Nat) : (s.recordRaise cls sev src data).log.scan = s.log.scan := by
  rw [State.recordRaise, State.flushOn_scan, State.bufferRec_scan]
  rfl

theorem State.raise_scan (s : State) (cls src data : Nat) : (s.raise cls src data).log.scan = s.log.scan := by
  simp only [State.raise, State.raiseSev, State.raiseCore, State.freezeOn_log]
  split
  · rw [State.openOcc_log, State.startGap_log, State.recordRaise_scan, State.addHist_log]
  · rw [State.recordRaise_scan, State.addHist_log]

/-! ### The start-up scan (R326, R335) -/

/-- The first scan of a manager whose device's header has passed is made: the device is usable from then on, also where the scan
raises LOG_LOST for what the last power cycle left deferred. -/
theorem exec_logScan_of_due {s : State} (hmgr : s.inst.manager = true) (hfirst : s.log.scanned = false)
    (hfound : s.log.info.found = true) (hheader : s.headerRc = 0) :
    Answers (exec .logScan s) fun t => t.log.scan = (true, true) := by
  change Answers (execLogScan s) _
  unfold execLogScan
  rw [if_neg (by simp [hmgr, hfirst, hfound, hheader])]
  dsimp only
  split
  · refine ⟨_, rfl, ?_⟩
    split
    · exact State.raise_scan _ _ _ _
    · rfl
  · exact ⟨_, rfl, rfl⟩

/-- Settles O53: the ends of a program and of an erase act where one runs (`exec_pageProgramDone_of_running`,
`exec_sectorEraseDone_of_running`), the flushes start where their triggers stand and writing is allowed, and the scan is made once
(`exec_logScan_of_due`) and leaves the device's bytes, which are in the kept part, as they are. What a failed program or erase
leaves in its slots is log entry 54's. -/
theorem theFlashTakesTheRecords : Obligations.TheFlashTakesTheRecords := by
  refine ⟨fun s htrig hnew hwrite hthawed hpair => ?_, fun s hrun hmode => ⟨?_, ?_, fun hover => ?_, fun hearly => ?_⟩,
    fun s hrun hmode => ⟨?_, ?_⟩,
    fun s hidle => ⟨exec_pageProgramDone_of_idle hidle true, exec_pageProgramDone_of_idle hidle false⟩,
    fun v s herase hrun => ⟨?_, ?_⟩, fun s htrig hmode hwrite => ?_, fun s hscanned => if_pos (.inr (.inl hscanned)),
    fun s hmgr hfirst hfound hheader => ?_⟩
  · exact if_pos ⟨htrig, ne_true_of_eq_false hnew, hwrite, ne_true_of_eq_false hthawed, ne_true_of_eq_false hpair⟩
  · simp [exec_pageProgramDone_of_running hrun, hmode]
  · simp [exec_pageProgramDone_of_running hrun, hmode]
  · exact (exec_flashBusyTimeout_of_running hrun hmode).trans (if_pos hover)
  · exact (exec_flashBusyTimeout_of_running hrun hmode).trans (if_neg (Nat.not_le.2 hearly))
  · simp [exec_pageProgramDone_of_running hrun, hmode]
  · simp [exec_pageProgramDone_of_running hrun, hmode]
  · exact (exec_sectorEraseDone_of_running herase hrun true).trans (if_pos rfl)
  · exact (exec_sectorEraseDone_of_running herase hrun false).trans (if_neg Bool.false_ne_true)
  · exact if_pos ⟨htrig, ne_true_of_eq_false hmode, hwrite⟩
  · obtain ⟨t, ht, hscan⟩ := exec_logScan_of_due hmgr hfirst hfound hheader
    obtain ⟨hscanned, husable⟩ := Prod.mk.inj hscan
    have hkept : t.kept = s.kept := execLogScan_kept s t ht
    exact ⟨t, ht, hscanned, husable, congrArg (fun k : Kept => k.mems.nvm) hkept⟩

end Sys2Proof.Machine

/-! ### The observation block, the host port and the TAP

How freezes, snapshots, dumps, trace and records act, how the host's commands are accepted, what the host port answers for a 64-bit
value and after a lockstep mismatch, and how the TAP is reset. -/

namespace Sys2Proof.Machine

/-! ### Freezes, snapshots and dumps (R350, R351, R353, R355, R357, R361) -/

/-- A THAW is taken in a freeze too. -/
theorem recv_thaw_of_takes {s : State} {r : Ring} {f : Flit} {c : Instr} {act : State → State} (htakes : s.takes 0x07 r f = true) :
    s.recv 0x07 r f c act = .next (act (s.taken r f)) :=
  (if_neg (by simp)).trans (if_pos htakes)

/-- The cut of a freeze comes at the end of its tick, outside another freeze and outside reset. -/
theorem exec_freezeCut_of_pending {tf : Nat} {s : State} (htf : s.obs.tf = some tf) (hthawed : s.obs.frozen = false)
    (hreset : s.inst.inReset = false) : exec .freezeCut s =
      if tf ≤ s.time then .next (forIdx 32 (fun c u => u.updCluster c fun y => { y with
        capReq := [], capRpt := [], capOver := 0 }) ((s.updObs fun o => { o with
          tf := none, frozen := true, timeInv := !s.tth.timeValid, capt := 0, cutTreps := [] }).updTth fun t => { t with
          capA := [], capB := [] }))
      else .next s := by
  change execFreezeCut s = _
  simp [execFreezeCut, htf, hthawed, hreset]

/-- A frozen die resumes at its thaw tick. -/
theorem exec_thawResume_of_pending {tt : Nat} {s : State} (htt : s.obs.tt = some tt) : exec .thawResume s =
    if s.obs.frozen ∧ tt ≤ s.time then .next (s.thawNow tt false) else .next s := by
  change execThawResume s = _
  simp [execThawResume, htt]

/-- Settles O43: FREEZE is taken outside a freeze (`recv_of_takes`) and THAW always (`recv_thaw_of_takes`); the cut, the thaw, the
snapshot and the dump go by their times. -/
theorem freezesCutAndResume : Obligations.FreezesCutAndResume := by
  refine ⟨fun f r s hthawed htakes => ⟨fun hworker hnone => ?_, fun hnot => ?_⟩,
    fun f r s htakes => ⟨fun hworker hstopped => ?_, fun hnot => ?_⟩,
    fun tf s htf hthawed hreset => ⟨fun hdue => ?_, fun hearly => ?_⟩,
    fun tt s htt => ⟨fun hfrozen hdue => ?_, fun hearly => ?_⟩, fun n s hat hdue => ?_,
    fun s hbusy hthawed => ⟨fun hdue => ?_, fun hearly => ?_⟩⟩
  · change execFreezeFlit ⟨f, r⟩ s = _
    rw [execFreezeFlit, recv_of_takes hthawed htakes, if_neg (by simp [hworker, hnone])]
    simp only [decide_eq_true_eq]
  · change execFreezeFlit ⟨f, r⟩ s = _
    rw [execFreezeFlit, recv_of_takes hthawed htakes, if_pos hnot]
  · change execThawFlit ⟨f, r⟩ s = _
    rw [execThawFlit, recv_thaw_of_takes htakes, if_neg (by simp [hworker, hstopped])]
  · change execThawFlit ⟨f, r⟩ s = _
    rw [execThawFlit, recv_thaw_of_takes htakes, if_pos (hnot.imp_right fun ⟨hthawed, hnone⟩ => by simp [hthawed, hnone])]
  · exact (exec_freezeCut_of_pending htf hthawed hreset).trans (if_pos hdue)
  · exact (exec_freezeCut_of_pending htf hthawed hreset).trans (if_neg (Nat.not_le.2 hearly))
  · exact (exec_thawResume_of_pending htt).trans (if_pos ⟨hfrozen, hdue⟩)
  · exact (exec_thawResume_of_pending htt).trans (if_neg fun ⟨_, hdue⟩ => Nat.not_le.2 hearly hdue)
  · exact if_pos (by simp [hat, hdue])
  · exact if_pos ⟨hbusy, hdue, ne_true_of_eq_false hthawed⟩
  · exact if_neg fun ⟨_, hdue, _⟩ => Nat.not_le.2 hearly hdue

/-! ### Trace and records on their way to the manager (R328, R347, R348) -/

/-- A TRACE message that is taken goes by the role, by its type, and by the lockstep mismatch. -/
theorem exec_trace_of_takes {f : Flit} {r : Ring} {s : State} (hthawed : s.obs.frozen = false) (htakes : s.takes 0x1B r f = true) :
    exec (.trace ⟨f, r⟩) s = .next (
      let u := s.taken r f
      if u.inst.manager = false then u
      else if bits (fbits f 104 16) 88 85 = 8 then u.takeRec (fSrc f) (fbits f 104 16)
      else if u.inst.lockstep then u
      else if (u.storeTrace (fbits f 104 16) (fSrc f)).2 then (u.storeTrace (fbits f 104 16) (fSrc f)).1
      else ((u.storeTrace (fbits f 104 16) (fSrc f)).1).dropTrace) := by
  change execTrace ⟨f, r⟩ s = _
  rw [execTrace, recv_of_takes hthawed htakes]
  simp only [Bool.not_eq_true]

/-- A worker that may send its record sends the next part of it. -/
theorem exec_logForward_of_next {r : Rec} {s : State} (hmay : s.mayForward = true) (hroom : s.traceOk = true)
    (hnext : s.nextForward = some r) : exec .logForward s = .next ((s.updLog fun l => { l with buf := l.buf.map fun e =>
      if e.key == r.key then { e with part := r.part + 1, gone := r.part == 5 } else e }).sendTrace (recMsg r.rseq r.part (
        if r.part < 5 then r.body % 2 ^ 320 / 2 ^ (64 * r.part) else crc32 (leBytes 40 (r.body % 2 ^ 320))))) := by
  change execLogForward s = _
  simp only [execLogForward, hmay, hroom, hnext, not_true_eq_false, or_self, if_false]

/-- Settles O44: a message is told apart by its type (`exec_trace_of_takes`), and a record leaves in its parts
(`exec_logForward_of_next`). -/
theorem recordsAndTraceReachTheManager : Obligations.RecordsAndTraceReachTheManager := by
  refine ⟨fun f r s hthawed htakes => ?_, fun w s hmgr hthawed => if_pos ⟨hmgr, ne_true_of_eq_false hthawed⟩,
    fun r s => exec_logForward_of_next, fun s hnot => if_pos (.inl (ne_true_of_eq_false hnot))⟩
  have htaken := exec_trace_of_takes hthawed htakes
  refine ⟨fun hworker => ?_, fun hmgr => ?_⟩
  · exact htaken.trans (congrArg _ (if_pos hworker))
  · have hrole := htaken.trans (congrArg _ (if_neg (by simp [hmgr])))
    refine ⟨fun hrec => hrole.trans (congrArg _ (if_pos hrec)), fun htrace hpair => hrole.trans (congrArg _ ?_)⟩
    exact (if_neg htrace).trans (if_neg (ne_true_of_eq_false hpair))

/-! ### The acceptance of commands (R242, R293, R391, R398, R399) -/

section Accept

variable {s : State} {code : Nat} {needPriv mgrOnly priv cool : Bool} {body : State → State}

/-- A write of CMD without the privilege that its code asks for is answered PRIV and does no more. -/
theorem runCmd_of_barred (hup : s.hostUp = true) (hneed : needPriv = true) (hpriv : priv = false) :
    s.runCmd code needPriv mgrOnly priv cool body = .next (s.privFail cmdAddr true) := by
  simp [State.runCmd, hup, hneed, hpriv]

/-- While a command runs, a write of CMD other than ABORT is answered and ignored. -/
theorem runCmd_of_busy (hup : s.hostUp = true) (hpriv : needPriv = false ∨ priv = true) (hbusy : s.host.cmd.isSome = true)
    (hcode : code ≠ 1) : s.runCmd code needPriv mgrOnly priv cool body =
      .next (s.updHost fun h => { h with ignored := true }).okay := by
  have hallowed : (needPriv && !priv) = false := by rcases hpriv with h | h <;> simp [h]
  simp [State.runCmd, hup, hallowed, hbusy, hcode]

/-- A command that finds no other running, or an ABORT, is accepted, and ends REFUSED where a gate bars it. -/
theorem runCmd_of_accepted (hup : s.hostUp = true) (hpriv : needPriv = false ∨ priv = true)
    (hfree : s.host.cmd = none ∨ code = 1) : s.runCmd code needPriv mgrOnly priv cool body =
      if s.cmdGate code mgrOnly then .next ((s.acceptCmd code cool).okay.startBody code body)
      else .next ((s.acceptCmd code cool).okay.cmdEnd 2) := by
  have hallowed : (needPriv && !priv) = false := by rcases hpriv with h | h <;> simp [h]
  have hidle : ¬(s.host.cmd.isSome = true ∧ code ≠ 1) := by rcases hfree with h | h <;> simp [h]
  simp [State.runCmd, hup, hallowed, hidle]

theorem runCmd_of_gate (hup : s.hostUp = true) (hpriv : needPriv = false ∨ priv = true) (hfree : s.host.cmd = none ∨ code = 1)
    (hgate : s.cmdGate code mgrOnly = true) : s.runCmd code needPriv mgrOnly priv cool body =
      .next ((s.acceptCmd code cool).okay.startBody code body) :=
  (runCmd_of_accepted hup hpriv hfree).trans (if_pos hgate)

theorem runCmd_of_no_gate (hup : s.hostUp = true) (hpriv : needPriv = false ∨ priv = true) (hfree : s.host.cmd = none ∨ code = 1)
    (hgate : s.cmdGate code mgrOnly = false) : s.runCmd code needPriv mgrOnly priv cool body =
      .next ((s.acceptCmd code cool).okay.cmdEnd 2) :=
  (runCmd_of_accepted hup hpriv hfree).trans (if_neg (ne_true_of_eq_false hgate))

/-- A field core that is READY and without a mismatch takes every command of its role. -/
theorem State.cmdGate_of_ready (hready : s.inst.ready = true) (hpair : s.inst.lockstep = false)
    (hrole : mgrOnly = false ∨ s.inst.manager = true) : s.cmdGate code mgrOnly = true := by
  rcases hrole with h | h <;> simp [State.cmdGate, hready, hpair, h]

/-- What only the manager accepts does not pass on a worker. -/
theorem State.cmdGate_of_worker (hworker : s.inst.manager = false) : s.cmdGate code true = false := by
  simp [State.cmdGate, hworker]

/-- ABORT passes in every state of the field core (R299). -/
theorem State.cmdGate_abort : s.cmdGate 1 false = true := by
  simp [State.cmdGate]

/-- A command that a freeze does not hold back has its effect at acceptance. -/
theorem State.startBody_of_runsFrozen (h : runsFrozen code = true) : s.startBody code body = body s :=
  if_neg fun ⟨_, hheld⟩ => hheld h

/-- An ABORT of a kind that its row names is accepted whatever runs, and has its effect at once or, in a freeze, at the thaw. -/
theorem runAbort_of_mine {mine : Nat → Bool} (hup : s.hostUp = true) (hmine : mine (s.host.arg.toNat % 16) = true) :
    s.runAbort mine false = .next (
      let u := (s.acceptCmd 1 false).okay
      if s.obs.frozen then u.updObs fun o => { o with abortHeld := some (u.cmdArg, s.host.cmd) }
      else u.abortNow u.cmdArg s.host.cmd) := by
  refine (if_neg (not_not_intro hmine)).trans ?_
  exact (runCmd_of_gate hup (.inl rfl) (.inr rfl) State.cmdGate_abort).trans (congrArg _ (State.startBody_of_runsFrozen rfl))

end Accept

/-- DOMAIN_ON on a READY field core is a command like the others. -/
theorem exec_domainOn_of_ready {s : State} {priv : Bool} (hready : s.inst.ready = true) :
    exec (.domainOn priv) s = s.runCmd 2 true false priv false State.bodyOn := by
  change execDomainOn priv s = _
  obtain ⟨t, ht⟩ := runCmd_continues s 2 true false priv false State.bodyOn
  simp [execDomainOn, ht, hready]

/-- Settles O54: a write of CMD is barred, ignored, started or refused (`runCmd_of_barred`, `runCmd_of_busy`, `runCmd_of_accepted`),
and an ABORT is accepted whatever runs (`runAbort_of_mine`). That its effect comes at acceptance is log entry 57's. -/
theorem commandsAreAcceptedOneAtATime : Obligations.CommandsAreAcceptedOneAtATime := by
  refine ⟨⟨fun code np mo priv cool body s hup => ⟨runCmd_of_barred hup, fun hpriv => ⟨runCmd_of_busy hup hpriv, fun hfree =>
      ⟨runCmd_of_gate hup hpriv hfree, runCmd_of_no_gate hup hpriv hfree⟩⟩⟩,
    fun p s => rfl, fun s hup hfree hready hpair => ?_, fun s hup hfree hready hpair hmgr => ?_, fun s hworker hup hfree => ?_⟩,
    fun mine s => runAbort_of_mine, fun p s => ⟨rfl, rfl, rfl, rfl, rfl, rfl, rfl, rfl⟩, fun mine p s hother => ?_⟩
  · have starts {code np priv cool body} (hpriv : np = false ∨ priv = true) :=
      runCmd_of_gate (code := code) (cool := cool) (body := body) hup hpriv (.inl hfree)
        (State.cmdGate_of_ready hready hpair (.inl rfl))
    refine ⟨(starts (.inl rfl)).trans (congrArg _ (State.startBody_of_runsFrozen rfl)),
      (exec_domainOn_of_ready hready).trans (starts (.inr rfl)), fun hone => ?_, starts (.inr rfl), starts (.inr rfl),
      starts (.inr rfl), fun cool => starts (.inr rfl), fun code hcode => ?_⟩
    · exact (if_neg (ne_true_of_eq_false hone)).trans (starts (.inr rfl))
    · exact (if_neg (Nat.not_lt.2 hcode)).trans (starts (.inl rfl))
  · have starts {code cool body} := runCmd_of_gate (code := code) (needPriv := true) (mgrOnly := true) (priv := true)
      (cool := cool) (body := body) hup (.inr rfl) (.inl hfree) (State.cmdGate_of_ready hready hpair (.inr hmgr))
    exact ⟨fun hall => (if_pos hall).trans starts, starts, starts, starts, starts, starts⟩
  · exact runCmd_of_no_gate hup (.inr rfl) (.inl hfree) (State.cmdGate_of_worker hworker)
  · exact if_pos (ne_true_of_eq_false hother)

/-! ### Reads of 64-bit values (R393) -/

/-- The word addresses that hold the low word of a 64-bit value. -/
def LowWord (a : Nat) : Prop :=
  (a % 8 = 0 ∧ 0x4110 ≤ a ∧ a < 0x4130) ∨ (0x4148 ≤ a ∧ a < 0x4160 ∧ a % 8 = 0) ∨ (0x8000 ≤ a ∧ a < 0xA000 ∧ a % 256 = 0x84) ∨
  (0x40000 ≤ a ∧ a < 0x40400 ∧ a % 8 = 0 ∧ a % 128 < 0x50) ∨ (0x42000 ≤ a ∧ a < 0x43000 ∧ a % 8 = 0) ∨
  (0x43000 ≤ a ∧ a < 0x43200 ∧ a % 16 = 8) ∨
  (0x44000 ≤ a ∧ a < 0x48000 ∧ (a % 128 = 0x08 ∨ a % 128 = 0x18 ∨ a % 128 = 0x28)) ∨ (0x58000 ≤ a ∧ a < 0x68000 ∧ a % 16 = 8) ∨
  a = 0x20 ∨ a = 0x4108 ∨ a = 0x4140 ∨ a = 0x4160 ∨ a = 0x20028 ∨ a = 0x40410 ∨ a = 0x40418 ∨ a = 0x40448 ∨ a = 0x41008

/-- The word addresses whose read clears, advances or is limited on its own (R337, R338, R349, R354, R407, R415, R417). -/
def ReadsByItself (a : Nat) : Prop :=
  a = 0x2010 ∨ a = 0x207C ∨ a = 0x3008 ∨ (0x20100 ≤ a ∧ a < 0x20180) ∨ a = 0x30008 ∨ a = 0x3000C ∨ a = 0x30020 ∨ a = 0x40464 ∨
  (0x40430 ≤ a ∧ a < 0x40440)

/-- An address that holds no low word names no 64-bit value (R393). -/
theorem State.wide_eq_none_of_not_lowWord (s : State) {a : Nat} (h : ¬LowWord a) : s.wide a = none := by
  simp only [LowWord, not_or] at h
  obtain ⟨hresid, hnrg, htrust, heng, hcnt, hrun, hsnap, hjob, hconst⟩ := h
  simp only [State.wide, if_neg hresid, if_neg hnrg, if_neg htrust, if_neg heng, if_neg hcnt, if_neg hrun, if_neg hsnap,
    if_neg hjob]
  split
  on_goal -1 => rfl
  all_goals simp at hconst

/-- Both words of a 64-bit value are registers (R401). -/
theorem LowWord.mapped {a : Nat} (h : LowWord a) : regMapped a = true ∧ regMapped (a + 4) = true := by
  rcases h with h | h | h | h | h | h | h | h | hconst
  on_goal -1 => rcases hconst with rfl | rfl | rfl | rfl | rfl | rfl | rfl | rfl | rfl <;> exact ⟨rfl, rfl⟩
  all_goals simp (disch := omega) only [regMapped, if_pos, if_neg, Bool.or_eq_true, Bool.and_eq_true, decide_eq_true_eq,
    beq_iff_eq, bne_iff_ne, and_self]
  all_goals omega

/-- A low word lies at a multiple of 8 outside the domain records, or is a DOM_TRUST (R411). -/
theorem LowWord.aligned {a : Nat} (h : LowWord a) :
    (a % 8 = 0 ∧ ¬(0x8000 ≤ a ∧ a < 0xA000)) ∨ (0x8000 ≤ a ∧ a < 0xA000 ∧ a % 256 = 0x84) := by
  unfold LowWord at h
  omega

/-- A high word is the low word of no other value. -/
theorem LowWord.not_lowWord_add_four {a : Nat} (h : LowWord a) : ¬LowWord (a + 4) := by
  intro hhigh
  have hlow := h.aligned
  have hhigh := hhigh.aligned
  omega

/-- Neither word of a 64-bit value is read in a way of its own. -/
theorem LowWord.not_readsByItself {a : Nat} (h : LowWord a) : ¬ReadsByItself a ∧ ¬ReadsByItself (a + 4) := by
  unfold LowWord at h
  unfold ReadsByItself
  omega

section Read

variable {addr : BitVec 20} {p : Bool} {s : State}

/-- A read that nothing bars, of a register without a way of its own to be read: a low word latches its high word, and a high word is
answered from the latch. -/
theorem exec_hostPriv_of_plain (hup : s.hostUp = true) (hmapped : regMapped (addr.toNat / 4 * 4) = true)
    (hpriv : (s.readNeedsPriv (addr.toNat / 4 * 4) && !p) = false) (hplain : ¬ReadsByItself (addr.toNat / 4 * 4)) :
    (∀ v, s.wide (addr.toNat / 4 * 4) = some v → exec (.hostPriv addr p) s = .next (s.readLow (addr.toNat / 4 * 4) v)) ∧
    (∀ v, s.wide (addr.toNat / 4 * 4) = none → s.wide (addr.toNat / 4 * 4 - 4) = some v →
      exec (.hostPriv addr p) s = .next (s.readHigh (addr.toNat / 4 * 4) v)) := by
  simp only [ReadsByItself, not_or] at hplain
  obtain ⟨hlost, hwin, hlate, hperr, herr, hundel, htlate, hscan, htrc⟩ := hplain
  have htrcWin : ¬addr.toNat / 4 * 4 = 0x4043C := by omega
  have htrcWords : ¬(0x40430 ≤ addr.toNat / 4 * 4 ∧ addr.toNat / 4 * 4 < 0x4043C) := by omega
  have hexec : exec (.hostPriv addr p) s = execHostPriv addr p s := rfl
  simp only [hexec, execHostPriv, hup, hmapped, hpriv, not_true_eq_false, if_false, Bool.false_eq_true, if_neg hlost, if_neg hwin,
    if_neg hlate, if_neg hperr, if_neg herr, if_neg hundel, if_neg htlate, if_neg hscan, if_neg htrcWin, if_neg htrcWords]
  exact ⟨fun v hlow => by rw [hlow], fun v hnone hlow => by rw [hnone, hlow]⟩

/-- A read of the low word that nothing bars answers it and latches the high word (R393). -/
theorem exec_lowWordRead_of_wide {v : Nat} (hup : s.hostUp = true) (hwide : s.wide (addr.toNat / 4 * 4) = some v)
    (hpriv : (s.readNeedsPriv (addr.toNat / 4 * 4) && !p) = false) :
    exec (.lowWordRead addr p) s = .next (s.readLow (addr.toNat / 4 * 4) v) := by
  change execLowWordRead addr p s = _
  simp [execLowWordRead, hup, hwide, hpriv]

end Read

/-- A read of a high word that is latched returns what was latched and frees the latch (R393). -/
theorem State.readHigh_of_latched {s : State} {a v : Nat} {x : Word} (h : tget none s.host.latch a = some x) :
    s.readHigh a v = (s.updHost fun h => { h with latch := tset none h.latch a none }).rsp .okay x.toNat := by
  rw [State.readHigh, h]

/-- Settles O58: the address of a 64-bit value is a `LowWord`, so the host's reads of its two words meet the low one with its
latch (`exec_hostPriv_of_plain`) and the high one with what it holds (`State.readHigh_of_latched`). -/
theorem sixtyFourBitReadsLatchTheHighWord : Obligations.SixtyFourBitReadsLatchTheHighWord := by
  intro addr high p v s hup hwide hhigh hpriv hprivHigh
  have hlow : LowWord (addr.toNat / 4 * 4) := by
    by_contra hnot
    simp [s.wide_eq_none_of_not_lowWord hnot] at hwide
  have hread := exec_lowWordRead_of_wide hup hwide hpriv
  refine ⟨hread, ?_, fun x hlatched => ?_⟩
  · exact ((exec_hostPriv_of_plain hup hlow.mapped.1 hpriv hlow.not_readsByItself.1).1 v hwide).trans hread.symm
  · have hnone : s.wide (high.toNat / 4 * 4) = none := s.wide_eq_none_of_not_lowWord (hhigh ▸ hlow.not_lowWord_add_four)
    have hanswer := (exec_hostPriv_of_plain hup (hhigh ▸ hlow.mapped.2) (hhigh ▸ hprivHigh)
      (hhigh ▸ hlow.not_readsByItself.2)).2 v hnone (by rw [hhigh]; exact hwide)
    rw [hanswer, hhigh, State.readHigh_of_latched hlatched]

/-! ### After a lockstep mismatch (R293, R349, R397) -/

/-- The entries of TILE_PAR that are registers have a parameter (R414). -/
theorem parIndex_of_regMapped {a : Nat} (hpar : 0x11800 ≤ a ∧ a < 0x11860) (hmapped : regMapped a = true) :
    parIndex (Fin.ofNat 24 ((a - 0x11800) / 4)) = true := by
  simp (disch := omega) only [regMapped, if_pos, if_neg, Bool.or_eq_true, decide_eq_true_eq] at hmapped
  simp only [parIndex, Fin.ofNat, Bool.or_eq_true, Bool.and_eq_true, decide_eq_true_eq]
  omega

section Lockstep

variable {s : State} {addr : BitVec 20} {w : Word}

/-- The outcome of a write that is refused, with nothing written. -/
def WriteRefused (s : State) (o : Out) : Prop := o = .next s.refuse

/-- Where every branch refuses, the order of the tests does not matter. -/
theorem WriteRefused.ite {c : Prop} [Decidable c] {a b : Out} (ha : c → WriteRefused s a) (hb : WriteRefused s b) :
    WriteRefused s (if c then a else b) :=
  ite_eq_iff'.2 ⟨ha, fun _ => hb⟩

theorem WriteRefused.skip {c : Prop} [Decidable c] {a b : Out} (hc : ¬c) (hb : WriteRefused s b) :
    WriteRefused s (if c then a else b) :=
  (if_neg hc).trans hb

/-- A privileged write of the host is refused, whatever the register and its value. -/
theorem hostPut_of_lockstep {a n : Nat} {early frz bad : Bool} {note put : State → State} (hup : s.hostUp = true)
    (hlock : s.inst.lockstep = true) : WriteRefused s (s.hostPut a n true early frz bad note put) := by
  simp [WriteRefused, State.hostPut, hup, hlock]

theorem execObsCntClr_of_lockstep (hup : s.hostUp = true) (hlock : s.inst.lockstep = true) :
    WriteRefused s (execObsCntClr w true s) := by
  simp [WriteRefused, execObsCntClr, hup, hlock]

theorem execObsTrcCtl_of_lockstep (hup : s.hostUp = true) (hlock : s.inst.lockstep = true) :
    WriteRefused s (execObsTrcCtl w true s) := by
  simp [WriteRefused, execObsTrcCtl, hup, hlock]

theorem execObsTrcMark_of_lockstep (hup : s.hostUp = true) (hlock : s.inst.lockstep = true) :
    WriteRefused s (execObsTrcMark w true s) := by
  simp [WriteRefused, execObsTrcMark, hup, hlock]

theorem execLogCur_of_lockstep {ctl : Bool} (hup : s.hostUp = true) (hlock : s.inst.lockstep = true) :
    WriteRefused s (execLogCur ctl w true s) := by
  simp [WriteRefused, execLogCur, hup, hlock]

theorem execTilePar_of_lockstep {k : Fin 24} (hup : s.hostUp = true) (hlock : s.inst.lockstep = true)
    (hindex : parIndex k = true) : WriteRefused s (execTilePar k w true s) :=
  .skip (not_not_intro hup) <| .skip (not_not_intro hindex) <| hostPut_of_lockstep hup hlock

/-- Every link of the chain of addresses refuses, but for those of CMD, CMD_ARG and FLT_ACK; most of them are writes of
`State.hostPut`. -/
theorem exec_registerWrite_of_lockstep (hup : s.hostUp = true) (hlock : s.inst.lockstep = true)
    (hmapped : regMapped (addr.toNat / 4 * 4) = true) (hcmd : addr.toNat / 4 * 4 ≠ 0x14) (harg : addr.toNat / 4 * 4 ≠ 0x18)
    (hack : addr.toNat / 4 * 4 ≠ 0x1004) : exec (.registerWrite addr w true) s = .next s.refuse := by
  have put {c : Prop} {a n early frz bad note put} (_ : c) : WriteRefused s (s.hostPut a n true early frz bad note put) :=
    hostPut_of_lockstep hup hlock
  change WriteRefused s (execRegisterWrite addr w true s)
  unfold execRegisterWrite
  refine .skip (not_not_intro hup) <| .skip (not_not_intro hmapped) <| .skip hcmd <| .skip harg <|
    .ite (fun _ => congrArg _ (if_pos hlock)) <| .ite put <| .skip hack <|
    .ite (fun _ => execLogCur_of_lockstep hup hlock) <| .ite (fun _ => execLogCur_of_lockstep hup hlock) <|
    .ite put <| .ite put <| .ite put <| .ite (fun h => .skip (not_not_intro h.2) (put h)) <|
    .ite put <| .ite put <| .ite put <|
    .ite (fun h => execTilePar_of_lockstep hup hlock (parIndex_of_regMapped h hmapped)) <|
    .ite put <| .ite put <| .ite put <| .ite put <| .ite put <|
    .ite (fun _ => execObsCntClr_of_lockstep hup hlock) <| .ite (fun _ => execObsTrcCtl_of_lockstep hup hlock) <|
    .ite (fun _ => execObsTrcMark_of_lockstep hup hlock) <| .ite put <|
    .ite (fun _ => .ite put (put trivial)) (put trivial)

/-- The outcome of a read that is not refused: it waits, or it is answered OKAY. -/
def ReadServed (s : State) (o : Out) : Prop := Answers o fun t => t = s ∨ t.host.rspSt = .okay

theorem ReadServed.ite {c : Prop} [Decidable c] {a b : Out} (ha : ReadServed s a) (hb : ReadServed s b) :
    ReadServed s (if c then a else b) := by
  split
  · exact ha
  · exact hb

theorem ReadServed.waits : ReadServed s (.next s) := ⟨s, rfl, .inl rfl⟩

theorem ReadServed.okay {t : State} (h : t.host.rspSt = .okay) : ReadServed s (.next t) := ⟨t, rfl, .inr h⟩

theorem State.rspWordOf_rspSt (s : State) (x : RegWord) : (s.rspWordOf x).host.rspSt = .okay := by
  unfold State.rspWordOf
  split <;> rfl

theorem State.readHigh_rspSt (s : State) (a v : Nat) : (s.readHigh a v).host.rspSt = .okay := by
  unfold State.readHigh
  split <;> rfl

/-- A privileged read of a register is served: only one of the trace window may have to wait (R349). -/
theorem exec_hostPriv_served (hup : s.hostUp = true) (hmapped : regMapped (addr.toNat / 4 * 4) = true) :
    ReadServed s (exec (.hostPriv addr true) s) := by
  have served {t : State} {x : RegWord} : ReadServed s (.next (t.rspWordOf x)) := .okay (t.rspWordOf_rspSt x)
  change ReadServed s (execHostPriv addr true s)
  unfold execHostPriv
  dsimp only
  rw [if_neg (not_not_intro hup), if_neg (not_not_intro hmapped), if_neg (by simp)]
  refine .ite (.ite .waits (.okay rfl)) <| .ite (.ite .waits ?_) <| .ite (.ite served .waits) <| .ite (.ite served .waits) <|
    .ite (.ite served .waits) <| .ite (.ite served .waits) <| .ite (.ite served .waits) <|
    .ite (.ite .waits (.okay rfl)) <| .ite (.ite .waits (.ite (.okay rfl) (.okay rfl))) <| .ite ?_ ?_
  · rw [if_neg (by simp)]
    exact .ite (.okay rfl) (.okay rfl)
  · split
    · exact .okay rfl
    · exact .waits
  · split
    · exact .okay rfl
    · exact .okay (s.readHigh_rspSt _ _)
    · exact served
    · exact served

/-- A command code outside NOP, ABORT, FLUSH_LOG and CLEAR_FAULT is accepted and ends REFUSED (R293). -/
theorem runCmd_of_lockstep {code : Nat} {mgrOnly priv cool : Bool} {body : State → State} (hup : s.hostUp = true)
    (hlock : s.inst.lockstep = true) (hfree : s.host.cmd = none) (hcode : code ∉ [0, 1, 0xA, 0xB]) :
    s.runCmd code false mgrOnly priv cool body = .next ((s.acceptCmd code cool).okay.cmdEnd 2) :=
  runCmd_of_no_gate hup (.inl rfl) (.inl hfree) (by simp [State.cmdGate, hlock, List.contains_eq_mem, hcode])

end Lockstep

/-- Settles O57: a mismatch refuses a write of every other register (`exec_registerWrite_of_lockstep`) and every other command
(`runCmd_of_lockstep`), and no read (`exec_hostPriv_served`). -/
theorem lockstepRefusesWrites : Obligations.LockstepRefusesWrites := by
  intro addr w s hup hlock hmapped
  refine ⟨exec_registerWrite_of_lockstep hup hlock hmapped, fun harg => ?_, fun hack => ?_, fun hcmd => ?_,
    fun code mgrOnly priv cool body hfree hcode => runCmd_of_lockstep hup hlock hfree hcode, exec_hostPriv_served hup hmapped⟩
  · change execRegisterWrite addr w true s = _
    simp [execRegisterWrite, hup, harg, regMapped]
  · change execRegisterWrite addr w true s = execFltAck w true s
    simp [execRegisterWrite, hup, hack, regMapped]
  · change execRegisterWrite addr w true s = _
    simp [execRegisterWrite, hup, hcmd, regMapped]

/-! ### The test access port (R387, R388) -/

/-- A state with another TAP and another counter of the free values. -/
def State.withTap (s : State) (t : Tap) (n : Nat) : State := { s with tap := t, fresh := n }

/-- A rising edge captures or shifts in the TAP alone, moves the controller as IEEE 1149.1 has it, and never sets the counter of the
free values back. -/
theorem State.tapRise_eq_withTap (s : State) (tms tdi : Bool) :
    ∃ t n, s.tapRise tms tdi = s.withTap t n ∧ s.fresh ≤ n ∧ t.state = s.tap.state.next tms := by
  unfold State.tapRise
  dsimp only
  split
  case h_1 => exact ⟨_, _, rfl, Nat.le_add_right _ _, rfl⟩
  case h_2 =>
    split
    · exact ⟨_, _, rfl, Nat.le_refl _, rfl⟩
    · exact ⟨_, _, rfl, Nat.le_add_right _ _, rfl⟩
  case h_3 => exact ⟨_, _, rfl, Nat.le_add_right _ _, rfl⟩
  all_goals exact ⟨_, _, rfl, Nat.le_refl _, rfl⟩

/-- A falling edge updates registers of the TAP alone, and leaves the controller where it is. -/
theorem State.tapFall_eq_withTap (s : State) : s.tapFall = s.withTap s.tapFall.tap s.fresh := rfl

theorem State.tapFall_tap_state (s : State) : s.tapFall.tap.state = s.tap.state := by
  unfold State.tapFall
  rw [State.updTap_self]
  dsimp only
  split
  case h_3 => split <;> rfl
  all_goals rfl

/-- The falling edge in Test-Logic-Reset selects IDCODE and releases TDO. -/
theorem State.tapFall_of_testLogicReset {s : State} (h : s.tap.state = .testLogicReset) :
    s.tapFall.tap.ir = 0x01 ∧ s.tapFall.tap.tdo = none := by
  unfold State.tapFall
  rw [State.updTap_self]
  simp [h]

/-- A period of TCK touches the TAP and the counter of the free values alone, and moves the controller by TMS. -/
theorem State.tck_eq_withTap (s : State) (tms tdi : Bool) : ∃ t n, (s.tapRise tms tdi).tapFall = s.withTap t n ∧ s.fresh ≤ n ∧
    t.state = s.tap.state.next tms := by
  obtain ⟨t, n, hrise, hfresh, hstate⟩ := s.tapRise_eq_withTap tms tdi
  rw [hrise]
  exact ⟨_, n, State.tapFall_eq_withTap _, hfresh, (State.tapFall_tap_state _).trans hstate⟩

theorem State.tck_tap_state (s : State) (tms tdi : Bool) : (s.tapRise tms tdi).tapFall.tap.state = s.tap.state.next tms := by
  obtain ⟨t, n, htck, -, hstate⟩ := s.tck_eq_withTap tms tdi
  rw [htck]
  exact hstate

/-- A period of TCK that ends in Test-Logic-Reset leaves IDCODE selected and TDO released. -/
theorem State.tck_of_testLogicReset {s : State} {tms tdi : Bool} (h : s.tap.state.next tms = .testLogicReset) :
    (s.tapRise tms tdi).tapFall.tap.ir = 0x01 ∧ (s.tapRise tms tdi).tapFall.tap.tdo = none :=
  State.tapFall_of_testLogicReset (by rw [← State.tapFall_tap_state, State.tck_tap_state, h])

/-- Five periods with TMS high lead to Test-Logic-Reset from every state of the controller. -/
theorem TapState.next_true_five (x : TapState) :
    ((((x.next true).next true).next true).next true).next true = .testLogicReset := by
  cases x <;> rfl

theorem exec_tck (tms tdi : Bool) (s : State) : exec (.tck tms tdi) s = .next (s.tapRise tms tdi).tapFall := rfl

/-- Settles O60: a TCK writes the TAP and the counter alone (`State.tck_eq_withTap`), and five with TMS high reach Test-Logic-Reset
(`TapState.next_true_five`), where the falling edge selects IDCODE (`State.tck_of_testLogicReset`). -/
theorem theTapResets : Obligations.TheTapResets := by
  refine ⟨fun s => rfl, fun tms tdi s => ⟨exec_tck tms tdi s, _, exec_tck tms tdi s, ?_⟩, fun b1 b2 b3 b4 b5 s => ?_⟩
  · obtain ⟨t, n, htck, hfresh, hstate⟩ := s.tck_eq_withTap tms tdi
    rw [htck]
    exact ⟨rfl, hfresh, hstate⟩
  · simp only [exec_tck, leads_next]
    refine ⟨?_, State.tck_of_testLogicReset ?_⟩ <;> simp only [State.tck_tap_state, TapState.next_true_five]

end Sys2Proof.Machine
